-- ==== Sys2Proof/Word.lean ====
section
/-! DEFINITION. The machine's words (R3, R10, R11) and the sparse map that files of registers and of units use. -/
namespace Sys2Proof

/-- A byte of memory. -/
abbrev Byte := BitVec 8
/-- One slot of a bundle, 32 bits (R59); also one lane of a vector register (R11). -/
abbrev W32 := BitVec 32
/-- A scalar register (R10). -/
abbrev W64 := BitVec 64
/-- A vector register: 64 lanes of 32 bits (R10, R11). -/
abbrev V2048 := BitVec 2048
/-- A 384-bit digest (R366). -/
abbrev W384 := BitVec 384
/-- A file of like things by number: pairs in rising order of number; a number not listed holds the
file's reset value, which the accessor of the file names. -/
abbrev Map (α : Type) := List (Nat × α)

end Sys2Proof
end

