-- ==== Sys2Proof/Machine/Bits.lean ====
section
/-! DEFINITION. Sparse maps, bit fields, sign extension and the integer helpers of R38. -/
namespace Sys2Proof.Machine

/-- The entry of number k, or the default d where none is listed. -/
def mget {α : Type} (d : α) : Map α → Nat → α
  | [], _ => d
  | (j, v) :: m, k => if k = j then v else mget d m k

/-- The map with entry k set to v, in rising order. -/
def mset {α : Type} : Map α → Nat → α → Map α
  | [], k, v => [(k, v)]
  | (j, w) :: m, k, v =>
    if k = j then (k, v) :: m
    else if k < j then (k, v) :: (j, w) :: m
    else (j, w) :: mset m k v

/-- Every listed entry replaced by f of its number and value. -/
def mmap {α : Type} (f : Nat → α → α) : Map α → Map α
  | [] => []
  | (j, v) :: m => (j, f j v) :: mmap f m

/-- Bits [lo+n-1:lo] of a number. -/
def bits (x lo n : Nat) : Nat := x / 2 ^ lo % 2 ^ n

/-- Bit i of a number. -/
def bit (x i : Nat) : Bool := x / 2 ^ i % 2 == 1

/-- Bits [hi:lo] of a 64-bit word, as a number (R3). -/
def fld (x : W64) (lo n : Nat) : Nat := bits x.toNat lo n

/-- The low n bits of x read as two's complement (R36). -/
def sextNat (x n : Nat) : Int :=
  let y := x % 2 ^ n
  if 2 * y < 2 ^ n then (y : Int) else (y : Int) - 2 ^ n

/-- Wrap(x, w) of R38, as the w-bit word. -/
def wrap (w : Nat) (x : Int) : BitVec w := BitVec.ofInt w x

/-- SatS64 of R38. -/
def satS64 (x : Int) : Int := max (-(2 ^ 63)) (min x (2 ^ 63 - 1))

/-- SatS32 of R38. -/
def satS32 (x : Int) : Int := max (-(2 ^ 31)) (min x (2 ^ 31 - 1))

/-- SatZ32 of R38. -/
def satZ32 (x : Int) : Int := max 0 (min x (2 ^ 32 - 1))


/-- The lesser and the greater of two words, signed and unsigned. -/
def minS (x y : W64) : W64 := if x.toInt ≤ y.toInt then x else y
def maxS (x y : W64) : W64 := if x.toInt ≤ y.toInt then y else x
def minZ (x y : W64) : W64 := if x.toNat ≤ y.toNat then x else y
def maxZ (x y : W64) : W64 := if x.toNat ≤ y.toNat then y else x

/-- 1 for true, 0 for false, as a 64-bit word. -/
def b64 (b : Bool) : W64 := if b then 1 else 0

/-- 1 for true, 0 for false. -/
def bn (b : Bool) : Nat := if b then 1 else 0

/-- A bit vector of n bits whose bit i is f i. -/
def ofBits (f : Nat → Bool) : Nat → Nat
  | 0 => 0
  | n + 1 => ofBits f n + (if f n then 2 ^ n else 0)

/-- The sum of f over 0 to n - 1. -/
def sumTo (f : Nat → Nat) : Nat → Nat
  | 0 => 0
  | n + 1 => sumTo f n + f n

/-- The list f 0, …, f (n - 1). -/
def tab {α : Type} (f : Nat → α) (n : Nat) : List α := (List.range n).map f

/-- Items of w bits each, item 0 lowest, packed into one number. -/
def pack (w : Nat) : List Nat → Nat
  | [] => 0
  | x :: xs => x % 2 ^ w + 2 ^ w * pack w xs

/-- Lane i (32 bits) of a vector (R11). -/
def lane (v : V2048) (i : Nat) : W32 := BitVec.ofNat 32 (v.toNat / 2 ^ (32 * i))

/-- The vector whose lane i is f i (R11). -/
def vecOf (f : Nat → W32) : V2048 := BitVec.ofNat 2048 (pack 32 (tab (fun i => (f i).toNat) 64))

/-- Number of 1 bits among the low n bits of x. -/
def popc (x : Nat) : Nat → Nat
  | 0 => 0
  | n + 1 => popc x n + (if bit x n then 1 else 0)

/-- The lowest i < n whose bit of x is 1, or n. -/
def lowestBit (x n : Nat) : Nat := ((List.range n).find? (bit x ·)).getD n

/-- The highest i < n whose bit of x is 1. -/
def highestBit (x : Nat) : Nat → Option Nat
  | 0 => none
  | n + 1 => if bit x n then some n else highestBit x n

/-- The x of a list at position i, replaced. -/
def setAt {α : Type} : List α → Nat → α → List α
  | [], _, _ => []
  | _ :: xs, 0, y => y :: xs
  | x :: xs, n + 1, y => x :: setAt xs n y

/-- Floor of the square root of n, by trial of k + 1 result bits from the top (R46). -/
def isqrt (n : Nat) : Nat → Nat
  | 0 => if 1 ≤ n then 1 else 0
  | k + 1 => go n k (if 4 ^ (k + 1) ≤ n then 2 ^ (k + 1) else 0)
where
  go (n : Nat) : Nat → Nat → Nat
    | 0, r => if (r + 1) ^ 2 ≤ n then r + 1 else r
    | j + 1, r => go n j (if (r + 2 ^ (j + 1)) ^ 2 ≤ n then r + 2 ^ (j + 1) else r)

end Sys2Proof.Machine
end

