-- ==== Sys2Proof/Syntax.lean ====
section
/-! DEFINITION. The abstract syntax: one constructor per row of spec/opcode_table.json, in the table's order.
A slot encoding carries its operand fields (R69, R72); the frame fields S and G belong to the bundle (R59).
A row without an encoding is a step of another agent of the device, and carries the place where it happens. -/

namespace Sys2Proof

/-- The instructions and agent steps of the Strelgor KS-S64 (R74, Tables 14 to 17, and the event rows). -/
inductive Instr where
  /-- R116: Does nothing; its frame bits may still carry a wait count or a guard. -/
  | nop
  /-- R116: Scheduling hint: the merge stage passes over the context the next time it would be chosen as primary. -/
  | yield
  /-- R117: Ends the context after its bundle; it releases owned resources, rings, locks and epochs. -/
  | exit
  /-- R116: Post-bundle trap BRK, with REASON set to the immediate n. -/
  | brk (n : BitVec 6)
  /-- R116: Post-bundle trap SWTRAP, with REASON set to the immediate n. -/
  | trap (n : BitVec 6)
  /-- R116: Writes the cluster CYCLE counter as sampled at issue. -/
  | rdcyc (d : BitVec 6)
  /-- R35: Writes the identity value that selector B chooses: context, cluster, site, gang, rank or size. -/
  | rdid (d : BitVec 6) (n : BitVec 6)
  /-- R118: D := A + B modulo 2^64. -/
  | add (d : BitVec 6) (a : BitVec 6) (b : BitVec 6)
  /-- R118: D := A - B modulo 2^64. -/
  | sub (d : BitVec 6) (a : BitVec 6) (b : BitVec 6)
  /-- R118: Bitwise AND of A and B. -/
  | and (d : BitVec 6) (a : BitVec 6) (b : BitVec 6)
  /-- R118: Bitwise OR of A and B. -/
  | or (d : BitVec 6) (a : BitVec 6) (b : BitVec 6)
  /-- R118: Bitwise XOR of A and B. -/
  | xor (d : BitVec 6) (a : BitVec 6) (b : BitVec 6)
  /-- R118: D := A AND NOT B. -/
  | andn (d : BitVec 6) (a : BitVec 6) (b : BitVec 6)
  /-- R118: D := A OR NOT B. -/
  | orn (d : BitVec 6) (a : BitVec 6) (b : BitVec 6)
  /-- R118: Absolute signed difference of A and B, read as an unsigned result. -/
  | abd (d : BitVec 6) (a : BitVec 6) (b : BitVec 6)
  /-- R118: Shifts A left by B[5:0]. -/
  | shl (d : BitVec 6) (a : BitVec 6) (b : BitVec 6)
  /-- R118: Logical right shift of A by B[5:0]. -/
  | shr (d : BitVec 6) (a : BitVec 6) (b : BitVec 6)
  /-- R118: Arithmetic right shift of A by B[5:0]. -/
  | sar (d : BitVec 6) (a : BitVec 6) (b : BitVec 6)
  /-- R118: Rotates A left by B[5:0]. -/
  | rol (d : BitVec 6) (a : BitVec 6) (b : BitVec 6)
  /-- R118: Counts the leading zero bits of A. -/
  | clz (d : BitVec 6) (a : BitVec 6)
  /-- R118: Counts the trailing zero bits of A. -/
  | ctz (d : BitVec 6) (a : BitVec 6)
  /-- R118: Counts the one bits of A. -/
  | popc (d : BitVec 6) (a : BitVec 6)
  /-- R118: Reverses the bit order of A. -/
  | brev (d : BitVec 6) (a : BitVec 6)
  /-- R118: Low 64 bits of A times B. -/
  | mul (d : BitVec 6) (a : BitVec 6) (b : BitVec 6)
  /-- R118: High 64 bits of the signed product of A and B. -/
  | mulhs (d : BitVec 6) (a : BitVec 6) (b : BitVec 6)
  /-- R118: High 64 bits of the unsigned product of A and B. -/
  | mulhz (d : BitVec 6) (a : BitVec 6) (b : BitVec 6)
  /-- R37: Signed quotient, interlocked, never traps. -/
  | divs (d : BitVec 6) (a : BitVec 6) (b : BitVec 6)
  /-- R37: Unsigned quotient, interlocked. -/
  | divz (d : BitVec 6) (a : BitVec 6) (b : BitVec 6)
  /-- R37: Signed remainder, interlocked. -/
  | rems (d : BitVec 6) (a : BitVec 6) (b : BitVec 6)
  /-- R37: Unsigned remainder, interlocked. -/
  | remz (d : BitVec 6) (a : BitVec 6) (b : BitVec 6)
  /-- R118: Exact 64-bit product of the low 32 bits of A and B, read as signed. -/
  | mulw (d : BitVec 6) (a : BitVec 6) (b : BitVec 6)
  /-- R118: Signed minimum of A and B. -/
  | mins (d : BitVec 6) (a : BitVec 6) (b : BitVec 6)
  /-- R118: Signed maximum of A and B. -/
  | maxs (d : BitVec 6) (a : BitVec 6) (b : BitVec 6)
  /-- R118: Unsigned minimum of A and B. -/
  | minz (d : BitVec 6) (a : BitVec 6) (b : BitVec 6)
  /-- R118: Unsigned maximum of A and B. -/
  | maxz (d : BitVec 6) (a : BitVec 6) (b : BitVec 6)
  /-- R119: Extracts a bit field of A at the position and width given in B. -/
  | bfx (d : BitVec 6) (a : BitVec 6) (b : BitVec 6)
  /-- R119: Inserts the low bits of A into a field of the old D. -/
  | bfi (d : BitVec 6) (a : BitVec 6) (b : BitVec 6)
  /-- R119: Sign-extends the low n bits of A. -/
  | sext (d : BitVec 6) (a : BitVec 6) (b : BitVec 6)
  /-- R119: Zero-extends the low n bits of A. -/
  | zext (d : BitVec 6) (a : BitVec 6) (b : BitVec 6)
  /-- R122: c := A == B. -/
  | ceq (c : BitVec 3) (a : BitVec 6) (b : BitVec 6)
  /-- R122: c := A != B. -/
  | cne (c : BitVec 3) (a : BitVec 6) (b : BitVec 6)
  /-- R122: c := signed A < B. -/
  | clts (c : BitVec 3) (a : BitVec 6) (b : BitVec 6)
  /-- R122: c := signed A <= B. -/
  | cles (c : BitVec 3) (a : BitVec 6) (b : BitVec 6)
  /-- R122: c := unsigned A < B. -/
  | cltz (c : BitVec 3) (a : BitVec 6) (b : BitVec 6)
  /-- R122: c := unsigned A <= B. -/
  | clez (c : BitVec 3) (a : BitVec 6) (b : BitVec 6)
  /-- R122: c := (A AND B) != 0. -/
  | ctst (c : BitVec 3) (a : BitVec 6) (b : BitVec 6)
  /-- R123: Condition AND of two condition registers. -/
  | cand (d : BitVec 3) (a : BitVec 3) (b : BitVec 3)
  /-- R123: Condition OR of two condition registers. -/
  | cor (d : BitVec 3) (a : BitVec 3) (b : BitVec 3)
  /-- R123: Condition XOR of two condition registers. -/
  | cxor (d : BitVec 3) (a : BitVec 3) (b : BitVec 3)
  /-- R123: Condition AND NOT of two condition registers. -/
  | candn (d : BitVec 3) (a : BitVec 3) (b : BitVec 3)
  /-- R123: c := (A != 0). -/
  | cmov (d : BitVec 3) (a : BitVec 6)
  /-- R123: D := 1 if the condition register is true, else 0. -/
  | cget (d : BitVec 6) (a : BitVec 3)
  /-- R124: D := c[FN] ? A : B; both operands are read. -/
  | sel (d : BitVec 6) (a : BitVec 6) (b : BitVec 6) (c : BitVec 3)
  /-- R120: D := A + sign-extended immediate. -/
  | addi (d : BitVec 6) (a : BitVec 6) (imm : BitVec 9)
  /-- R120: D := A AND immediate. -/
  | andi (d : BitVec 6) (a : BitVec 6) (imm : BitVec 9)
  /-- R120: D := A OR immediate. -/
  | ori (d : BitVec 6) (a : BitVec 6) (imm : BitVec 9)
  /-- R120: D := A XOR immediate. -/
  | xori (d : BitVec 6) (a : BitVec 6) (imm : BitVec 9)
  /-- R120: Shifts A left by an unsigned immediate amount. -/
  | shli (d : BitVec 6) (a : BitVec 6) (k : BitVec 6)
  /-- R120: Logical right shift of A by an immediate amount. -/
  | shri (d : BitVec 6) (a : BitVec 6) (k : BitVec 6)
  /-- R120: Arithmetic right shift of A by an immediate amount. -/
  | sari (d : BitVec 6) (a : BitVec 6) (k : BitVec 6)
  /-- R120: Rotates A left by an immediate amount. -/
  | roli (d : BitVec 6) (a : BitVec 6) (k : BitVec 6)
  /-- R122: c := A == imm. -/
  | ceqi (c : BitVec 3) (a : BitVec 6) (imm : BitVec 9)
  /-- R122: c := A != imm. -/
  | cnei (c : BitVec 3) (a : BitVec 6) (imm : BitVec 9)
  /-- R122: c := signed A < imm. -/
  | cltsi (c : BitVec 3) (a : BitVec 6) (imm : BitVec 9)
  /-- R122: c := signed A <= imm. -/
  | clesi (c : BitVec 3) (a : BitVec 6) (imm : BitVec 9)
  /-- R122: c := unsigned A < imm. -/
  | cltzi (c : BitVec 3) (a : BitVec 6) (imm : BitVec 9)
  /-- R122: c := unsigned A <= imm. -/
  | clezi (c : BitVec 3) (a : BitVec 6) (imm : BitVec 9)
  /-- R122: c := signed A > imm. -/
  | cgtsi (c : BitVec 3) (a : BitVec 6) (imm : BitVec 9)
  /-- R122: c := unsigned A > imm. -/
  | cgtzi (c : BitVec 3) (a : BitVec 6) (imm : BitVec 9)
  /-- R121: D := sign-extended immediate. -/
  | movi (d : BitVec 6) (imm : BitVec 15)
  /-- R121: D := bundle address + imm × 4. -/
  | adr (d : BitVec 6) (imm : BitVec 15)
  /-- R125: Scalar load of the size and extension that SZ gives; may post-increment the base; interlocked. -/
  | ld (d : BitVec 6) (r : BitVec 4) (u : BitVec 1) (z : BitVec 3) (o : BitVec 7)
  /-- R125: Stores the low 1, 2, 4 or 8 bytes of the source; may post-increment the base. -/
  | st (d : BitVec 6) (r : BitVec 4) (u : BitVec 1) (z : BitVec 3) (o : BitVec 7)
  /-- R129: Writes back the dirty L1 lines of a range; blocks until the write-backs are accepted. -/
  | dclean (a : BitVec 6) (b : BitVec 6)
  /-- R129: Invalidates the L1 lines of a range; partly covered lines are written back first. -/
  | dinv (a : BitVec 6) (b : BitVec 6)
  /-- R129: Writes back, then invalidates, the L1 lines of a range. -/
  | dflush (a : BitVec 6) (b : BitVec 6)
  /-- R130: Discards the instruction-cache and fetch-buffer copies of a range. -/
  | isync (a : BitVec 6) (b : BitVec 6)
  /-- R131: Blocks until earlier accesses are performed at the cluster, site or panel scope. -/
  | fence (a : BitVec 6)
  /-- R132: Hint that asks the L1 to hold the line of an address. -/
  | pref (a : BitVec 6)
  /-- R125: Indexed load from A + B × size; interlocked. -/
  | ldx (d : BitVec 6) (a : BitVec 6) (b : BitVec 6) (z : BitVec 3)
  /-- R133: PC-relative branch. -/
  | br (imm : BitVec 21)
  /-- R133: PC-relative call; pushes the next bundle's address. -/
  | call (imm : BitVec 21)
  /-- R134: Pops the return stack, with a refill if it is empty, and transfers. -/
  | ret
  /-- R134: Transfers to the register target. -/
  | jr (a : BitVec 6)
  /-- R134: Pushes the next bundle's address and transfers to the register target. -/
  | callr (a : BitVec 6)
  /-- R135: Branches on a predicate that must be uniform over the active lanes; otherwise traps NONUNIFORM. -/
  | bru (d : BitVec 3) (a : BitVec 6) (b : BitVec 3)
  /-- R136: Makes the next n bundles a loop body replayed s[A] times. -/
  | lbuf (n : BitVec 6) (a : BitVec 6)
  /-- R96: Issues the bundle's mma N times, stepping two address registers. -/
  | rpt (n : BitVec 9) (x : BitVec 4) (y : BitVec 4) (inc1 : BitVec 2) (inc2 : BitVec 2)
  /-- R139: Binary32 addition, rounded in FCTL.RM. -/
  | faddF32 (d : BitVec 6) (a : BitVec 6) (b : BitVec 6)
  /-- R139: Binary32 subtraction. -/
  | fsubF32 (d : BitVec 6) (a : BitVec 6) (b : BitVec 6)
  /-- R139: Binary32 multiplication. -/
  | fmulF32 (d : BitVec 6) (a : BitVec 6) (b : BitVec 6)
  /-- R139: Binary32 division, interlocked. -/
  | fdivF32 (d : BitVec 6) (a : BitVec 6) (b : BitVec 6)
  /-- R139: Binary32 square root, interlocked. -/
  | fsqrtF32 (d : BitVec 6) (a : BitVec 6)
  /-- R139: Binary32 minimum under R42. -/
  | fminF32 (d : BitVec 6) (a : BitVec 6) (b : BitVec 6)
  /-- R139: Binary32 maximum under R42. -/
  | fmaxF32 (d : BitVec 6) (a : BitVec 6) (b : BitVec 6)
  /-- R139: Binary32 fused A × B + old D, rounded once. -/
  | ffmaF32 (d : BitVec 6) (a : BitVec 6) (b : BitVec 6)
  /-- R139: Binary64 addition. -/
  | faddF64 (d : BitVec 6) (a : BitVec 6) (b : BitVec 6)
  /-- R139: Binary64 subtraction. -/
  | fsubF64 (d : BitVec 6) (a : BitVec 6) (b : BitVec 6)
  /-- R139: Binary64 multiplication. -/
  | fmulF64 (d : BitVec 6) (a : BitVec 6) (b : BitVec 6)
  /-- R139: Binary64 division, interlocked. -/
  | fdivF64 (d : BitVec 6) (a : BitVec 6) (b : BitVec 6)
  /-- R139: Binary64 square root, interlocked. -/
  | fsqrtF64 (d : BitVec 6) (a : BitVec 6)
  /-- R139: Binary64 minimum. -/
  | fminF64 (d : BitVec 6) (a : BitVec 6) (b : BitVec 6)
  /-- R139: Binary64 maximum. -/
  | fmaxF64 (d : BitVec 6) (a : BitVec 6) (b : BitVec 6)
  /-- R139: Binary64 fused multiply-add. -/
  | ffmaF64 (d : BitVec 6) (a : BitVec 6) (b : BitVec 6)
  /-- R140: Binary32 equality compare into c. -/
  | feqF32 (c : BitVec 3) (a : BitVec 6) (b : BitVec 6)
  /-- R140: Binary32 less-than compare into c. -/
  | fltF32 (c : BitVec 3) (a : BitVec 6) (b : BitVec 6)
  /-- R140: Binary32 less-or-equal compare into c. -/
  | fleF32 (c : BitVec 3) (a : BitVec 6) (b : BitVec 6)
  /-- R140: Binary32 unordered compare into c. -/
  | funF32 (c : BitVec 3) (a : BitVec 6) (b : BitVec 6)
  /-- R140: Binary64 equality compare into c. -/
  | feqF64 (c : BitVec 3) (a : BitVec 6) (b : BitVec 6)
  /-- R140: Binary64 less-than compare into c. -/
  | fltF64 (c : BitVec 3) (a : BitVec 6) (b : BitVec 6)
  /-- R140: Binary64 less-or-equal compare into c. -/
  | fleF64 (c : BitVec 3) (a : BitVec 6) (b : BitVec 6)
  /-- R140: Binary64 unordered compare into c. -/
  | funF64 (c : BitVec 3) (a : BitVec 6) (b : BitVec 6)
  /-- R141: Converts s64 to f32. -/
  | fcvtF32S64 (d : BitVec 6) (a : BitVec 6)
  /-- R141: Converts s64 to f64. -/
  | fcvtF64S64 (d : BitVec 6) (a : BitVec 6)
  /-- R141: Converts f32 to s64, saturating; NaN gives 0. -/
  | fcvtS64F32 (d : BitVec 6) (a : BitVec 6)
  /-- R141: Converts f64 to s64, saturating; NaN gives 0. -/
  | fcvtS64F64 (d : BitVec 6) (a : BitVec 6)
  /-- R141: Widens f32 to f64 exactly. -/
  | fcvtF64F32 (d : BitVec 6) (a : BitVec 6)
  /-- R141: Narrows f64 to f32, rounded. -/
  | fcvtF32F64 (d : BitVec 6) (a : BitVec 6)
  /-- R141: Widens bf16 to f32 exactly. -/
  | fcvtF32Bf16 (d : BitVec 6) (a : BitVec 6)
  /-- R141: Narrows f32 to bf16, rounded. -/
  | fcvtBf16F32 (d : BitVec 6) (a : BitVec 6)
  /-- R145: Lane-wise f32 addition, RNE. -/
  | vaddF32 (d : BitVec 5) (a : BitVec 5) (b : BitVec 5) (p : BitVec 3)
  /-- R145: Lane-wise f32 subtraction. -/
  | vsubF32 (d : BitVec 5) (a : BitVec 5) (b : BitVec 5) (p : BitVec 3)
  /-- R145: Lane-wise f32 multiplication. -/
  | vmulF32 (d : BitVec 5) (a : BitVec 5) (b : BitVec 5) (p : BitVec 3)
  /-- R145: Lane-wise vd + va × vb, rounded once. -/
  | vfmaF32 (d : BitVec 5) (a : BitVec 5) (b : BitVec 5) (p : BitVec 3)
  /-- R145: Lane-wise f32 minimum. -/
  | vminF32 (d : BitVec 5) (a : BitVec 5) (b : BitVec 5) (p : BitVec 3)
  /-- R145: Lane-wise f32 maximum. -/
  | vmaxF32 (d : BitVec 5) (a : BitVec 5) (b : BitVec 5) (p : BitVec 3)
  /-- R145: Lane-wise vd - va × vb, rounded once. -/
  | vfmsF32 (d : BitVec 5) (a : BitVec 5) (b : BitVec 5) (p : BitVec 3)
  /-- R145: Clears the sign bit of each lane. -/
  | vabsF32 (d : BitVec 5) (a : BitVec 5) (p : BitVec 3)
  /-- R145: Element-wise bf16 addition on packed pairs. -/
  | vaddBf16 (d : BitVec 5) (a : BitVec 5) (b : BitVec 5) (p : BitVec 3)
  /-- R145: Element-wise bf16 subtraction. -/
  | vsubBf16 (d : BitVec 5) (a : BitVec 5) (b : BitVec 5) (p : BitVec 3)
  /-- R145: Element-wise bf16 multiplication. -/
  | vmulBf16 (d : BitVec 5) (a : BitVec 5) (b : BitVec 5) (p : BitVec 3)
  /-- R145: Element-wise bf16 fused multiply-add. -/
  | vfmaBf16 (d : BitVec 5) (a : BitVec 5) (b : BitVec 5) (p : BitVec 3)
  /-- R145: Element-wise bf16 minimum. -/
  | vminBf16 (d : BitVec 5) (a : BitVec 5) (b : BitVec 5) (p : BitVec 3)
  /-- R145: Element-wise bf16 maximum. -/
  | vmaxBf16 (d : BitVec 5) (a : BitVec 5) (b : BitVec 5) (p : BitVec 3)
  /-- R145: Element-wise bf16 fused multiply-subtract. -/
  | vfmsBf16 (d : BitVec 5) (a : BitVec 5) (b : BitVec 5) (p : BitVec 3)
  /-- R145: Clears the sign of each bf16 element. -/
  | vabsBf16 (d : BitVec 5) (a : BitVec 5) (p : BitVec 3)
  /-- R146: Lane-wise 32-bit wrapping addition. -/
  | vaddS32 (d : BitVec 5) (a : BitVec 5) (b : BitVec 5) (p : BitVec 3)
  /-- R146: Lane-wise 32-bit wrapping subtraction. -/
  | vsubS32 (d : BitVec 5) (a : BitVec 5) (b : BitVec 5) (p : BitVec 3)
  /-- R146: Lane-wise low half of the 32-bit product. -/
  | vmulS32 (d : BitVec 5) (a : BitVec 5) (b : BitVec 5) (p : BitVec 3)
  /-- R146: Lane-wise vd + va × vb, wrapping. -/
  | vmacS32 (d : BitVec 5) (a : BitVec 5) (b : BitVec 5) (p : BitVec 3)
  /-- R146: Lane-wise signed minimum. -/
  | vminsS32 (d : BitVec 5) (a : BitVec 5) (b : BitVec 5) (p : BitVec 3)
  /-- R146: Lane-wise signed maximum. -/
  | vmaxsS32 (d : BitVec 5) (a : BitVec 5) (b : BitVec 5) (p : BitVec 3)
  /-- R146: Lane-wise unsigned minimum. -/
  | vminzS32 (d : BitVec 5) (a : BitVec 5) (b : BitVec 5) (p : BitVec 3)
  /-- R146: Lane-wise unsigned maximum. -/
  | vmaxzS32 (d : BitVec 5) (a : BitVec 5) (b : BitVec 5) (p : BitVec 3)
  /-- R147: Lane-wise AND. -/
  | vand (d : BitVec 5) (a : BitVec 5) (b : BitVec 5) (p : BitVec 3)
  /-- R147: Lane-wise OR. -/
  | vor (d : BitVec 5) (a : BitVec 5) (b : BitVec 5) (p : BitVec 3)
  /-- R147: Lane-wise XOR. -/
  | vxor (d : BitVec 5) (a : BitVec 5) (b : BitVec 5) (p : BitVec 3)
  /-- R147: Lane-wise va AND NOT vb. -/
  | vandn (d : BitVec 5) (a : BitVec 5) (b : BitVec 5) (p : BitVec 3)
  /-- R147: Lane-wise left shift by vb[4:0]. -/
  | vshl (d : BitVec 5) (a : BitVec 5) (b : BitVec 5) (p : BitVec 3)
  /-- R147: Lane-wise logical right shift. -/
  | vshr (d : BitVec 5) (a : BitVec 5) (b : BitVec 5) (p : BitVec 3)
  /-- R147: Lane-wise arithmetic right shift. -/
  | vsar (d : BitVec 5) (a : BitVec 5) (b : BitVec 5) (p : BitVec 3)
  /-- R147: Selects va or vb per lane by predicate and writes all 64 lanes. -/
  | vsel (d : BitVec 5) (a : BitVec 5) (b : BitVec 5) (p : BitVec 3)
  /-- R148: Correctly rounded reciprocal per lane. -/
  | vrcp (d : BitVec 5) (a : BitVec 5) (p : BitVec 3)
  /-- R148: Correctly rounded reciprocal square root. -/
  | vrsq (d : BitVec 5) (a : BitVec 5) (p : BitVec 3)
  /-- R148: Correctly rounded square root. -/
  | vsqrt (d : BitVec 5) (a : BitVec 5) (p : BitVec 3)
  /-- R148: Correctly rounded 2^x. -/
  | vex2 (d : BitVec 5) (a : BitVec 5) (p : BitVec 3)
  /-- R148: Correctly rounded log2 x. -/
  | vlg2 (d : BitVec 5) (a : BitVec 5) (p : BitVec 3)
  /-- R148: Correctly rounded va / vb. -/
  | vdiv (d : BitVec 5) (a : BitVec 5) (b : BitVec 5) (p : BitVec 3)
  /-- R47: Rounds each lane toward minus infinity. -/
  | vfloor (d : BitVec 5) (a : BitVec 5) (p : BitVec 3)
  /-- R47: Rounds each lane to nearest, ties to even. -/
  | vround (d : BitVec 5) (a : BitVec 5) (p : BitVec 3)
  /-- R149: Predicate := va == vb (f32). -/
  | vceqF32 (d : BitVec 3) (a : BitVec 5) (b : BitVec 5) (p : BitVec 3)
  /-- R149: Predicate := va < vb (f32). -/
  | vcltF32 (d : BitVec 3) (a : BitVec 5) (b : BitVec 5) (p : BitVec 3)
  /-- R149: Predicate := va <= vb (f32). -/
  | vcleF32 (d : BitVec 3) (a : BitVec 5) (b : BitVec 5) (p : BitVec 3)
  /-- R149: Predicate := unordered (f32). -/
  | vcunF32 (d : BitVec 3) (a : BitVec 5) (b : BitVec 5) (p : BitVec 3)
  /-- R149: Predicate := va == vb (s32). -/
  | vceqS32 (d : BitVec 3) (a : BitVec 5) (b : BitVec 5) (p : BitVec 3)
  /-- R149: Predicate := signed va < vb. -/
  | vcltS32 (d : BitVec 3) (a : BitVec 5) (b : BitVec 5) (p : BitVec 3)
  /-- R149: Predicate := signed va <= vb. -/
  | vcleS32 (d : BitVec 3) (a : BitVec 5) (b : BitVec 5) (p : BitVec 3)
  /-- R149: Predicate := unsigned va < vb. -/
  | vcltzS32 (d : BitVec 3) (a : BitVec 5) (b : BitVec 5) (p : BitVec 3)
  /-- R150: Predicate AND. -/
  | pand (d : BitVec 3) (a : BitVec 3) (b : BitVec 3)
  /-- R150: Predicate OR. -/
  | por (d : BitVec 3) (a : BitVec 3) (b : BitVec 3)
  /-- R150: Predicate XOR. -/
  | pxor (d : BitVec 3) (a : BitVec 3) (b : BitVec 3)
  /-- R150: Predicate AND NOT. -/
  | pandn (d : BitVec 3) (a : BitVec 3) (b : BitVec 3)
  /-- R150: Predicate NOT. -/
  | pnot (d : BitVec 3) (a : BitVec 3)
  /-- R150: c := any bit of pa set within the mask. -/
  | pany (d : BitVec 3) (a : BitVec 3) (p : BitVec 3)
  /-- R150: c := every masked bit of pa set. -/
  | pall (d : BitVec 3) (a : BitVec 3) (p : BitVec 3)
  /-- R150: Scalar := count of pa bits within the mask. -/
  | pcnt (d : BitVec 5) (a : BitVec 3) (p : BitVec 3)
  /-- R151: Fixed-tree f32 sum of the active lanes, written to the active lanes. -/
  | vrsumF32 (d : BitVec 5) (a : BitVec 5) (p : BitVec 3)
  /-- R151: Maximum of the active lanes. -/
  | vrmaxF32 (d : BitVec 5) (a : BitVec 5) (p : BitVec 3)
  /-- R151: Minimum of the active lanes. -/
  | vrminF32 (d : BitVec 5) (a : BitVec 5) (p : BitVec 3)
  /-- R151: Wrapping s32 sum of the active lanes. -/
  | vrsumS32 (d : BitVec 5) (a : BitVec 5) (p : BitVec 3)
  /-- R152: Sequential f32 prefix sum. -/
  | vscanF32 (d : BitVec 5) (a : BitVec 5) (p : BitVec 3)
  /-- R152: Sequential s32 prefix sum. -/
  | vscanS32 (d : BitVec 5) (a : BitVec 5) (p : BitVec 3)
  /-- R153: Writes the top k candidate values and their lane indices. -/
  | vtopk (d : BitVec 5) (a : BitVec 5) (k : BitVec 5) (p : BitVec 3)
  /-- R154: Writes the maximum and its lowest lane index. -/
  | vargmax (d : BitVec 5) (a : BitVec 5) (p : BitVec 3)
  /-- R155: Broadcasts va[vb[0]] to the active lanes. -/
  | vbcast (d : BitVec 5) (a : BitVec 5) (b : BitVec 5) (p : BitVec 3)
  /-- R155: Lane i := va[vb[i]]. -/
  | vperm (d : BitVec 5) (a : BitVec 5) (b : BitVec 5) (p : BitVec 3)
  /-- R155: Rotates lanes by vb[0]. -/
  | vrot (d : BitVec 5) (a : BitVec 5) (b : BitVec 5) (p : BitVec 3)
  /-- R155: Slides lanes down by one, filling lane 63 from vb[0]. -/
  | vslide (d : BitVec 5) (a : BitVec 5) (b : BitVec 5) (p : BitVec 3)
  /-- R155: Interleaves va and vb. -/
  | vzip (d : BitVec 5) (a : BitVec 5) (b : BitVec 5) (p : BitVec 3)
  /-- R155: De-interleaves the even lanes of va and vb. -/
  | vunzip (d : BitVec 5) (a : BitVec 5) (b : BitVec 5) (p : BitVec 3)
  /-- R155: Packs the selected lanes of va to the bottom of vd. -/
  | vcompress (d : BitVec 5) (a : BitVec 5) (p : BitVec 3)
  /-- R155: Spreads the low lanes of va into the selected lanes. -/
  | vexpand (d : BitVec 5) (a : BitVec 5) (p : BitVec 3)
  /-- R156: Converts s32 lanes to f32. -/
  | vcvtF32S32 (d : BitVec 5) (a : BitVec 5) (p : BitVec 3)
  /-- R156: Converts f32 lanes to saturated s32. -/
  | vcvtS32F32 (d : BitVec 5) (a : BitVec 5) (p : BitVec 3)
  /-- R156: Packs bf16 of va and vb into each lane. -/
  | vcvtBf16F32 (d : BitVec 5) (a : BitVec 5) (b : BitVec 5) (p : BitVec 3)
  /-- R156: Widens the low bf16 half of each lane. -/
  | vcvtF32Bf16l (d : BitVec 5) (a : BitVec 5) (p : BitVec 3)
  /-- R156: Widens the high bf16 half of each lane. -/
  | vcvtF32Bf16h (d : BitVec 5) (a : BitVec 5) (p : BitVec 3)
  /-- R156: Packs f16 of va and vb into each lane. -/
  | vcvtF16F32 (d : BitVec 5) (a : BitVec 5) (b : BitVec 5) (p : BitVec 3)
  /-- R156: Widens the low f16 half of each lane. -/
  | vcvtF32F16l (d : BitVec 5) (a : BitVec 5) (p : BitVec 3)
  /-- R156: Widens the high f16 half of each lane. -/
  | vcvtF32F16h (d : BitVec 5) (a : BitVec 5) (p : BitVec 3)
  /-- R157: Packs two 32-lane blocks into KB-n layout. -/
  | vkbpack (d : BitVec 5) (a : BitVec 5) (n : BitVec 5)
  /-- R158: Unpacks two KB-n blocks to f32. -/
  | vkbunpack (d : BitVec 5) (a : BitVec 5) (n : BitVec 5)
  /-- R158: Writes the scale that vkbpack would choose for each block. -/
  | vkbscale (d : BitVec 5) (a : BitVec 5) (n : BitVec 5)
  /-- R159: Copies the active lanes. -/
  | vmov (d : BitVec 5) (a : BitVec 5) (p : BitVec 3)
  /-- R159: Fills the active lanes from a scalar. -/
  | vfill (d : BitVec 5) (a : BitVec 5) (p : BitVec 3)
  /-- R159: Inserts a scalar into lane sb[5:0]. -/
  | vins (d : BitVec 5) (a : BitVec 5) (b : BitVec 5) (p : BitVec 3)
  /-- R159: Extracts one lane into a scalar. -/
  | vext (d : BitVec 5) (a : BitVec 5) (b : BitVec 5)
  /-- R159: Peeks the head of a vector queue without popping. -/
  | vqpk (d : BitVec 5) (q : BitVec 2) (p : BitVec 3)
  /-- R159: Counts the entries present in a vector queue. -/
  | vqcnt (d : BitVec 5) (q : BitVec 2)
  /-- R159: Discards the entries of an unbound vector queue. -/
  | vqclr (q : BitVec 2)
  /-- R159: Writes each lane's index. -/
  | vlaneid (d : BitVec 5) (p : BitVec 3)
  /-- R160: Vector local-store load in contiguous, strided, broadcast or ring-row mode. -/
  | vld (v : BitVec 5) (r : BitVec 4) (u : BitVec 1) (p : BitVec 3) (m : BitVec 2) (o : BitVec 6)
  /-- R160: Vector local-store store in one of four modes. -/
  | vst (v : BitVec 5) (r : BitVec 4) (u : BitVec 1) (p : BitVec 3) (m : BitVec 2) (o : BitVec 6)
  /-- R165: 32-bit gather from the local store. -/
  | vgth32 (d : BitVec 5) (a : BitVec 4) (b : BitVec 5) (p : BitVec 3)
  /-- R165: 32-bit scatter to the local store. -/
  | vsct32 (d : BitVec 5) (a : BitVec 4) (b : BitVec 5) (p : BitVec 3)
  /-- R165: 16-bit gather. -/
  | vgth16 (d : BitVec 5) (a : BitVec 4) (b : BitVec 5) (p : BitVec 3)
  /-- R165: 16-bit scatter. -/
  | vsct16 (d : BitVec 5) (a : BitVec 4) (b : BitVec 5) (p : BitVec 3)
  /-- R166: Atomic f32 add-scatter, applied in lane order. -/
  | vsctaddF32 (d : BitVec 5) (a : BitVec 4) (b : BitVec 5) (p : BitVec 3)
  /-- R167: Atomic s32 add-scatter. -/
  | vsctaddS32 (d : BitVec 5) (a : BitVec 4) (b : BitVec 5) (p : BitVec 3)
  /-- R168: Peeks the head of a scalar queue. -/
  | qpk (d : BitVec 6) (q : BitVec 4)
  /-- R168: Counts the entries present in a scalar queue. -/
  | qcnt (d : BitVec 6) (q : BitVec 4)
  /-- R168: Discards the entries of an unbound scalar queue. -/
  | qclr (q : BitVec 4)
  /-- R169: Binds a scalar queue to a sorting-office delivery stream. -/
  | qbind (d : BitVec 6) (q : BitVec 4) (b : BitVec 6)
  /-- R169: Ends the binding of a scalar queue. -/
  | qunbind (d : BitVec 6) (q : BitVec 4)
  /-- R183: Sets the engine format pair, landing at t + 1. -/
  | mfmt (e : BitVec 1) (y : BitVec 6)
  /-- R185: Copies an accumulator into a drain buffer bound to a vector queue. -/
  | mdrain (t : BitVec 3) (q : BitVec 2) (k : BitVec 3)
  /-- R185: Zeroes an accumulator in queue order. -/
  | mzero (t : BitVec 3) (k : BitVec 3)
  /-- R183: Returns the engine state. -/
  | mstat (x : BitVec 6) (e : BitVec 1)
  /-- R184: Queues a KB-n matrix multiply-accumulate in accumulate, overwrite or edge mode. -/
  | mma (t : BitVec 3) (k : BitVec 3) (a : BitVec 4) (b : BitVec 4) (m : BitVec 3)
  /-- R186: Reads one accumulator row into a vector. -/
  | mrdv (k : BitVec 3) (d : BitVec 5) (y : BitVec 6)
  /-- R186: Reads one accumulator row and zeroes it. -/
  | mrdq (k : BitVec 3) (d : BitVec 5) (y : BitVec 6)
  /-- R187: Stores an accumulator as f32 through a tile word. -/
  | mstF32 (t : BitVec 3) (k : BitVec 3) (y : BitVec 6)
  /-- R187: Stores an accumulator rounded to bf16. -/
  | mstBf16 (t : BitVec 3) (k : BitVec 3) (y : BitVec 6)
  /-- R187: Stores an accumulator packed to KB-n. -/
  | mstKb (t : BitVec 3) (k : BitVec 3) (y : BitVec 6)
  /-- R186: Writes a vector into an accumulator row. -/
  | mwrv (k : BitVec 3) (a : BitVec 5) (y : BitVec 6)
  /-- R179: Claims a range of slots, accumulators or engine configurations, all or nothing. -/
  | oclaim (x : BitVec 6) (y : BitVec 6)
  /-- R179: Releases a range of claimed resources. -/
  | orelease (x : BitVec 6) (y : BitVec 6)
  /-- R181: Fills an operand slot from a tensor record. -/
  | oload (t : BitVec 3) (x : BitVec 6) (y : BitVec 6)
  /-- R182: Fills an operand slot from ring rows. -/
  | ofill (t : BitVec 3) (x : BitVec 6) (y : BitVec 6)
  /-- R180: Returns the state of an operand slot. -/
  | ostat (x : BitVec 6) (y : BitVec 6)
  /-- R191: Activates an IN, OUT or RECV ring over a record. -/
  | wrset (t : BitVec 3) (x : BitVec 4) (y : BitVec 6)
  /-- R194: Retires the oldest rows of a ring and fetches replacements. -/
  | wradv (t : BitVec 3) (x : BitVec 6) (y : BitVec 6)
  /-- R199: Returns ring state. -/
  | wrstat (x : BitVec 6) (y : BitVec 6)
  /-- R198: Finishes started work and deactivates a ring. -/
  | wrfree (t : BitVec 3) (x : BitVec 6)
  /-- R197: Binds, or with UNBIND unbinds, a vector queue to a ring's row chunks. -/
  | wrbind (q : BitVec 2) (y : BitVec 6)
  /-- R196: Writes the oldest OUT-ring rows to the record. -/
  | wrout (t : BitVec 3) (x : BitVec 6) (y : BitVec 6)
  /-- R198: Refetches held IN rows, or waits for earlier wrouts. -/
  | wrflush (t : BitVec 3) (x : BitVec 6)
  /-- R201: Collectively creates a window over a byte-range record. -/
  | wnew (t : BitVec 3) (x : BitVec 6) (y : BitVec 6)
  /-- R207: Collectively frees a window. -/
  | wfree (t : BitVec 3) (x : BitVec 6)
  /-- R203: Collective fence: opens, closes, or closes and reopens the window interval. -/
  | wfence (t : BitVec 3) (x : BitVec 6) (y : BitVec 6)
  /-- R204: Exposes the window to a group and sends post notices. -/
  | wpost (t : BitVec 3) (x : BitVec 6) (y : BitVec 6)
  /-- R204: Opens an access epoch to a target group. -/
  | wstart (t : BitVec 3) (x : BitVec 6) (y : BitVec 6)
  /-- R204: Ends the access epoch once its accesses are visible. -/
  | wcompl (t : BitVec 3) (x : BitVec 6)
  /-- R204: Ends an exposure once every group member has completed. -/
  | wwait (t : BitVec 3) (x : BitVec 6)
  /-- R205: Requests a shared or exclusive lock at a target. -/
  | wlock (t : BitVec 3) (x : BitVec 6) (y : BitVec 6)
  /-- R205: Releases a lock once the accesses under it are visible. -/
  | wunlock (t : BitVec 3) (x : BitVec 6) (y : BitVec 6)
  /-- R207: Waits for the context's accesses to the window to become visible. -/
  | wflush (t : BitVec 3) (x : BitVec 6) (y : BitVec 6)
  /-- R207: Returns the member's franking entry state. -/
  | wquery (x : BitVec 6) (y : BitVec 6)
  /-- R209: Remote read into the local buffer. -/
  | get (t : BitVec 3) (x : BitVec 6) (y : BitVec 4)
  /-- R209: Remote write from the local buffer, optionally ORDERED. -/
  | put (t : BitVec 3) (x : BitVec 6) (y : BitVec 4)
  /-- R209: Remote write to a run of ranks. -/
  | putm (t : BitVec 3) (x : BitVec 6) (y : BitVec 4)
  /-- R209: Remote f32 accumulate. -/
  | accAddf (t : BitVec 3) (x : BitVec 6) (y : BitVec 4)
  /-- R209: Remote s32 accumulate. -/
  | accAdds (t : BitVec 3) (x : BitVec 6) (y : BitVec 4)
  /-- R209: Remote saturating fx64 accumulate. -/
  | accFx (t : BitVec 3) (x : BitVec 6) (y : BitVec 4)
  /-- R209: Remote f32 maximum. -/
  | accMaxf (t : BitVec 3) (x : BitVec 6) (y : BitVec 4)
  /-- R209: Remote f32 minimum. -/
  | accMinf (t : BitVec 3) (x : BitVec 6) (y : BitVec 4)
  /-- R209: Remote fetch-and-op returning the old values. -/
  | getacc (t : BitVec 3) (x : BitVec 6) (y : BitVec 4)
  /-- R209: Remote 8-byte compare-and-swap. -/
  | rcas (t : BitVec 3) (x : BitVec 6) (y : BitVec 4)
  /-- R213: Remote read that may be served from read-only replicas. -/
  | getro (t : BitVec 3) (x : BitVec 6) (y : BitVec 4)
  /-- R219: Collective token dispatch that places rows in expert regions deterministically. -/
  | dispatch (t : BitVec 3) (x : BitVec 6)
  /-- R221: Collective gated gather of expert outputs. -/
  | combine (t : BitVec 3) (x : BitVec 6)
  /-- R222: All-reduce, reduce-scatter, all-gather, broadcast or barrier. -/
  | coll (t : BitVec 3) (x : BitVec 6)
  /-- R223: Returns the state of the oldest outstanding communicator command. -/
  | cstat (x : BitVec 6) (y : BitVec 6)
  /-- R224: Cancels the uncompleted commands of a communicator at every member. -/
  | ccancel (t : BitVec 3) (x : BitVec 6)
  /-- R227: Atomic 64-bit add, returning the old value. -/
  | aadd (d : BitVec 6) (a : BitVec 6) (b : BitVec 6)
  /-- R227: Atomic AND. -/
  | aand (d : BitVec 6) (a : BitVec 6) (b : BitVec 6)
  /-- R227: Atomic OR. -/
  | aor (d : BitVec 6) (a : BitVec 6) (b : BitVec 6)
  /-- R227: Atomic exchange. -/
  | axchg (d : BitVec 6) (a : BitVec 6) (b : BitVec 6)
  /-- R227: Atomic signed maximum. -/
  | amaxs (d : BitVec 6) (a : BitVec 6) (b : BitVec 6)
  /-- R227: Atomic signed minimum. -/
  | amins (d : BitVec 6) (a : BitVec 6) (b : BitVec 6)
  /-- R227: Atomic 4-byte f32 add, RNE. -/
  | aaddf (d : BitVec 6) (a : BitVec 6) (b : BitVec 6)
  /-- R227: Atomic saturating fx64 add. -/
  | afx (d : BitVec 6) (a : BitVec 6) (b : BitVec 6)
  /-- R229: Atomic compare-and-swap with D as comparand. -/
  | acas (d : BitVec 6) (a : BitVec 6) (b : BitVec 6)
  /-- R230: Atomic increment of a 32-bit histogram bin. -/
  | ahist (d : BitVec 6) (a : BitVec 6) (b : BitVec 6)
  /-- R232: Records the context's arrival at a barrier phase. -/
  | barv (d : BitVec 6) (a : BitVec 6) (b : BitVec 6)
  /-- R232: Waits until a barrier phase is complete or BROKEN. -/
  | barw (d : BitVec 6) (a : BitVec 6) (b : BitVec 6)
  /-- R232: Resets a barrier object with a new expected count. -/
  | barset (d : BitVec 6) (a : BitVec 6) (b : BitVec 6)
  /-- R232: Returns the barrier state word. -/
  | barq (d : BitVec 6) (a : BitVec 6)
  /-- R234: Waits for the timeline's DONE to reach n. -/
  | tlwait (d : BitVec 6) (t : BitVec 3) (b : BitVec 6)
  /-- R235: Reads the timeline's DONE. -/
  | tlrd (d : BitVec 6) (t : BitVec 3)
  /-- R234: Waits for the timeline's VIS to reach n. -/
  | tlwaitr (d : BitVec 6) (t : BitVec 3) (b : BitVec 6)
  /-- R235: Reads the timeline's ISSUE. -/
  | tlrdi (d : BitVec 6) (t : BitVec 3)
  /-- R235: Reads ISSUE - DONE. -/
  | tlrdc (d : BitVec 6) (t : BitVec 3)
  /-- R235: Reads the timeline's VIS. -/
  | tlrdv (d : BitVec 6) (t : BitVec 3)
  /-- R236: Reads and clears the timeline error record, returning the timeline to NORMAL. -/
  | tlerr (d : BitVec 4) (t : BitVec 3)
  /-- R237: Declares the context's bandwidth phase. -/
  | bwph (a : BitVec 6)
  /-- R237: Waits until every bank set governed by EFF is ready. -/
  | wakew
  /-- R238: Starts invalidation of the translations of a range, including remote tokens. -/
  | tlbinv (a : BitVec 6) (b : BitVec 6)
  /-- R238: Waits for earlier tlbinvs and all their acknowledgements. -/
  | tlbsync
  /-- R238: Starts invalidation of cached tensor records. -/
  | rtcinv (a : BitVec 6) (b : BitVec 6)
  /-- R238: Waits for earlier rtcinvs to complete. -/
  | rtcsync
  /-- R239: Runs a loop-record chain from address A. -/
  | trun (a : BitVec 6)
  /-- R239: Overrides the successor of the running record. -/
  | tchain (a : BitVec 6)
  /-- R239: Stores the running record's condition word. -/
  | tcond (a : BitVec 6)
  /-- R241: Waiting pop from a device work queue. -/
  | qpop (d : BitVec 6) (a : BitVec 6) (c : BitVec 3)
  /-- R241: Non-waiting pop from a device work queue. -/
  | qtry (d : BitVec 6) (a : BitVec 6) (c : BitVec 3)
  /-- R241: Appends an entry, or the CLOSE marker, to a work queue. -/
  | qpush (d : BitVec 6) (a : BitVec 6) (b : BitVec 6)
  /-- R242: Removes the matching entry nearest the head. -/
  | qcancel (d : BitVec 6) (a : BitVec 6) (b : BitVec 6)
  /-- R243: Unfreezes a work queue or heap. -/
  | qthaw (d : BitVec 6) (a : BitVec 6)
  /-- R246: Sets a task's gain and queues it. -/
  | hpush (d : BitVec 6) (a : BitVec 6) (b : BitVec 6)
  /-- R247: Takes the highest-gain or oldest task, or TERM; waits unless NB. -/
  | hpop (d : BitVec 6) (a : BitVec 6) (c : BitVec 3)
  /-- R246: Adds a delta to a task's gain, or to p while RUNNING. -/
  | hadj (d : BitVec 6) (a : BitVec 6) (b : BitVec 6)
  /-- R246: Raises a task's gain to at least a value. -/
  | hmax (d : BitVec 6) (a : BitVec 6) (b : BitVec 6)
  /-- R248: Adds to the heap's fixed-point residual. -/
  | hres (d : BitVec 6) (a : BitVec 6) (b : BitVec 6)
  /-- R246: Ends a RUNNING task, setting its gain to p. -/
  | hdone (d : BitVec 6) (a : BitVec 6) (b : BitVec 6)
  /-- R248: Reads a task's state and gain. -/
  | hread (d : BitVec 6) (a : BitVec 6) (b : BitVec 6)
  /-- R249: Reads a system register. -/
  | csrr (d : BitVec 6) (n : BitVec 12)
  /-- R249: Writes a system register that has no behaviour of its own. -/
  | csrw (d : BitVec 6) (n : BitVec 12)
  /-- R105: Restores PRIV and resumes at TRAPPC, replaying the shadow buffer. -/
  | eret
  /-- R359: Verifies a signed segment, opens its constants, loads its bounds and enters it. -/
  | segenter (a : BitVec 6)
  /-- R361: Mode 0: encrypts a range of code blocks in place and writes their tags. -/
  | segsealSeal (a : BitVec 6) (b : BitVec 6)
  /-- R361: Mode 1: opens blocks, applies PARAM patches from SEALPAR, and reseals them. -/
  | segsealPatch (a : BitVec 6) (b : BitVec 6)
  /-- R352: Writes the slot's state block. -/
  | kslotQuery (d : BitVec 6) (a : BitVec 6) (b : BitVec 6)
  /-- R349: Unwraps keys under the session KWK and moves an EMPTY slot to LOADED. -/
  | kslotInstall (d : BitVec 6) (a : BitVec 6) (b : BitVec 6)
  /-- R352: Erases the slot's keys and moves it to ZEROISED. -/
  | kslotZeroise (d : BitVec 6) (a : BitVec 6) (b : BitVec 6)
  /-- R349: Installs a new data key pair and starts a rotation. -/
  | kslotRotate (d : BitVec 6) (a : BitVec 6) (b : BitVec 6)
  /-- R351: Tags frames, locks clusters and seals post boxes to the slot; computes the binding digest. -/
  | kslotBind (d : BitVec 6) (a : BitVec 6) (b : BitVec 6)
  /-- R364: Checks and copies a scrub list, then starts the scrub engine. -/
  | scrub (d : BitVec 6) (a : BitVec 6)
  /-- R251: Writes a page-table entry at the home and updates the bank map. -/
  | pgmap (t : BitVec 3) (a : BitVec 6) (b : BitVec 6)
  /-- R71: Prefix that widens the immediate of the following slot. -/
  | ext (h : BitVec 21)
  /-- R360: Fetch reads, decrypts and tag-checks a 256-byte code block; AUTH on failure. -/
  | blockOpen (ctx : Nat)
  /-- R89: A fixed-latency result lands at context cycle t + L and sets its flags. -/
  | fixedLatencyLanding (ctx : Nat)
  /-- R91: An interlocked result arrives and lands, ending stalls on it. -/
  | interlockedResultArrival (ctx : Nat) (id : Nat)
  /-- R93: A late fixed-latency result arrives, ending the context's COMPENSATE state. -/
  | compensatedResultArrival (ctx : Nat)
  /-- R103: An uncorrectable error found after a load has issued is taken as a deferred MEMERR. -/
  | loadMemoryError (ctx : Nat)
  /-- R14: An engine pushes an entry into a bound queue register once there is room. -/
  | boundQueueDelivery (ctx : Nat) (q : Nat)
  /-- R117: After exit, the context finishes its engine operations, frees its rings and releases its state. -/
  | contextExitCompletion (ctx : Nat)
  /-- R170: An engine takes the head command of its queue and executes it. -/
  | engineCommandStart (cl : Nat) (e : Nat)
  /-- R96: The engine accepts the next rpt repetition with stepped operands. -/
  | mmaRepetitionAccept (cl : Nat) (e : Nat)
  /-- R57: An MMA writes its 64 × 64 result to the accumulator and sets flags. -/
  | mmaCompletion (cl : Nat) (e : Nat)
  /-- R181: An oload finishes writing its slot and metadata. -/
  | oloadCompletion (cl : Nat) (k : Nat)
  /-- R182: An ofill finishes reading its landed ring rows into the slot. -/
  | ofillCompletion (cl : Nat) (k : Nat)
  /-- R187: An accumulator store finishes writing memory. -/
  | mstCompletion (cl : Nat) (e : Nat)
  /-- R185: A drain buffer pushes its next row into the bound vector queue. -/
  | drainRowDelivery (cl : Nat) (e : Nat)
  /-- R251: pgmap finishes waking and zero-filling, writes the entry and invalidates translations. -/
  | pgmapCompletion (cl : Nat)
  /-- R193: An IN ring's fetched row lands in the local store. -/
  | ringRowLanding (ctx : Nat) (r : Nat)
  /-- R195: A multicast row lands at a RECV ring and consumes a credit. -/
  | ringMulticastRow (m : Nat)
  /-- R195: A RECV ring registers with its active source ring. -/
  | recvRegistration (ctx : Nat) (r : Nat)
  /-- R194: Row credits returned by a RECV ring's wradv reach the source. -/
  | ringCreditReturn (m : Nat)
  /-- R197: A landed ring row chunk is delivered to the bound vector queue. -/
  | ringBoundRowDelivery (ctx : Nat) (r : Nat)
  /-- R196: An OUT ring's row writes are accepted at the slice controller. -/
  | ringRowWriteAccept (ctx : Nat) (r : Nat)
  /-- R323: A packet moves over one link into a higher hop class once buffer room is available. -/
  | fabricPacketHop (m : Nat)
  /-- R326: A partial mailbag leaves after MBCTL.WAIT cycles. -/
  | mailbagWaitExpiry (site : Nat) (dst : Nat)
  /-- R326: The target switch die opens a mailbag and hands out its packets in order. -/
  | mailbagArrival (site : Nat) (dst : Nat)
  /-- R329: A REQ packet at a cluster port is tested for origin, franking and token, then applied. -/
  | remoteRequestArrival (m : Nat)
  /-- R327: A held ORDERED packet is applied once every earlier packet has resolved. -/
  | orderedPacketRelease (m : Nat)
  /-- R210: A data return, acceptance, application or rejection advances DONE or VIS, or errors the timeline. -/
  | remoteResponseArrival (m : Nat)
  /-- R330: The target port checks the range, walks its tables and allocates a token. -/
  | translationRequest (m : Nat)
  /-- R330: The source installs the token and sends its waiting packets. -/
  | translationReply (m : Nat)
  /-- R332: A holder drops cache entries and replicas for a token and acknowledges. -/
  | tokenInvalidation (m : Nat)
  /-- R332: An acknowledgement arrives; when all arrive and writes are applied, the token is FREE. -/
  | tokenInvalidationAck (m : Nat)
  /-- R201: A member's wnew or wfree notice; the last one creates or frees the window. -/
  | windowCollectiveNotice (m : Nat)
  /-- R203: A member's close notice arrives; when all have arrived, the entry closes, then reopens. -/
  | fenceCloseNotice (m : Nat)
  /-- R204: A target's post notice reaches an origin's started epoch. -/
  | postNotice (m : Nat)
  /-- R204: An origin's complete notice reaches the target's exposure. -/
  | completeNotice (m : Nat)
  /-- R205: A lock request joins the target's queue and is granted when compatible. -/
  | lockRequest (m : Nat)
  /-- R205: An unlock releases a lock and grants the waiting requests. -/
  | lockRelease (m : Nat)
  /-- R334: A member's office announces its channel head; matched heads start running. -/
  | headAnnouncement (m : Nat)
  /-- R336: The office moves one 64 KiB chunk of a running head, round-robin over channels. -/
  | collectiveChunk (site : Nat) (ch : Nat)
  /-- R335: Prefix counts arrive, PLACE and CNT are written, and rows are sent as puts. -/
  | dispatchCountExchange (m : Nat)
  /-- R220: A dispatch delivery stream delivers an entry once all rows are applied. -/
  | deliveryStreamEntry (ctx : Nat) (sid : Nat)
  /-- R224: A ccancel reaches a member's office, raising its cancel count and ending older commands. -/
  | cancelArrival (m : Nat)
  /-- R324: A failed substrate lane is spared, or the link narrows. -/
  | laneFailure (site : Nat) (k : Nat)
  /-- R339: A tag group is checked and its packets released by mode. -/
  | iczerGroupArrival (port : Nat) (good : Bool)
  /-- R338: A group lacking data after 16 cycles is completed with idle flits. -/
  | iczerIdleFill (port : Nat)
  /-- R341: The counter reaching ICZLIM, or a retrain, starts ECDH key agreement and a key switch. -/
  | iczerRekey (port : Nat)
  /-- R341: A counter about to reach 2^48 stops the link and takes it down. -/
  | iczerCounterExhausted (port : Nat)
  /-- R340: The management cores retrain a failed Iczer link. -/
  | iczerLinkRetrain (port : Nat)
  /-- R344: A part's reservation report arrives; when all arrive, rank tables are exchanged and contexts start. -/
  | joinReport (team : Nat) (part : Nat)
  /-- R344: A part that has not heard from all parts within TMO releases its clusters with REFUSED. -/
  | joinTimeout (team : Nat)
  /-- R268: A missing line is filled from the home, evicting a line with write-back. -/
  | l1MissFill (cl : Nat) (line : Nat)
  /-- R287: A walker reads the table levels at the home and installs or faults. -/
  | pageTableWalk (cl : Nat) (va : Nat) (eng : Bool)
  /-- R270: A pigeonhole bank serves one access or ALU operation in arrival order. -/
  | pigeonholeBankAccess (site : Nat) (bank : Nat)
  /-- R276: The queue reaching HI drains oldest first down to LO. -/
  | writeQueueWatermarkDrain (cl : Nat) (ch : Nat)
  /-- R276: An entry that has waited 4,096 cycles drains. -/
  | writeQueueAgeDrain (cl : Nat) (ch : Nat)
  /-- R279: A row counter at threshold refreshes the neighbouring rows and resets. -/
  | rowActivationRefresh (cl : Nat) (row : Nat)
  /-- R283: The patrol reads and corrects an allocated granule in each 2^40-cycle sweep. -/
  | patrolRead (cl : Nat) (g : Nat)
  /-- R273: Correctable events over SLRET.CETHR, or a confirmed error, start retirement to a spare or a reduction. -/
  | channelRetirementStart (cl : Nat) (ch : Nat)
  /-- R274: Locks, drains, re-encrypts and moves one granule, advancing MBND. -/
  | granuleMove (cl : Nat)
  /-- R273: The move ends, the old channel is retired and SLCHAN updates. -/
  | retirementComplete (cl : Nat)
  /-- R281: An idle bank set enters NAP after NAPIDLE cycles. -/
  | bankSetNap (cl : Nat) (bs : Nat)
  /-- R281: An idle set with HEAT at or above EFF enters RETAIN after RETIDLE cycles. -/
  | bankSetRetain (cl : Nat) (bs : Nat)
  /-- R281: An idle unallocated set enters DEEP, losing its data. -/
  | bankSetDeep (cl : Nat) (bs : Nat)
  /-- R281: An access or an EFF rise wakes a set, zero-filling it if it was DEEP. -/
  | bankSetWake (cl : Nat) (bs : Nat)
  /-- R267: A RETAIN or OFF local-store bank wakes, with OFF banks zero-filled. -/
  | lsBankWake (cl : Nat) (bank : Nat)
  /-- R357: The rotation engine re-encrypts one granule of the slot and advances KBND. -/
  | keyRotationGranule (cl : Nat)
  /-- R357: All slices finish, the old key is erased and the slot returns to BOUND. -/
  | keyRotationComplete (site : Nat)
  /-- R364: The scrub engine zeroes one bank or frame, frees its tag and records progress. -/
  | scrubUnit (site : Nat)
  /-- R364: The count check makes the slot EMPTY and unlocks its resources, or reports INCOMPLETE. -/
  | scrubComplete (site : Nat)
  /-- R293: The write completing word 0x78 enqueues the letter, or drops it when the post box is full. -/
  | letterEnqueue (port : Nat) (pb : Nat) (v : W64) (ide : Bool)
  /-- R296: The dispatcher admits one team instance by class and weighted round-robin. -/
  | schedulingDecision
  /-- R297: A letter passed over for 4,096 decisions moves up a class or becomes reserving. -/
  | letterAging (pb : Nat)
  /-- R298: Writes CWVAL once the earlier launches have completed. -/
  | completionWriteLetter (pb : Nat)
  /-- R298: Reads the completion word at least every 1,024 cycles until it reaches CWVAL. -/
  | completionWaitPoll (pb : Nat)
  /-- R302: Once every gang manager has finished, all contexts start under R9. -/
  | gangStart (team : Nat)
  /-- R265: All contexts exited, operations visible, L1s cleaned: the instance completes and releases its clusters. -/
  | instanceCompletion (team : Nat)
  /-- R107: A context stops at its next pre-emption point. -/
  | contextPreemptionStop (ctx : Nat)
  /-- R109: After engine operations complete, writes dirty registers and the always parts to the checkpoint area. -/
  | contextSave (team : Nat)
  /-- R305: A pre-empted team resumes when all its clusters are free. -/
  | teamResumption (team : Nat)
  /-- R314: The owner context takes TASKFAULT at its next bundle boundary. -/
  | taskfaultDelivery (ctx : Nat)
  /-- R362: Monitor write: patching complete; the first instance may be admitted. -/
  | sealreqDone (site : Nat)
  /-- R362: Monitor write: the sealed letter is retired REFUSED. -/
  | sealreqRefuse (site : Nat)
  /-- R106: A write to CKPTBASE marks every register of the context dirty. -/
  | ckptbaseWrite (ctx : Nat) (v : W64)
  /-- R106: Writing DISCARD empties the shadow buffer. -/
  | trapcauseDiscard (ctx : Nat)
  /-- R267: A write of LSBASE or LSLIM that brings OFF banks inside the bounds wakes and zero-fills them. -/
  | lsboundsWrite (cl : Nat) (lo : Nat) (hi : Nat)
  /-- R267: Sets local-store bank power states, with OFF inside the bounds stored as RETAIN. -/
  | lspwrWrite (cl : Nat) (j : Nat) (v : W64)
  /-- R287: A write to PTROOT invalidates every translation of the cluster. -/
  | ptrootWrite (cl : Nat) (v : W64)
  /-- R273: Writing a channel index starts its retirement. -/
  | slretRetire (cl : Nat) (ch : Nat)
  /-- R273: Resumes a retirement held in WAITVAC. -/
  | slretGo (cl : Nat)
  /-- R313: Configures a queue, emptying it and clearing FROZEN and CLOSED. -/
  | wqcfgWrite (site : Nat) (q : Nat) (v : W64)
  /-- R315: Resets the heap: tasks ABSENT, pops answered TERM, residual from HPINIT. -/
  | hpctlReset (site : Nat) (h : Nat)
  /-- R315: Sets heap capacity and resets the heap. -/
  | hpcapWrite (site : Nat) (h : Nat) (v : W64)
  /-- R307: Kills the named context as exit does. -/
  | gmkillWrite (ctx : Nat)
  /-- R345: Drops every remote translation cache entry and replica of the cluster. -/
  | rtcdropAll (cl : Nat)
  /-- R290: Returns and clears the correctable-event count. -/
  | cecntRead (cl : Nat)
  /-- R290: Returns and clears the uncorrectable-error count. -/
  | merrstatRead (cl : Nat)
  /-- R345: Returns the remote translation state and clears MISSES. -/
  | rtcstatRead (cl : Nat)
  /-- R345: Returns and clears the Iczer failure count. -/
  | iczerrRead (port : Nat)
  /-- R372: Returns and clears the postmark discard counters. -/
  | pmcntRead (pb : Nat)
  /-- R294: Returns the post-box status and clears DROP. -/
  | pbstatRead (pb : Nat)
  /-- R308: Requests a cancel of the oldest unretired launch with the TAG. -/
  | pbcancelWrite (pb : Nat) (tag : BitVec 16)
  /-- R383: Returns ELHEAD and clears LOST. -/
  | elstatRead (site : Nat)
  /-- R381: Host opens or closes a site's expert registers to writing. -/
  | sitectlExpertWrite (site : Nat) (on : Bool)
  /-- R383: Host write to a BAR 0 or post-box register with no behaviour of its own. -/
  | hostRegisterWrite (bar : Nat) (off : Nat) (v : W64)
  /-- R383: A host access outside the implemented ranges aborts or is discarded, and is logged. -/
  | hostUnimplementedAccess (bar : Nat) (off : Nat) (wr : Bool)
  /-- R374: Host read of memory through the BAR 4 window, refused for tagged frames. -/
  | bar4Read (off : Nat) (n : Nat)
  /-- R374: Host write to memory through BAR 4, performed at the home in arrival order. -/
  | bar4Write (off : Nat) (n : Nat) (v : W64)
  /-- R376: Cold reset of the panel, with full start-up. -/
  | panelctlCold
  /-- R376: Panel warm reset: every site restarts from stage 4 and sessions end. -/
  | panelctlWarm
  /-- R377: Site warm reset: ends the instances on the site and restarts it from stage 4. -/
  | panelctlSitewarm (site : Nat)
  /-- R376: Power-on starts a cold reset. -/
  | powerOn
  /-- R378: A start-up stage finishes on every site, and the next stage begins. -/
  | startupStageAdvance
  /-- R370: A PCIe hot reset or link-down ends the port's sessions and halts its sealed post boxes. -/
  | hostLinkDown (port : Nat)
  /-- R367: SPDM GET_VERSION; resets the port's connection and sessions. -/
  | getVersion (port : Nat)
  /-- R367: SPDM capability exchange. -/
  | getCapabilities (port : Nat)
  /-- R367: SPDM algorithm negotiation. -/
  | negotiateAlgorithms (port : Nat)
  /-- R367: Returns certificate chain digests. -/
  | getDigests (port : Nat)
  /-- R367: Returns the slot 0 certificate chain. -/
  | getCertificate (port : Nat)
  /-- R367: Signs a challenge under the alias key. -/
  | challenge (port : Nat)
  /-- R367: Returns signed measurement blocks or the coolant report. -/
  | getMeasurements (port : Nat) (ix : Nat)
  /-- R367: Opens an SPDM session by DHE. -/
  | keyExchange (port : Nat)
  /-- R367: Completes the session handshake. -/
  | finish (port : Nat) (sid : Nat)
  /-- R367: Ends an SPDM session. -/
  | endSession (port : Nat) (sid : Nat)
  /-- R368: IDE_KM query within a session. -/
  | ideKmQuery (port : Nat) (sid : Nat)
  /-- R368: Programs an IDE stream key. -/
  | ideKmKeyProg (port : Nat) (sid : Nat) (st : Nat)
  /-- R368: Activates an IDE key set. -/
  | ideKmKSetGo (port : Nat) (sid : Nat) (st : Nat)
  /-- R368: Stops an IDE key set. -/
  | ideKmKSetStop (port : Nat) (sid : Nat) (st : Nat)
  /-- R384: Junction at 95 °C lowers ACLK in steps until below 90 °C. -/
  | thermalThrottle (site : Nat)
  /-- R384: At 110 °C the site's supply is removed and its instances end. -/
  | thermalShutdown (site : Nat)
  /-- R384: A site cooled below 60 °C restarts at stage 3. -/
  | thermalRestart (site : Nat)
  /-- R385: Flow below 45 L/min for over 1 s causes a panel warm reset. -/
  | coolantFlowLow
  /-- R384: A supply or voltage change alters ACLK without changing cycle counts. -/
  | dvfsChange (site : Nat)
  /-- R34: Each ACLK cycle advances CYCLE. In that cycle the merge stage chooses, and every context in WAIT, STALL or BLOCK advances its CCOUNT. -/
  | aclkCycle (cl : Nat)
  /-- R75: A slot whose major, FN, mode, size code or sub-operation is unallocated traps ILLEGAL MAJOR or FUNCTION and nullifies its bundle. -/
  | unallocatedEncoding (w : BitVec 32)
  /-- R293: A host write to bytes 0x00–0x77 of a post box's letter window stores those bytes without enqueuing anything. -/
  | letterWindowWrite (pb : Nat) (off : Nat) (v : W64)
  /-- R367: An SPDM request that is not listed, including a VENDOR_DEFINED_REQUEST that is not IDE_KM, receives ERROR with UnsupportedRequest and changes no state. -/
  | unlistedSpdmRequest (port : Nat)
  /-- R344: Notice reaches a panel that another part of a started multi-panel team has failed. Its own part's contexts are stopped as for GMKILL, and the part ends REFUSED. -/
  | joinPartFailure (team : Nat)
  deriving DecidableEq, Repr

end Sys2Proof
end

