-- ==== Sys2Proof/WellFormed.lean ====
section
/-! DEFINITION. Well-formed instructions: operands that an encoding, or the device, can carry. -/
namespace Sys2Proof

/-- A cluster number of the panel: site × 128 + cluster index, 64 sites of 84 clusters (R2, R35). -/
def clOk (cl : Nat) : Bool := decide (cl / 128 < 64 ∧ cl % 128 < 84)

/-- A context number of the panel: four to a cluster (R6). -/
def ctxOk (ctx : Nat) : Bool := clOk (ctx / 4)

/-- The conditions on an instruction's operands that its fields' widths do not already impose: the function and
specifier limits of R68 for a slot, and for an agent step that the place it names exists (R2, R388). -/
def Instr.wf : Instr → Bool
  | .nop => true
  | .yield => true
  | .exit => true
  | .brk _ => true
  | .trap _ => true
  | .rdcyc _ => true
  | .rdid _ n => decide (n.toNat < 8)
  | .add _ _ _ => true
  | .sub _ _ _ => true
  | .and _ _ _ => true
  | .or _ _ _ => true
  | .xor _ _ _ => true
  | .andn _ _ _ => true
  | .orn _ _ _ => true
  | .abd _ _ _ => true
  | .shl _ _ _ => true
  | .shr _ _ _ => true
  | .sar _ _ _ => true
  | .rol _ _ _ => true
  | .clz _ _ => true
  | .ctz _ _ => true
  | .popc _ _ => true
  | .brev _ _ => true
  | .mul _ _ _ => true
  | .mulhs _ _ _ => true
  | .mulhz _ _ _ => true
  | .divs _ _ _ => true
  | .divz _ _ _ => true
  | .rems _ _ _ => true
  | .remz _ _ _ => true
  | .mulw _ _ _ => true
  | .mins _ _ _ => true
  | .maxs _ _ _ => true
  | .minz _ _ _ => true
  | .maxz _ _ _ => true
  | .bfx _ _ _ => true
  | .bfi d _ _ => decide (d.toNat < 48)
  | .sext _ _ _ => true
  | .zext _ _ _ => true
  | .ceq _ _ _ => true
  | .cne _ _ _ => true
  | .clts _ _ _ => true
  | .cles _ _ _ => true
  | .cltz _ _ _ => true
  | .clez _ _ _ => true
  | .ctst _ _ _ => true
  | .cand _ _ _ => true
  | .cor _ _ _ => true
  | .cxor _ _ _ => true
  | .candn _ _ _ => true
  | .cmov _ _ => true
  | .cget _ _ => true
  | .sel _ _ _ _ => true
  | .addi _ _ _ => true
  | .andi _ _ _ => true
  | .ori _ _ _ => true
  | .xori _ _ _ => true
  | .shli _ _ _ => true
  | .shri _ _ _ => true
  | .sari _ _ _ => true
  | .roli _ _ _ => true
  | .ceqi _ _ _ => true
  | .cnei _ _ _ => true
  | .cltsi _ _ _ => true
  | .clesi _ _ _ => true
  | .cltzi _ _ _ => true
  | .clezi _ _ _ => true
  | .cgtsi _ _ _ => true
  | .cgtzi _ _ _ => true
  | .movi _ _ => true
  | .adr _ _ => true
  | .ld _ _ _ z _ => decide (z.toNat ≠ 7)
  | .st _ _ _ z _ => decide (z.toNat < 4)
  | .dclean _ _ => true
  | .dinv _ _ => true
  | .dflush _ _ => true
  | .isync _ _ => true
  | .fence a => decide (a.toNat < 3)
  | .pref _ => true
  | .ldx _ _ _ z => decide (z.toNat ≠ 7)
  | .br _ => true
  | .call _ => true
  | .ret => true
  | .jr _ => true
  | .callr _ => true
  | .bru _ _ _ => true
  | .lbuf _ _ => true
  | .rpt _ _ _ _ _ => true
  | .faddF32 _ _ _ => true
  | .fsubF32 _ _ _ => true
  | .fmulF32 _ _ _ => true
  | .fdivF32 _ _ _ => true
  | .fsqrtF32 _ _ => true
  | .fminF32 _ _ _ => true
  | .fmaxF32 _ _ _ => true
  | .ffmaF32 d _ _ => decide (d.toNat < 48)
  | .faddF64 _ _ _ => true
  | .fsubF64 _ _ _ => true
  | .fmulF64 _ _ _ => true
  | .fdivF64 _ _ _ => true
  | .fsqrtF64 _ _ => true
  | .fminF64 _ _ _ => true
  | .fmaxF64 _ _ _ => true
  | .ffmaF64 d _ _ => decide (d.toNat < 48)
  | .feqF32 _ _ _ => true
  | .fltF32 _ _ _ => true
  | .fleF32 _ _ _ => true
  | .funF32 _ _ _ => true
  | .feqF64 _ _ _ => true
  | .fltF64 _ _ _ => true
  | .fleF64 _ _ _ => true
  | .funF64 _ _ _ => true
  | .fcvtF32S64 _ _ => true
  | .fcvtF64S64 _ _ => true
  | .fcvtS64F32 _ _ => true
  | .fcvtS64F64 _ _ => true
  | .fcvtF64F32 _ _ => true
  | .fcvtF32F64 _ _ => true
  | .fcvtF32Bf16 _ _ => true
  | .fcvtBf16F32 _ _ => true
  | .vaddF32 _ _ _ _ => true
  | .vsubF32 _ _ _ _ => true
  | .vmulF32 _ _ _ _ => true
  | .vfmaF32 d _ _ _ => decide (d.toNat < 28)
  | .vminF32 _ _ _ _ => true
  | .vmaxF32 _ _ _ _ => true
  | .vfmsF32 d _ _ _ => decide (d.toNat < 28)
  | .vabsF32 _ _ _ => true
  | .vaddBf16 _ _ _ _ => true
  | .vsubBf16 _ _ _ _ => true
  | .vmulBf16 _ _ _ _ => true
  | .vfmaBf16 d _ _ _ => decide (d.toNat < 28)
  | .vminBf16 _ _ _ _ => true
  | .vmaxBf16 _ _ _ _ => true
  | .vfmsBf16 d _ _ _ => decide (d.toNat < 28)
  | .vabsBf16 _ _ _ => true
  | .vaddS32 _ _ _ _ => true
  | .vsubS32 _ _ _ _ => true
  | .vmulS32 _ _ _ _ => true
  | .vmacS32 d _ _ _ => decide (d.toNat < 28)
  | .vminsS32 _ _ _ _ => true
  | .vmaxsS32 _ _ _ _ => true
  | .vminzS32 _ _ _ _ => true
  | .vmaxzS32 _ _ _ _ => true
  | .vand _ _ _ _ => true
  | .vor _ _ _ _ => true
  | .vxor _ _ _ _ => true
  | .vandn _ _ _ _ => true
  | .vshl _ _ _ _ => true
  | .vshr _ _ _ _ => true
  | .vsar _ _ _ _ => true
  | .vsel _ _ _ _ => true
  | .vrcp _ _ _ => true
  | .vrsq _ _ _ => true
  | .vsqrt _ _ _ => true
  | .vex2 _ _ _ => true
  | .vlg2 _ _ _ => true
  | .vdiv _ _ _ _ => true
  | .vfloor _ _ _ => true
  | .vround _ _ _ => true
  | .vceqF32 _ _ _ _ => true
  | .vcltF32 _ _ _ _ => true
  | .vcleF32 _ _ _ _ => true
  | .vcunF32 _ _ _ _ => true
  | .vceqS32 _ _ _ _ => true
  | .vcltS32 _ _ _ _ => true
  | .vcleS32 _ _ _ _ => true
  | .vcltzS32 _ _ _ _ => true
  | .pand _ _ _ => true
  | .por _ _ _ => true
  | .pxor _ _ _ => true
  | .pandn _ _ _ => true
  | .pnot _ _ => true
  | .pany _ _ _ => true
  | .pall _ _ _ => true
  | .pcnt _ _ _ => true
  | .vrsumF32 _ _ _ => true
  | .vrmaxF32 _ _ _ => true
  | .vrminF32 _ _ _ => true
  | .vrsumS32 _ _ _ => true
  | .vscanF32 _ _ _ => true
  | .vscanS32 _ _ _ => true
  | .vtopk d _ k _ => decide (1 ≤ k.toNat ∧ k.toNat ≤ 8) && decide (d.toNat < 28)
  | .vargmax _ _ _ => true
  | .vbcast _ _ _ _ => true
  | .vperm _ _ _ _ => true
  | .vrot _ _ _ _ => true
  | .vslide _ _ _ _ => true
  | .vzip _ _ _ _ => true
  | .vunzip _ _ _ _ => true
  | .vcompress _ _ _ => true
  | .vexpand _ _ _ => true
  | .vcvtF32S32 _ _ _ => true
  | .vcvtS32F32 _ _ _ => true
  | .vcvtBf16F32 _ _ _ _ => true
  | .vcvtF32Bf16l _ _ _ => true
  | .vcvtF32Bf16h _ _ _ => true
  | .vcvtF16F32 _ _ _ _ => true
  | .vcvtF32F16l _ _ _ => true
  | .vcvtF32F16h _ _ _ => true
  | .vkbpack _ _ n => decide (2 ≤ n.toNat ∧ n.toNat ≤ 8)
  | .vkbunpack _ _ n => decide (2 ≤ n.toNat ∧ n.toNat ≤ 8)
  | .vkbscale _ _ n => decide (2 ≤ n.toNat ∧ n.toNat ≤ 8)
  | .vmov _ _ _ => true
  | .vfill _ _ _ => true
  | .vins d _ _ _ => decide (d.toNat < 28)
  | .vext _ _ _ => true
  | .vqpk _ _ _ => true
  | .vqcnt _ _ => true
  | .vqclr _ => true
  | .vlaneid _ _ => true
  | .vld _ _ _ _ _ _ => true
  | .vst _ _ _ _ _ _ => true
  | .vgth32 _ _ _ _ => true
  | .vsct32 _ _ _ _ => true
  | .vgth16 _ _ _ _ => true
  | .vsct16 _ _ _ _ => true
  | .vsctaddF32 _ _ _ _ => true
  | .vsctaddS32 _ _ _ _ => true
  | .qpk _ _ => true
  | .qcnt _ _ => true
  | .qclr _ => true
  | .qbind _ _ _ => true
  | .qunbind _ _ => true
  | .mfmt _ _ => true
  | .mdrain _ _ _ => true
  | .mzero _ _ => true
  | .mstat _ _ => true
  | .mma _ _ _ _ m => decide (m.toNat < 3)
  | .mrdv _ _ _ => true
  | .mrdq _ _ _ => true
  | .mstF32 _ _ _ => true
  | .mstBf16 _ _ _ => true
  | .mstKb _ _ _ => true
  | .mwrv _ _ _ => true
  | .oclaim _ _ => true
  | .orelease _ _ => true
  | .oload _ _ _ => true
  | .ofill _ _ _ => true
  | .ostat _ _ => true
  | .wrset _ _ _ => true
  | .wradv _ _ _ => true
  | .wrstat _ _ => true
  | .wrfree _ _ => true
  | .wrbind _ _ => true
  | .wrout _ _ _ => true
  | .wrflush _ _ => true
  | .wnew _ _ _ => true
  | .wfree _ _ => true
  | .wfence _ _ _ => true
  | .wpost _ _ _ => true
  | .wstart _ _ _ => true
  | .wcompl _ _ => true
  | .wwait _ _ => true
  | .wlock _ _ _ => true
  | .wunlock _ _ _ => true
  | .wflush _ _ _ => true
  | .wquery _ _ => true
  | .get _ _ _ => true
  | .put _ _ _ => true
  | .putm _ _ _ => true
  | .accAddf _ _ _ => true
  | .accAdds _ _ _ => true
  | .accFx _ _ _ => true
  | .accMaxf _ _ _ => true
  | .accMinf _ _ _ => true
  | .getacc _ _ _ => true
  | .rcas _ _ _ => true
  | .getro _ _ _ => true
  | .dispatch _ _ => true
  | .combine _ _ => true
  | .coll _ _ => true
  | .cstat _ _ => true
  | .ccancel _ _ => true
  | .aadd _ _ _ => true
  | .aand _ _ _ => true
  | .aor _ _ _ => true
  | .axchg _ _ _ => true
  | .amaxs _ _ _ => true
  | .amins _ _ _ => true
  | .aaddf _ _ _ => true
  | .afx _ _ _ => true
  | .acas d _ _ => decide (d.toNat < 48)
  | .ahist _ _ _ => true
  | .barv _ _ _ => true
  | .barw _ _ _ => true
  | .barset _ _ _ => true
  | .barq _ _ => true
  | .tlwait _ _ _ => true
  | .tlrd _ _ => true
  | .tlwaitr _ _ _ => true
  | .tlrdi _ _ => true
  | .tlrdc _ _ => true
  | .tlrdv _ _ => true
  | .tlerr _ _ => true
  | .bwph _ => true
  | .wakew => true
  | .tlbinv _ _ => true
  | .tlbsync => true
  | .rtcinv _ _ => true
  | .rtcsync => true
  | .trun _ => true
  | .tchain _ => true
  | .tcond _ => true
  | .qpop _ _ _ => true
  | .qtry _ _ _ => true
  | .qpush _ _ _ => true
  | .qcancel _ _ _ => true
  | .qthaw _ _ => true
  | .hpush _ _ _ => true
  | .hpop _ _ _ => true
  | .hadj _ _ _ => true
  | .hmax _ _ _ => true
  | .hres _ _ _ => true
  | .hdone _ _ _ => true
  | .hread _ _ _ => true
  | .csrr _ _ => true
  | .csrw _ _ => true
  | .eret => true
  | .segenter _ => true
  | .segsealSeal _ _ => true
  | .segsealPatch _ _ => true
  | .kslotQuery _ _ _ => true
  | .kslotInstall _ _ _ => true
  | .kslotZeroise _ _ _ => true
  | .kslotRotate _ _ _ => true
  | .kslotBind _ _ _ => true
  | .scrub _ _ => true
  | .pgmap _ _ _ => true
  | .ext _ => true
  | .blockOpen ctx => ctxOk ctx
  | .fixedLatencyLanding ctx => ctxOk ctx
  | .interlockedResultArrival ctx _ => ctxOk ctx
  | .compensatedResultArrival ctx => ctxOk ctx
  | .loadMemoryError ctx => ctxOk ctx
  | .boundQueueDelivery ctx q => ctxOk ctx && decide (q < 20)
  | .contextExitCompletion ctx => ctxOk ctx
  | .engineCommandStart cl e => clOk cl && decide (e < 2)
  | .mmaRepetitionAccept cl e => clOk cl && decide (e < 2)
  | .mmaCompletion cl e => clOk cl && decide (e < 2)
  | .oloadCompletion cl k => clOk cl && decide (k < 32)
  | .ofillCompletion cl k => clOk cl && decide (k < 32)
  | .mstCompletion cl e => clOk cl && decide (e < 2)
  | .drainRowDelivery cl e => clOk cl && decide (e < 2)
  | .pgmapCompletion cl => clOk cl
  | .ringRowLanding ctx r => ctxOk ctx && decide (r < 16)
  | .ringMulticastRow _ => true
  | .recvRegistration ctx r => ctxOk ctx && decide (r < 16)
  | .ringCreditReturn _ => true
  | .ringBoundRowDelivery ctx r => ctxOk ctx && decide (r < 16)
  | .ringRowWriteAccept ctx r => ctxOk ctx && decide (r < 16)
  | .fabricPacketHop _ => true
  | .mailbagWaitExpiry site _ => decide (site < 64)
  | .mailbagArrival site _ => decide (site < 64)
  | .remoteRequestArrival _ => true
  | .orderedPacketRelease _ => true
  | .remoteResponseArrival _ => true
  | .translationRequest _ => true
  | .translationReply _ => true
  | .tokenInvalidation _ => true
  | .tokenInvalidationAck _ => true
  | .windowCollectiveNotice _ => true
  | .fenceCloseNotice _ => true
  | .postNotice _ => true
  | .completeNotice _ => true
  | .lockRequest _ => true
  | .lockRelease _ => true
  | .headAnnouncement _ => true
  | .collectiveChunk site ch => decide (site < 64) && decide (ch < 8)
  | .dispatchCountExchange _ => true
  | .deliveryStreamEntry ctx _ => ctxOk ctx
  | .cancelArrival _ => true
  | .laneFailure site k => decide (site < 64) && decide (k < 14)
  | .iczerGroupArrival port _ => decide (port < 32)
  | .iczerIdleFill port => decide (port < 32)
  | .iczerRekey port => decide (port < 32)
  | .iczerCounterExhausted port => decide (port < 32)
  | .iczerLinkRetrain port => decide (port < 32)
  | .joinReport _ _ => true
  | .joinTimeout _ => true
  | .l1MissFill cl _ => clOk cl
  | .pageTableWalk cl _ _ => clOk cl
  | .pigeonholeBankAccess site bank => decide (site < 64) && decide (bank < 256)
  | .writeQueueWatermarkDrain cl ch => clOk cl && decide (ch < 4)
  | .writeQueueAgeDrain cl ch => clOk cl && decide (ch < 4)
  | .rowActivationRefresh cl _ => clOk cl
  | .patrolRead cl _ => clOk cl
  | .channelRetirementStart cl ch => clOk cl && decide (ch < 4)
  | .granuleMove cl => clOk cl
  | .retirementComplete cl => clOk cl
  | .bankSetNap cl bs => clOk cl && decide (bs < 16)
  | .bankSetRetain cl bs => clOk cl && decide (bs < 16)
  | .bankSetDeep cl bs => clOk cl && decide (bs < 16)
  | .bankSetWake cl bs => clOk cl && decide (bs < 16)
  | .lsBankWake cl bank => clOk cl && decide (bank < 256)
  | .keyRotationGranule cl => clOk cl
  | .keyRotationComplete site => decide (site < 64)
  | .scrubUnit site => decide (site < 64)
  | .scrubComplete site => decide (site < 64)
  | .letterEnqueue port pb _ _ => decide (port < 4) && decide (pb < 4096)
  | .schedulingDecision => true
  | .letterAging pb => decide (pb < 4096)
  | .completionWriteLetter pb => decide (pb < 4096)
  | .completionWaitPoll pb => decide (pb < 4096)
  | .gangStart _ => true
  | .instanceCompletion _ => true
  | .contextPreemptionStop ctx => ctxOk ctx
  | .contextSave _ => true
  | .teamResumption _ => true
  | .taskfaultDelivery ctx => ctxOk ctx
  | .sealreqDone site => decide (site < 64)
  | .sealreqRefuse site => decide (site < 64)
  | .ckptbaseWrite ctx _ => ctxOk ctx
  | .trapcauseDiscard ctx => ctxOk ctx
  | .lsboundsWrite cl lo hi => clOk cl && decide (lo < 64) && decide (hi < 64)
  | .lspwrWrite cl j _ => clOk cl && decide (j < 2)
  | .ptrootWrite cl _ => clOk cl
  | .slretRetire cl ch => clOk cl && decide (ch < 4)
  | .slretGo cl => clOk cl
  | .wqcfgWrite site q _ => decide (site < 64) && decide (q < 1024)
  | .hpctlReset site h => decide (site < 64) && decide (h < 16)
  | .hpcapWrite site h _ => decide (site < 64) && decide (h < 16)
  | .gmkillWrite ctx => ctxOk ctx
  | .rtcdropAll cl => clOk cl
  | .cecntRead cl => clOk cl
  | .merrstatRead cl => clOk cl
  | .rtcstatRead cl => clOk cl
  | .iczerrRead port => decide (port < 32)
  | .pmcntRead pb => decide (pb < 4096)
  | .pbstatRead pb => decide (pb < 4096)
  | .pbcancelWrite pb _ => decide (pb < 4096)
  | .elstatRead site => decide (site < 64)
  | .sitectlExpertWrite site _ => decide (site < 64)
  | .hostRegisterWrite _ _ _ => true
  | .hostUnimplementedAccess _ _ _ => true
  | .bar4Read off n => decide (1 ≤ n ∧ off + n ≤ 2 ^ 30)
  | .bar4Write off n _ => decide (1 ≤ n ∧ n ≤ 8 ∧ off + n ≤ 2 ^ 30)
  | .panelctlCold => true
  | .panelctlWarm => true
  | .panelctlSitewarm site => decide (site < 64)
  | .powerOn => true
  | .startupStageAdvance => true
  | .hostLinkDown port => decide (port < 4)
  | .getVersion port => decide (port < 4)
  | .getCapabilities port => decide (port < 4)
  | .negotiateAlgorithms port => decide (port < 4)
  | .getDigests port => decide (port < 4)
  | .getCertificate port => decide (port < 4)
  | .challenge port => decide (port < 4)
  | .getMeasurements port _ => decide (port < 4)
  | .keyExchange port => decide (port < 4)
  | .finish port _ => decide (port < 4)
  | .endSession port _ => decide (port < 4)
  | .ideKmQuery port _ => decide (port < 4)
  | .ideKmKeyProg port _ _ => decide (port < 4)
  | .ideKmKSetGo port _ _ => decide (port < 4)
  | .ideKmKSetStop port _ _ => decide (port < 4)
  | .thermalThrottle site => decide (site < 64)
  | .thermalShutdown site => decide (site < 64)
  | .thermalRestart site => decide (site < 64)
  | .coolantFlowLow => true
  | .dvfsChange site => decide (site < 64)
  | .aclkCycle cl => clOk cl
  | .unallocatedEncoding _ => true
  | .letterWindowWrite pb off _ => decide (pb < 4096) && decide (off < 4096)
  | .unlistedSpdmRequest port => decide (port < 4)
  | .joinPartFailure _ => true

end Sys2Proof
end

