-- ==== Sys2Proof/Decode.lean ====
section
/-! DEFINITION. The slot decoder, total on any word and rejecting by name (R68 to R76), and after it the encoder.
Some definitions are marked noncomputable only because Lean's compiler cannot build a value whose constructor stands
beyond place 244 of its type; the kernel evaluates all of them. -/
namespace Sys2Proof
open Sys2Proof.Machine

/-- The reasons of an ILLEGAL trap, with their codes in R68. -/
inductive Illegal where
  | major | function | reserved | never | specifier
  deriving DecidableEq, Repr

/-- The reason code of R68. -/
def Illegal.code : Illegal → Nat
  | .major => 1
  | .function => 2
  | .reserved => 3
  | .never => 4
  | .specifier => 5

/-- The n-bit field whose lowest bit is lo (R69). -/
def field (w lo n : Nat) : BitVec n := BitVec.ofNat n (w / 2 ^ lo)

/-- The n bits from lo are zero (R76). -/
def zeroAt (w lo n : Nat) : Bool := bits w lo n == 0

/-- A decoding that goes on only where a test holds. -/
def guardDec (c : Bool) (e : Illegal) (k : Except Illegal Instr) : Except Illegal Instr := if c then k else .error e

/-- Major 0x00 (R74). -/
def decMisc (w : Nat) : Except Illegal Instr :=
  match bits w 0 3 with
  | 0 => guardDec (zeroAt w 3 18) .reserved (.ok .nop)
  | 1 => guardDec (zeroAt w 3 18) .reserved (.ok .yield)
  | 2 => guardDec (zeroAt w 3 18) .reserved (.ok .exit)
  | 3 => guardDec (zeroAt w 9 12) .reserved (.ok (.brk (field w 3 6)))
  | 4 => guardDec (zeroAt w 9 12) .reserved (.ok (.trap (field w 3 6)))
  | 5 => guardDec (zeroAt w 3 12) .reserved (.ok (.rdcyc (field w 15 6)))
  | 6 => guardDec (decide ((field w 3 6).toNat < 8)) .function (guardDec (zeroAt w 9 6) .reserved (.ok (.rdid (field w 15 6) (field w 3 6))))
  | _ => .error .function

/-- Major 0x01 (R74). -/
def decAlu (w : Nat) : Except Illegal Instr :=
  match bits w 0 3 with
  | 0 => .ok (.add (field w 15 6) (field w 9 6) (field w 3 6))
  | 1 => .ok (.sub (field w 15 6) (field w 9 6) (field w 3 6))
  | 2 => .ok (.and (field w 15 6) (field w 9 6) (field w 3 6))
  | 3 => .ok (.or (field w 15 6) (field w 9 6) (field w 3 6))
  | 4 => .ok (.xor (field w 15 6) (field w 9 6) (field w 3 6))
  | 5 => .ok (.andn (field w 15 6) (field w 9 6) (field w 3 6))
  | 6 => .ok (.orn (field w 15 6) (field w 9 6) (field w 3 6))
  | _ => .ok (.abd (field w 15 6) (field w 9 6) (field w 3 6))

/-- Major 0x02 (R74). -/
def decShift (w : Nat) : Except Illegal Instr :=
  match bits w 0 3 with
  | 0 => .ok (.shl (field w 15 6) (field w 9 6) (field w 3 6))
  | 1 => .ok (.shr (field w 15 6) (field w 9 6) (field w 3 6))
  | 2 => .ok (.sar (field w 15 6) (field w 9 6) (field w 3 6))
  | 3 => .ok (.rol (field w 15 6) (field w 9 6) (field w 3 6))
  | 4 => guardDec (zeroAt w 3 6) .reserved (.ok (.clz (field w 15 6) (field w 9 6)))
  | 5 => guardDec (zeroAt w 3 6) .reserved (.ok (.ctz (field w 15 6) (field w 9 6)))
  | 6 => guardDec (zeroAt w 3 6) .reserved (.ok (.popc (field w 15 6) (field w 9 6)))
  | _ => guardDec (zeroAt w 3 6) .reserved (.ok (.brev (field w 15 6) (field w 9 6)))

/-- Major 0x03 (R74). -/
def decMulDiv (w : Nat) : Except Illegal Instr :=
  match bits w 0 3 with
  | 0 => .ok (.mul (field w 15 6) (field w 9 6) (field w 3 6))
  | 1 => .ok (.mulhs (field w 15 6) (field w 9 6) (field w 3 6))
  | 2 => .ok (.mulhz (field w 15 6) (field w 9 6) (field w 3 6))
  | 3 => .ok (.divs (field w 15 6) (field w 9 6) (field w 3 6))
  | 4 => .ok (.divz (field w 15 6) (field w 9 6) (field w 3 6))
  | 5 => .ok (.rems (field w 15 6) (field w 9 6) (field w 3 6))
  | 6 => .ok (.remz (field w 15 6) (field w 9 6) (field w 3 6))
  | _ => .ok (.mulw (field w 15 6) (field w 9 6) (field w 3 6))

/-- Major 0x04 (R74). -/
def decBitField (w : Nat) : Except Illegal Instr :=
  match bits w 0 3 with
  | 0 => .ok (.mins (field w 15 6) (field w 9 6) (field w 3 6))
  | 1 => .ok (.maxs (field w 15 6) (field w 9 6) (field w 3 6))
  | 2 => .ok (.minz (field w 15 6) (field w 9 6) (field w 3 6))
  | 3 => .ok (.maxz (field w 15 6) (field w 9 6) (field w 3 6))
  | 4 => .ok (.bfx (field w 15 6) (field w 9 6) (field w 3 6))
  | 5 => guardDec (decide ((field w 15 6).toNat < 48)) .specifier (.ok (.bfi (field w 15 6) (field w 9 6) (field w 3 6)))
  | 6 => .ok (.sext (field w 15 6) (field w 9 6) (field w 3 6))
  | _ => .ok (.zext (field w 15 6) (field w 9 6) (field w 3 6))

/-- Major 0x05 (R74). -/
def decCmp (w : Nat) : Except Illegal Instr :=
  match bits w 0 3 with
  | 0 => guardDec (zeroAt w 15 3) .reserved (.ok (.ceq (field w 18 3) (field w 9 6) (field w 3 6)))
  | 1 => guardDec (zeroAt w 15 3) .reserved (.ok (.cne (field w 18 3) (field w 9 6) (field w 3 6)))
  | 2 => guardDec (zeroAt w 15 3) .reserved (.ok (.clts (field w 18 3) (field w 9 6) (field w 3 6)))
  | 3 => guardDec (zeroAt w 15 3) .reserved (.ok (.cles (field w 18 3) (field w 9 6) (field w 3 6)))
  | 4 => guardDec (zeroAt w 15 3) .reserved (.ok (.cltz (field w 18 3) (field w 9 6) (field w 3 6)))
  | 5 => guardDec (zeroAt w 15 3) .reserved (.ok (.clez (field w 18 3) (field w 9 6) (field w 3 6)))
  | 6 => guardDec (zeroAt w 15 3) .reserved (.ok (.ctst (field w 18 3) (field w 9 6) (field w 3 6)))
  | _ => .error .function

/-- Major 0x06 (R74). -/
def decCLogic (w : Nat) : Except Illegal Instr :=
  match bits w 0 3 with
  | 0 => guardDec (zeroAt w 6 3 && zeroAt w 12 3 && zeroAt w 18 3) .reserved (.ok (.cand (field w 15 3) (field w 9 3) (field w 3 3)))
  | 1 => guardDec (zeroAt w 6 3 && zeroAt w 12 3 && zeroAt w 18 3) .reserved (.ok (.cor (field w 15 3) (field w 9 3) (field w 3 3)))
  | 2 => guardDec (zeroAt w 6 3 && zeroAt w 12 3 && zeroAt w 18 3) .reserved (.ok (.cxor (field w 15 3) (field w 9 3) (field w 3 3)))
  | 3 => guardDec (zeroAt w 6 3 && zeroAt w 12 3 && zeroAt w 18 3) .reserved (.ok (.candn (field w 15 3) (field w 9 3) (field w 3 3)))
  | 4 => guardDec (zeroAt w 3 6 && zeroAt w 18 3) .reserved (.ok (.cmov (field w 15 3) (field w 9 6)))
  | 5 => guardDec (zeroAt w 3 6 && zeroAt w 12 3) .reserved (.ok (.cget (field w 15 6) (field w 9 3)))
  | _ => .error .function

/-- Major 0x07 (R74). -/
def decSel (w : Nat) : Except Illegal Instr :=
  .ok (.sel (field w 15 6) (field w 9 6) (field w 3 6) (field w 0 3))

/-- Major 0x08 (R74). -/
def decAddi (w : Nat) : Except Illegal Instr :=
  .ok (.addi (field w 15 6) (field w 9 6) (field w 0 9))

/-- Major 0x09 (R74). -/
def decAndi (w : Nat) : Except Illegal Instr :=
  .ok (.andi (field w 15 6) (field w 9 6) (field w 0 9))

/-- Major 0x0A (R74). -/
def decOri (w : Nat) : Except Illegal Instr :=
  .ok (.ori (field w 15 6) (field w 9 6) (field w 0 9))

/-- Major 0x0B (R74). -/
def decXori (w : Nat) : Except Illegal Instr :=
  .ok (.xori (field w 15 6) (field w 9 6) (field w 0 9))

/-- Major 0x0C (R74). -/
def decShiftImm (w : Nat) : Except Illegal Instr :=
  match bits w 6 3 with
  | 0 => .ok (.shli (field w 15 6) (field w 9 6) (field w 0 6))
  | 1 => .ok (.shri (field w 15 6) (field w 9 6) (field w 0 6))
  | 2 => .ok (.sari (field w 15 6) (field w 9 6) (field w 0 6))
  | 3 => .ok (.roli (field w 15 6) (field w 9 6) (field w 0 6))
  | _ => .error .function

/-- Major 0x0D (R74). -/
def decCmpImm (w : Nat) : Except Illegal Instr :=
  match bits w 15 3 with
  | 0 => .ok (.ceqi (field w 18 3) (field w 9 6) (field w 0 9))
  | 1 => .ok (.cnei (field w 18 3) (field w 9 6) (field w 0 9))
  | 2 => .ok (.cltsi (field w 18 3) (field w 9 6) (field w 0 9))
  | 3 => .ok (.clesi (field w 18 3) (field w 9 6) (field w 0 9))
  | 4 => .ok (.cltzi (field w 18 3) (field w 9 6) (field w 0 9))
  | 5 => .ok (.clezi (field w 18 3) (field w 9 6) (field w 0 9))
  | 6 => .ok (.cgtsi (field w 18 3) (field w 9 6) (field w 0 9))
  | _ => .ok (.cgtzi (field w 18 3) (field w 9 6) (field w 0 9))

/-- Major 0x0E (R74). -/
def decMovi (w : Nat) : Except Illegal Instr :=
  .ok (.movi (field w 15 6) (field w 0 15))

/-- Major 0x0F (R74). -/
def decAdr (w : Nat) : Except Illegal Instr :=
  .ok (.adr (field w 15 6) (field w 0 15))

/-- Major 0x10 (R74). -/
def decLd (w : Nat) : Except Illegal Instr :=
  guardDec (decide ((field w 7 3).toNat ≠ 7)) .function (.ok (.ld (field w 15 6) (field w 11 4) (field w 10 1) (field w 7 3) (field w 0 7)))

/-- Major 0x11 (R74). -/
def decSt (w : Nat) : Except Illegal Instr :=
  guardDec (decide ((field w 7 3).toNat < 4)) .function (.ok (.st (field w 15 6) (field w 11 4) (field w 10 1) (field w 7 3) (field w 0 7)))

/-- Major 0x12 (R74). -/
def decCache (w : Nat) : Except Illegal Instr :=
  match bits w 0 3 with
  | 0 => guardDec (zeroAt w 15 6) .reserved (.ok (.dclean (field w 9 6) (field w 3 6)))
  | 1 => guardDec (zeroAt w 15 6) .reserved (.ok (.dinv (field w 9 6) (field w 3 6)))
  | 2 => guardDec (zeroAt w 15 6) .reserved (.ok (.dflush (field w 9 6) (field w 3 6)))
  | 3 => guardDec (zeroAt w 15 6) .reserved (.ok (.isync (field w 9 6) (field w 3 6)))
  | 4 => guardDec (decide ((field w 9 6).toNat < 3)) .function (guardDec (zeroAt w 3 6 && zeroAt w 15 6) .reserved (.ok (.fence (field w 9 6))))
  | 5 => guardDec (zeroAt w 3 6 && zeroAt w 15 6) .reserved (.ok (.pref (field w 9 6)))
  | _ => .error .function

/-- Major 0x13 (R74). -/
def decLdx (w : Nat) : Except Illegal Instr :=
  guardDec (decide ((field w 0 3).toNat ≠ 7)) .function (.ok (.ldx (field w 15 6) (field w 9 6) (field w 3 6) (field w 0 3)))

/-- Major 0x14 (R74). -/
def decBr (w : Nat) : Except Illegal Instr :=
  .ok (.br (field w 0 21))

/-- Major 0x15 (R74). -/
def decCall (w : Nat) : Except Illegal Instr :=
  .ok (.call (field w 0 21))

/-- Major 0x16 (R74). -/
def decCtrl (w : Nat) : Except Illegal Instr :=
  match bits w 0 3 with
  | 0 => guardDec (zeroAt w 3 18) .reserved (.ok .ret)
  | 1 => guardDec (zeroAt w 3 6 && zeroAt w 15 6) .reserved (.ok (.jr (field w 9 6)))
  | 2 => guardDec (zeroAt w 3 6 && zeroAt w 15 6) .reserved (.ok (.callr (field w 9 6)))
  | 3 => guardDec (zeroAt w 6 3 && zeroAt w 18 3) .reserved (.ok (.bru (field w 15 3) (field w 9 6) (field w 3 3)))
  | 4 => guardDec (zeroAt w 3 6) .reserved (.ok (.lbuf (field w 15 6) (field w 9 6)))
  | _ => .error .function

/-- Major 0x17 (R74). -/
def decRpt (w : Nat) : Except Illegal Instr :=
  .ok (.rpt (field w 12 9) (field w 8 4) (field w 4 4) (field w 2 2) (field w 0 2))

/-- Major 0x18 (R74). -/
def decFp32 (w : Nat) : Except Illegal Instr :=
  match bits w 0 3 with
  | 0 => .ok (.faddF32 (field w 15 6) (field w 9 6) (field w 3 6))
  | 1 => .ok (.fsubF32 (field w 15 6) (field w 9 6) (field w 3 6))
  | 2 => .ok (.fmulF32 (field w 15 6) (field w 9 6) (field w 3 6))
  | 3 => .ok (.fdivF32 (field w 15 6) (field w 9 6) (field w 3 6))
  | 4 => guardDec (zeroAt w 3 6) .reserved (.ok (.fsqrtF32 (field w 15 6) (field w 9 6)))
  | 5 => .ok (.fminF32 (field w 15 6) (field w 9 6) (field w 3 6))
  | 6 => .ok (.fmaxF32 (field w 15 6) (field w 9 6) (field w 3 6))
  | _ => guardDec (decide ((field w 15 6).toNat < 48)) .specifier (.ok (.ffmaF32 (field w 15 6) (field w 9 6) (field w 3 6)))

/-- Major 0x19 (R74). -/
def decFp64 (w : Nat) : Except Illegal Instr :=
  match bits w 0 3 with
  | 0 => .ok (.faddF64 (field w 15 6) (field w 9 6) (field w 3 6))
  | 1 => .ok (.fsubF64 (field w 15 6) (field w 9 6) (field w 3 6))
  | 2 => .ok (.fmulF64 (field w 15 6) (field w 9 6) (field w 3 6))
  | 3 => .ok (.fdivF64 (field w 15 6) (field w 9 6) (field w 3 6))
  | 4 => guardDec (zeroAt w 3 6) .reserved (.ok (.fsqrtF64 (field w 15 6) (field w 9 6)))
  | 5 => .ok (.fminF64 (field w 15 6) (field w 9 6) (field w 3 6))
  | 6 => .ok (.fmaxF64 (field w 15 6) (field w 9 6) (field w 3 6))
  | _ => guardDec (decide ((field w 15 6).toNat < 48)) .specifier (.ok (.ffmaF64 (field w 15 6) (field w 9 6) (field w 3 6)))

/-- Major 0x1A (R74). -/
def decFcmp (w : Nat) : Except Illegal Instr :=
  match bits w 0 3 with
  | 0 => guardDec (zeroAt w 15 3) .reserved (.ok (.feqF32 (field w 18 3) (field w 9 6) (field w 3 6)))
  | 1 => guardDec (zeroAt w 15 3) .reserved (.ok (.fltF32 (field w 18 3) (field w 9 6) (field w 3 6)))
  | 2 => guardDec (zeroAt w 15 3) .reserved (.ok (.fleF32 (field w 18 3) (field w 9 6) (field w 3 6)))
  | 3 => guardDec (zeroAt w 15 3) .reserved (.ok (.funF32 (field w 18 3) (field w 9 6) (field w 3 6)))
  | 4 => guardDec (zeroAt w 15 3) .reserved (.ok (.feqF64 (field w 18 3) (field w 9 6) (field w 3 6)))
  | 5 => guardDec (zeroAt w 15 3) .reserved (.ok (.fltF64 (field w 18 3) (field w 9 6) (field w 3 6)))
  | 6 => guardDec (zeroAt w 15 3) .reserved (.ok (.fleF64 (field w 18 3) (field w 9 6) (field w 3 6)))
  | _ => guardDec (zeroAt w 15 3) .reserved (.ok (.funF64 (field w 18 3) (field w 9 6) (field w 3 6)))

/-- Major 0x1B (R74). -/
def decFcvt (w : Nat) : Except Illegal Instr :=
  match bits w 0 3 with
  | 0 => guardDec (zeroAt w 3 6) .reserved (.ok (.fcvtF32S64 (field w 15 6) (field w 9 6)))
  | 1 => guardDec (zeroAt w 3 6) .reserved (.ok (.fcvtF64S64 (field w 15 6) (field w 9 6)))
  | 2 => guardDec (zeroAt w 3 6) .reserved (.ok (.fcvtS64F32 (field w 15 6) (field w 9 6)))
  | 3 => guardDec (zeroAt w 3 6) .reserved (.ok (.fcvtS64F64 (field w 15 6) (field w 9 6)))
  | 4 => guardDec (zeroAt w 3 6) .reserved (.ok (.fcvtF64F32 (field w 15 6) (field w 9 6)))
  | 5 => guardDec (zeroAt w 3 6) .reserved (.ok (.fcvtF32F64 (field w 15 6) (field w 9 6)))
  | 6 => guardDec (zeroAt w 3 6) .reserved (.ok (.fcvtF32Bf16 (field w 15 6) (field w 9 6)))
  | _ => guardDec (zeroAt w 3 6) .reserved (.ok (.fcvtBf16F32 (field w 15 6) (field w 9 6)))

/-- Major 0x1C (R74). -/
def decVarithF32 (w : Nat) : Except Illegal Instr :=
  match bits w 0 3 with
  | 0 => .ok (.vaddF32 (field w 16 5) (field w 11 5) (field w 6 5) (field w 3 3))
  | 1 => .ok (.vsubF32 (field w 16 5) (field w 11 5) (field w 6 5) (field w 3 3))
  | 2 => .ok (.vmulF32 (field w 16 5) (field w 11 5) (field w 6 5) (field w 3 3))
  | 3 => guardDec (decide ((field w 16 5).toNat < 28)) .specifier (.ok (.vfmaF32 (field w 16 5) (field w 11 5) (field w 6 5) (field w 3 3)))
  | 4 => .ok (.vminF32 (field w 16 5) (field w 11 5) (field w 6 5) (field w 3 3))
  | 5 => .ok (.vmaxF32 (field w 16 5) (field w 11 5) (field w 6 5) (field w 3 3))
  | 6 => guardDec (decide ((field w 16 5).toNat < 28)) .specifier (.ok (.vfmsF32 (field w 16 5) (field w 11 5) (field w 6 5) (field w 3 3)))
  | _ => guardDec (zeroAt w 6 5) .reserved (.ok (.vabsF32 (field w 16 5) (field w 11 5) (field w 3 3)))

/-- Major 0x1D (R74). -/
def decVarithBf16 (w : Nat) : Except Illegal Instr :=
  match bits w 0 3 with
  | 0 => .ok (.vaddBf16 (field w 16 5) (field w 11 5) (field w 6 5) (field w 3 3))
  | 1 => .ok (.vsubBf16 (field w 16 5) (field w 11 5) (field w 6 5) (field w 3 3))
  | 2 => .ok (.vmulBf16 (field w 16 5) (field w 11 5) (field w 6 5) (field w 3 3))
  | 3 => guardDec (decide ((field w 16 5).toNat < 28)) .specifier (.ok (.vfmaBf16 (field w 16 5) (field w 11 5) (field w 6 5) (field w 3 3)))
  | 4 => .ok (.vminBf16 (field w 16 5) (field w 11 5) (field w 6 5) (field w 3 3))
  | 5 => .ok (.vmaxBf16 (field w 16 5) (field w 11 5) (field w 6 5) (field w 3 3))
  | 6 => guardDec (decide ((field w 16 5).toNat < 28)) .specifier (.ok (.vfmsBf16 (field w 16 5) (field w 11 5) (field w 6 5) (field w 3 3)))
  | _ => guardDec (zeroAt w 6 5) .reserved (.ok (.vabsBf16 (field w 16 5) (field w 11 5) (field w 3 3)))

/-- Major 0x1E (R74). -/
def decVarithS32 (w : Nat) : Except Illegal Instr :=
  match bits w 0 3 with
  | 0 => .ok (.vaddS32 (field w 16 5) (field w 11 5) (field w 6 5) (field w 3 3))
  | 1 => .ok (.vsubS32 (field w 16 5) (field w 11 5) (field w 6 5) (field w 3 3))
  | 2 => .ok (.vmulS32 (field w 16 5) (field w 11 5) (field w 6 5) (field w 3 3))
  | 3 => guardDec (decide ((field w 16 5).toNat < 28)) .specifier (.ok (.vmacS32 (field w 16 5) (field w 11 5) (field w 6 5) (field w 3 3)))
  | 4 => .ok (.vminsS32 (field w 16 5) (field w 11 5) (field w 6 5) (field w 3 3))
  | 5 => .ok (.vmaxsS32 (field w 16 5) (field w 11 5) (field w 6 5) (field w 3 3))
  | 6 => .ok (.vminzS32 (field w 16 5) (field w 11 5) (field w 6 5) (field w 3 3))
  | _ => .ok (.vmaxzS32 (field w 16 5) (field w 11 5) (field w 6 5) (field w 3 3))

/-- Major 0x1F (R74). -/
def decVlogic (w : Nat) : Except Illegal Instr :=
  match bits w 0 3 with
  | 0 => .ok (.vand (field w 16 5) (field w 11 5) (field w 6 5) (field w 3 3))
  | 1 => .ok (.vor (field w 16 5) (field w 11 5) (field w 6 5) (field w 3 3))
  | 2 => .ok (.vxor (field w 16 5) (field w 11 5) (field w 6 5) (field w 3 3))
  | 3 => .ok (.vandn (field w 16 5) (field w 11 5) (field w 6 5) (field w 3 3))
  | 4 => .ok (.vshl (field w 16 5) (field w 11 5) (field w 6 5) (field w 3 3))
  | 5 => .ok (.vshr (field w 16 5) (field w 11 5) (field w 6 5) (field w 3 3))
  | 6 => .ok (.vsar (field w 16 5) (field w 11 5) (field w 6 5) (field w 3 3))
  | _ => .ok (.vsel (field w 16 5) (field w 11 5) (field w 6 5) (field w 3 3))

/-- Major 0x20 (R74). -/
def decVspecial (w : Nat) : Except Illegal Instr :=
  match bits w 0 3 with
  | 0 => guardDec (zeroAt w 6 5) .reserved (.ok (.vrcp (field w 16 5) (field w 11 5) (field w 3 3)))
  | 1 => guardDec (zeroAt w 6 5) .reserved (.ok (.vrsq (field w 16 5) (field w 11 5) (field w 3 3)))
  | 2 => guardDec (zeroAt w 6 5) .reserved (.ok (.vsqrt (field w 16 5) (field w 11 5) (field w 3 3)))
  | 3 => guardDec (zeroAt w 6 5) .reserved (.ok (.vex2 (field w 16 5) (field w 11 5) (field w 3 3)))
  | 4 => guardDec (zeroAt w 6 5) .reserved (.ok (.vlg2 (field w 16 5) (field w 11 5) (field w 3 3)))
  | 5 => .ok (.vdiv (field w 16 5) (field w 11 5) (field w 6 5) (field w 3 3))
  | 6 => guardDec (zeroAt w 6 5) .reserved (.ok (.vfloor (field w 16 5) (field w 11 5) (field w 3 3)))
  | _ => guardDec (zeroAt w 6 5) .reserved (.ok (.vround (field w 16 5) (field w 11 5) (field w 3 3)))

/-- Major 0x21 (R74). -/
def decVcmp (w : Nat) : Except Illegal Instr :=
  match bits w 0 3 with
  | 0 => guardDec (zeroAt w 19 2) .reserved (.ok (.vceqF32 (field w 16 3) (field w 11 5) (field w 6 5) (field w 3 3)))
  | 1 => guardDec (zeroAt w 19 2) .reserved (.ok (.vcltF32 (field w 16 3) (field w 11 5) (field w 6 5) (field w 3 3)))
  | 2 => guardDec (zeroAt w 19 2) .reserved (.ok (.vcleF32 (field w 16 3) (field w 11 5) (field w 6 5) (field w 3 3)))
  | 3 => guardDec (zeroAt w 19 2) .reserved (.ok (.vcunF32 (field w 16 3) (field w 11 5) (field w 6 5) (field w 3 3)))
  | 4 => guardDec (zeroAt w 19 2) .reserved (.ok (.vceqS32 (field w 16 3) (field w 11 5) (field w 6 5) (field w 3 3)))
  | 5 => guardDec (zeroAt w 19 2) .reserved (.ok (.vcltS32 (field w 16 3) (field w 11 5) (field w 6 5) (field w 3 3)))
  | 6 => guardDec (zeroAt w 19 2) .reserved (.ok (.vcleS32 (field w 16 3) (field w 11 5) (field w 6 5) (field w 3 3)))
  | _ => guardDec (zeroAt w 19 2) .reserved (.ok (.vcltzS32 (field w 16 3) (field w 11 5) (field w 6 5) (field w 3 3)))

/-- Major 0x22 (R74). Bits [4:3] of a p or c field that are not 0 are reported as RESERVED; R150 names no reason (DESIGN CHOICE, log
76). -/
def decVpred (w : Nat) : Except Illegal Instr :=
  match bits w 0 3 with
  | 0 => guardDec (zeroAt w 3 3 && zeroAt w 9 2 && zeroAt w 14 2 && zeroAt w 19 2) .reserved (.ok (.pand (field w 16 3) (field w 11 3) (field w 6 3)))
  | 1 => guardDec (zeroAt w 3 3 && zeroAt w 9 2 && zeroAt w 14 2 && zeroAt w 19 2) .reserved (.ok (.por (field w 16 3) (field w 11 3) (field w 6 3)))
  | 2 => guardDec (zeroAt w 3 3 && zeroAt w 9 2 && zeroAt w 14 2 && zeroAt w 19 2) .reserved (.ok (.pxor (field w 16 3) (field w 11 3) (field w 6 3)))
  | 3 => guardDec (zeroAt w 3 3 && zeroAt w 9 2 && zeroAt w 14 2 && zeroAt w 19 2) .reserved (.ok (.pandn (field w 16 3) (field w 11 3) (field w 6 3)))
  | 4 => guardDec (zeroAt w 3 8 && zeroAt w 14 2 && zeroAt w 19 2) .reserved (.ok (.pnot (field w 16 3) (field w 11 3)))
  | 5 => guardDec (zeroAt w 6 5 && zeroAt w 14 2 && zeroAt w 19 2) .reserved (.ok (.pany (field w 16 3) (field w 11 3) (field w 3 3)))
  | 6 => guardDec (zeroAt w 6 5 && zeroAt w 14 2 && zeroAt w 19 2) .reserved (.ok (.pall (field w 16 3) (field w 11 3) (field w 3 3)))
  | _ => guardDec (zeroAt w 6 5 && zeroAt w 14 2) .reserved (.ok (.pcnt (field w 16 5) (field w 11 3) (field w 3 3)))

/-- Major 0x23 (R74). -/
def decVreduce (w : Nat) : Except Illegal Instr :=
  match bits w 0 3 with
  | 0 => guardDec (zeroAt w 6 5) .reserved (.ok (.vrsumF32 (field w 16 5) (field w 11 5) (field w 3 3)))
  | 1 => guardDec (zeroAt w 6 5) .reserved (.ok (.vrmaxF32 (field w 16 5) (field w 11 5) (field w 3 3)))
  | 2 => guardDec (zeroAt w 6 5) .reserved (.ok (.vrminF32 (field w 16 5) (field w 11 5) (field w 3 3)))
  | 3 => guardDec (zeroAt w 6 5) .reserved (.ok (.vrsumS32 (field w 16 5) (field w 11 5) (field w 3 3)))
  | 4 => guardDec (zeroAt w 6 5) .reserved (.ok (.vscanF32 (field w 16 5) (field w 11 5) (field w 3 3)))
  | 5 => guardDec (zeroAt w 6 5) .reserved (.ok (.vscanS32 (field w 16 5) (field w 11 5) (field w 3 3)))
  | 6 => guardDec (decide (1 ≤ (field w 6 5).toNat ∧ (field w 6 5).toNat ≤ 8)) .function (guardDec (decide ((field w 16 5).toNat < 28)) .specifier (.ok (.vtopk (field w 16 5) (field w 11 5) (field w 6 5) (field w 3 3))))
  | _ => guardDec (zeroAt w 6 5) .reserved (.ok (.vargmax (field w 16 5) (field w 11 5) (field w 3 3)))

/-- Major 0x24 (R74). -/
def decVperm (w : Nat) : Except Illegal Instr :=
  match bits w 0 3 with
  | 0 => .ok (.vbcast (field w 16 5) (field w 11 5) (field w 6 5) (field w 3 3))
  | 1 => .ok (.vperm (field w 16 5) (field w 11 5) (field w 6 5) (field w 3 3))
  | 2 => .ok (.vrot (field w 16 5) (field w 11 5) (field w 6 5) (field w 3 3))
  | 3 => .ok (.vslide (field w 16 5) (field w 11 5) (field w 6 5) (field w 3 3))
  | 4 => .ok (.vzip (field w 16 5) (field w 11 5) (field w 6 5) (field w 3 3))
  | 5 => .ok (.vunzip (field w 16 5) (field w 11 5) (field w 6 5) (field w 3 3))
  | 6 => guardDec (zeroAt w 6 5) .reserved (.ok (.vcompress (field w 16 5) (field w 11 5) (field w 3 3)))
  | _ => guardDec (zeroAt w 6 5) .reserved (.ok (.vexpand (field w 16 5) (field w 11 5) (field w 3 3)))

/-- Major 0x25 (R74). -/
def decVcvt (w : Nat) : Except Illegal Instr :=
  match bits w 0 3 with
  | 0 => guardDec (zeroAt w 6 5) .reserved (.ok (.vcvtF32S32 (field w 16 5) (field w 11 5) (field w 3 3)))
  | 1 => guardDec (zeroAt w 6 5) .reserved (.ok (.vcvtS32F32 (field w 16 5) (field w 11 5) (field w 3 3)))
  | 2 => .ok (.vcvtBf16F32 (field w 16 5) (field w 11 5) (field w 6 5) (field w 3 3))
  | 3 => guardDec (zeroAt w 6 5) .reserved (.ok (.vcvtF32Bf16l (field w 16 5) (field w 11 5) (field w 3 3)))
  | 4 => guardDec (zeroAt w 6 5) .reserved (.ok (.vcvtF32Bf16h (field w 16 5) (field w 11 5) (field w 3 3)))
  | 5 => .ok (.vcvtF16F32 (field w 16 5) (field w 11 5) (field w 6 5) (field w 3 3))
  | 6 => guardDec (zeroAt w 6 5) .reserved (.ok (.vcvtF32F16l (field w 16 5) (field w 11 5) (field w 3 3)))
  | _ => guardDec (zeroAt w 6 5) .reserved (.ok (.vcvtF32F16h (field w 16 5) (field w 11 5) (field w 3 3)))

/-- Major 0x26 (R74). -/
def decVkb (w : Nat) : Except Illegal Instr :=
  match bits w 0 3 with
  | 0 => guardDec (decide (2 ≤ (field w 6 5).toNat ∧ (field w 6 5).toNat ≤ 8)) .function (guardDec (zeroAt w 3 3) .reserved (.ok (.vkbpack (field w 16 5) (field w 11 5) (field w 6 5))))
  | 1 => guardDec (decide (2 ≤ (field w 6 5).toNat ∧ (field w 6 5).toNat ≤ 8)) .function (guardDec (zeroAt w 3 3) .reserved (.ok (.vkbunpack (field w 16 5) (field w 11 5) (field w 6 5))))
  | 2 => guardDec (decide (2 ≤ (field w 6 5).toNat ∧ (field w 6 5).toNat ≤ 8)) .function (guardDec (zeroAt w 3 3) .reserved (.ok (.vkbscale (field w 16 5) (field w 11 5) (field w 6 5))))
  | _ => .error .function

/-- Major 0x27 (R74). -/
def decVxfer (w : Nat) : Except Illegal Instr :=
  match bits w 0 3 with
  | 0 => guardDec (zeroAt w 6 5) .reserved (.ok (.vmov (field w 16 5) (field w 11 5) (field w 3 3)))
  | 1 => guardDec (zeroAt w 6 5) .reserved (.ok (.vfill (field w 16 5) (field w 11 5) (field w 3 3)))
  | 2 => guardDec (decide ((field w 16 5).toNat < 28)) .specifier (.ok (.vins (field w 16 5) (field w 11 5) (field w 6 5) (field w 3 3)))
  | 3 => guardDec (zeroAt w 3 3) .reserved (.ok (.vext (field w 16 5) (field w 11 5) (field w 6 5)))
  | 4 => guardDec (zeroAt w 6 5) .reserved (guardDec (bits w 13 3 == 7) .specifier (.ok (.vqpk (field w 16 5) (field w 11 2) (field w 3 3))))
  | 5 => guardDec (zeroAt w 3 8) .reserved (guardDec (bits w 13 3 == 7) .specifier (.ok (.vqcnt (field w 16 5) (field w 11 2))))
  | 6 => guardDec (zeroAt w 3 8 && zeroAt w 16 5) .reserved (guardDec (bits w 13 3 == 7) .specifier (.ok (.vqclr (field w 11 2))))
  | _ => guardDec (zeroAt w 6 10) .reserved (.ok (.vlaneid (field w 16 5) (field w 3 3)))

/-- Major 0x28 (R74). -/
def decVld (w : Nat) : Except Illegal Instr :=
  .ok (.vld (field w 16 5) (field w 12 4) (field w 11 1) (field w 8 3) (field w 6 2) (field w 0 6))

/-- Major 0x29 (R74). -/
def decVst (w : Nat) : Except Illegal Instr :=
  .ok (.vst (field w 16 5) (field w 12 4) (field w 11 1) (field w 8 3) (field w 6 2) (field w 0 6))

/-- Major 0x2A (R74). -/
def decVgather (w : Nat) : Except Illegal Instr :=
  match bits w 0 3 with
  | 0 => guardDec (zeroAt w 15 1) .reserved (.ok (.vgth32 (field w 16 5) (field w 11 4) (field w 6 5) (field w 3 3)))
  | 1 => guardDec (zeroAt w 15 1) .reserved (.ok (.vsct32 (field w 16 5) (field w 11 4) (field w 6 5) (field w 3 3)))
  | 2 => guardDec (zeroAt w 15 1) .reserved (.ok (.vgth16 (field w 16 5) (field w 11 4) (field w 6 5) (field w 3 3)))
  | 3 => guardDec (zeroAt w 15 1) .reserved (.ok (.vsct16 (field w 16 5) (field w 11 4) (field w 6 5) (field w 3 3)))
  | 4 => guardDec (zeroAt w 15 1) .reserved (.ok (.vsctaddF32 (field w 16 5) (field w 11 4) (field w 6 5) (field w 3 3)))
  | 5 => guardDec (zeroAt w 15 1) .reserved (.ok (.vsctaddS32 (field w 16 5) (field w 11 4) (field w 6 5) (field w 3 3)))
  | _ => .error .function

/-- Major 0x2B (R74). -/
def decQops (w : Nat) : Except Illegal Instr :=
  match bits w 0 3 with
  | 0 => guardDec (zeroAt w 3 6) .reserved (guardDec (bits w 13 2 == 3) .specifier (.ok (.qpk (field w 15 6) (field w 9 4))))
  | 1 => guardDec (zeroAt w 3 6) .reserved (guardDec (bits w 13 2 == 3) .specifier (.ok (.qcnt (field w 15 6) (field w 9 4))))
  | 2 => guardDec (zeroAt w 3 6 && zeroAt w 15 6) .reserved (guardDec (bits w 13 2 == 3) .specifier (.ok (.qclr (field w 9 4))))
  | 3 => guardDec (bits w 13 2 == 3) .specifier (.ok (.qbind (field w 15 6) (field w 9 4) (field w 3 6)))
  | 4 => guardDec (zeroAt w 3 6) .reserved (guardDec (bits w 13 2 == 3) .specifier (.ok (.qunbind (field w 15 6) (field w 9 4))))
  | _ => .error .function

/-- Major 0x2C (R74). -/
def decMcfg (w : Nat) : Except Illegal Instr :=
  match bits w 0 6 with
  | 0 => guardDec (zeroAt w 13 8) .reserved (.ok (.mfmt (field w 12 1) (field w 6 6)))
  | 1 => guardDec (zeroAt w 9 3 && zeroAt w 17 1) .reserved (guardDec (bits w 14 3 == 7) .specifier (.ok (.mdrain (field w 18 3) (field w 12 2) (field w 6 3))))
  | 2 => guardDec (zeroAt w 6 6 && zeroAt w 15 3) .reserved (.ok (.mzero (field w 18 3) (field w 12 3)))
  | 3 => guardDec (zeroAt w 7 5 && zeroAt w 18 3) .reserved (.ok (.mstat (field w 12 6) (field w 6 1)))
  | _ => .error .function

/-- Major 0x2D (R74). -/
def decMma (w : Nat) : Except Illegal Instr :=
  guardDec (decide ((field w 4 3).toNat < 3)) .function (guardDec (zeroAt w 0 4) .reserved (.ok (.mma (field w 18 3) (field w 15 3) (field w 11 4) (field w 7 4) (field w 4 3))))

/-- Major 0x2E (R74). -/
def decMrd (w : Nat) : Except Illegal Instr :=
  match bits w 0 6 with
  | 0 => guardDec (zeroAt w 17 1) .reserved (.ok (.mrdv (field w 18 3) (field w 12 5) (field w 6 6)))
  | 1 => guardDec (zeroAt w 17 1) .reserved (.ok (.mrdq (field w 18 3) (field w 12 5) (field w 6 6)))
  | 2 => guardDec (zeroAt w 15 3) .reserved (.ok (.mstF32 (field w 18 3) (field w 12 3) (field w 6 6)))
  | 3 => guardDec (zeroAt w 15 3) .reserved (.ok (.mstBf16 (field w 18 3) (field w 12 3) (field w 6 6)))
  | 4 => guardDec (zeroAt w 15 3) .reserved (.ok (.mstKb (field w 18 3) (field w 12 3) (field w 6 6)))
  | 5 => guardDec (zeroAt w 17 1) .reserved (.ok (.mwrv (field w 18 3) (field w 12 5) (field w 6 6)))
  | _ => .error .function

/-- Major 0x2F (R74). -/
def decOps (w : Nat) : Except Illegal Instr :=
  match bits w 0 6 with
  | 0 => guardDec (zeroAt w 18 3) .reserved (.ok (.oclaim (field w 12 6) (field w 6 6)))
  | 1 => guardDec (zeroAt w 18 3) .reserved (.ok (.orelease (field w 12 6) (field w 6 6)))
  | 2 => .ok (.oload (field w 18 3) (field w 12 6) (field w 6 6))
  | 3 => .ok (.ofill (field w 18 3) (field w 12 6) (field w 6 6))
  | 4 => guardDec (zeroAt w 18 3) .reserved (.ok (.ostat (field w 12 6) (field w 6 6)))
  | _ => .error .function

/-- Major 0x32 (R74). -/
noncomputable def decRing (w : Nat) : Except Illegal Instr :=
  match bits w 0 6 with
  | 0 => guardDec (bits w 17 1 == 0 && bits w 12 1 == 0) .specifier (.ok (.wrset (field w 18 3) (field w 13 4) (field w 6 6)))
  | 1 => .ok (.wradv (field w 18 3) (field w 12 6) (field w 6 6))
  | 2 => guardDec (zeroAt w 18 3) .reserved (.ok (.wrstat (field w 12 6) (field w 6 6)))
  | 3 => guardDec (zeroAt w 6 6) .reserved (.ok (.wrfree (field w 18 3) (field w 12 6)))
  | 4 => guardDec (zeroAt w 17 4) .reserved (guardDec (bits w 14 3 == 7) .specifier (.ok (.wrbind (field w 12 2) (field w 6 6))))
  | 5 => .ok (.wrout (field w 18 3) (field w 12 6) (field w 6 6))
  | 6 => guardDec (zeroAt w 6 6) .reserved (.ok (.wrflush (field w 18 3) (field w 12 6)))
  | _ => .error .function

/-- Major 0x33 (R74). -/
noncomputable def decWin (w : Nat) : Except Illegal Instr :=
  match bits w 0 6 with
  | 0 => .ok (.wnew (field w 18 3) (field w 12 6) (field w 6 6))
  | 1 => guardDec (zeroAt w 6 6) .reserved (.ok (.wfree (field w 18 3) (field w 12 6)))
  | 2 => .ok (.wfence (field w 18 3) (field w 12 6) (field w 6 6))
  | 3 => .ok (.wpost (field w 18 3) (field w 12 6) (field w 6 6))
  | 4 => .ok (.wstart (field w 18 3) (field w 12 6) (field w 6 6))
  | 5 => guardDec (zeroAt w 6 6) .reserved (.ok (.wcompl (field w 18 3) (field w 12 6)))
  | 6 => guardDec (zeroAt w 6 6) .reserved (.ok (.wwait (field w 18 3) (field w 12 6)))
  | 7 => .ok (.wlock (field w 18 3) (field w 12 6) (field w 6 6))
  | 8 => .ok (.wunlock (field w 18 3) (field w 12 6) (field w 6 6))
  | 9 => .ok (.wflush (field w 18 3) (field w 12 6) (field w 6 6))
  | 10 => guardDec (zeroAt w 18 3) .reserved (.ok (.wquery (field w 12 6) (field w 6 6)))
  | _ => .error .function

/-- Major 0x34 (R74). -/
noncomputable def decRma (w : Nat) : Except Illegal Instr :=
  match bits w 0 6 with
  | 0 => guardDec (bits w 11 1 == 0 && bits w 6 1 == 0) .specifier (.ok (.get (field w 18 3) (field w 12 6) (field w 7 4)))
  | 1 => guardDec (bits w 11 1 == 0 && bits w 6 1 == 0) .specifier (.ok (.put (field w 18 3) (field w 12 6) (field w 7 4)))
  | 2 => guardDec (bits w 11 1 == 0 && bits w 6 1 == 0) .specifier (.ok (.putm (field w 18 3) (field w 12 6) (field w 7 4)))
  | 3 => guardDec (bits w 11 1 == 0 && bits w 6 1 == 0) .specifier (.ok (.accAddf (field w 18 3) (field w 12 6) (field w 7 4)))
  | 4 => guardDec (bits w 11 1 == 0 && bits w 6 1 == 0) .specifier (.ok (.accAdds (field w 18 3) (field w 12 6) (field w 7 4)))
  | 5 => guardDec (bits w 11 1 == 0 && bits w 6 1 == 0) .specifier (.ok (.accFx (field w 18 3) (field w 12 6) (field w 7 4)))
  | 6 => guardDec (bits w 11 1 == 0 && bits w 6 1 == 0) .specifier (.ok (.accMaxf (field w 18 3) (field w 12 6) (field w 7 4)))
  | 7 => guardDec (bits w 11 1 == 0 && bits w 6 1 == 0) .specifier (.ok (.accMinf (field w 18 3) (field w 12 6) (field w 7 4)))
  | 8 => guardDec (bits w 11 1 == 0 && bits w 6 1 == 0) .specifier (.ok (.getacc (field w 18 3) (field w 12 6) (field w 7 4)))
  | 9 => guardDec (bits w 11 1 == 0 && bits w 6 1 == 0) .specifier (.ok (.rcas (field w 18 3) (field w 12 6) (field w 7 4)))
  | 10 => guardDec (bits w 11 1 == 0 && bits w 6 1 == 0) .specifier (.ok (.getro (field w 18 3) (field w 12 6) (field w 7 4)))
  | _ => .error .function

/-- Major 0x35 (R74). -/
noncomputable def decSort (w : Nat) : Except Illegal Instr :=
  match bits w 0 6 with
  | 0 => guardDec (zeroAt w 6 6) .reserved (.ok (.dispatch (field w 18 3) (field w 12 6)))
  | 1 => guardDec (zeroAt w 6 6) .reserved (.ok (.combine (field w 18 3) (field w 12 6)))
  | 2 => guardDec (zeroAt w 6 6) .reserved (.ok (.coll (field w 18 3) (field w 12 6)))
  | 3 => guardDec (zeroAt w 18 3) .reserved (.ok (.cstat (field w 12 6) (field w 6 6)))
  | 4 => guardDec (zeroAt w 6 6) .reserved (.ok (.ccancel (field w 18 3) (field w 12 6)))
  | _ => .error .function

/-- Major 0x38 (R74). -/
noncomputable def decAmo (w : Nat) : Except Illegal Instr :=
  match bits w 0 3 with
  | 0 => .ok (.aadd (field w 15 6) (field w 9 6) (field w 3 6))
  | 1 => .ok (.aand (field w 15 6) (field w 9 6) (field w 3 6))
  | 2 => .ok (.aor (field w 15 6) (field w 9 6) (field w 3 6))
  | 3 => .ok (.axchg (field w 15 6) (field w 9 6) (field w 3 6))
  | 4 => .ok (.amaxs (field w 15 6) (field w 9 6) (field w 3 6))
  | 5 => .ok (.amins (field w 15 6) (field w 9 6) (field w 3 6))
  | 6 => .ok (.aaddf (field w 15 6) (field w 9 6) (field w 3 6))
  | _ => .ok (.afx (field w 15 6) (field w 9 6) (field w 3 6))

/-- Major 0x39 (R74). -/
noncomputable def decSync (w : Nat) : Except Illegal Instr :=
  match bits w 0 3 with
  | 0 => guardDec (decide ((field w 15 6).toNat < 48)) .specifier (.ok (.acas (field w 15 6) (field w 9 6) (field w 3 6)))
  | 1 => .ok (.ahist (field w 15 6) (field w 9 6) (field w 3 6))
  | 2 => .ok (.barv (field w 15 6) (field w 9 6) (field w 3 6))
  | 3 => .ok (.barw (field w 15 6) (field w 9 6) (field w 3 6))
  | 4 => .ok (.barset (field w 15 6) (field w 9 6) (field w 3 6))
  | 5 => guardDec (zeroAt w 3 6) .reserved (.ok (.barq (field w 15 6) (field w 9 6)))
  | 6 => guardDec (zeroAt w 12 3) .reserved (.ok (.tlwait (field w 15 6) (field w 9 3) (field w 3 6)))
  | _ => guardDec (zeroAt w 3 6 && zeroAt w 12 3) .reserved (.ok (.tlrd (field w 15 6) (field w 9 3)))

/-- Major 0x3A (R74). -/
noncomputable def decTl (w : Nat) : Except Illegal Instr :=
  match bits w 0 3 with
  | 0 => guardDec (zeroAt w 12 3) .reserved (.ok (.tlwaitr (field w 15 6) (field w 9 3) (field w 3 6)))
  | 1 => guardDec (zeroAt w 3 6 && zeroAt w 12 3) .reserved (.ok (.tlrdi (field w 15 6) (field w 9 3)))
  | 2 => guardDec (zeroAt w 3 6 && zeroAt w 12 3) .reserved (.ok (.tlrdc (field w 15 6) (field w 9 3)))
  | 3 => guardDec (zeroAt w 3 6 && zeroAt w 12 3) .reserved (.ok (.tlrdv (field w 15 6) (field w 9 3)))
  | 4 => guardDec (zeroAt w 3 6 && zeroAt w 12 3) .reserved (guardDec (bits w 20 1 == 0 && bits w 15 1 == 0) .specifier (.ok (.tlerr (field w 16 4) (field w 9 3))))
  | 5 => guardDec (zeroAt w 3 6 && zeroAt w 15 6) .reserved (.ok (.bwph (field w 9 6)))
  | 6 => guardDec (zeroAt w 3 18) .reserved (.ok .wakew)
  | _ => .error .function

/-- Major 0x3B (R74). -/
noncomputable def decSys2 (w : Nat) : Except Illegal Instr :=
  match bits w 0 3 with
  | 0 => guardDec (zeroAt w 15 6) .reserved (.ok (.tlbinv (field w 9 6) (field w 3 6)))
  | 1 => guardDec (zeroAt w 3 18) .reserved (.ok .tlbsync)
  | 2 => guardDec (zeroAt w 15 6) .reserved (.ok (.rtcinv (field w 9 6) (field w 3 6)))
  | 3 => guardDec (zeroAt w 3 18) .reserved (.ok .rtcsync)
  | _ => .error .function

/-- Major 0x3C (R74). -/
noncomputable def decTask (w : Nat) : Except Illegal Instr :=
  match bits w 0 3 with
  | 0 => guardDec (zeroAt w 3 6 && zeroAt w 15 6) .reserved (.ok (.trun (field w 9 6)))
  | 1 => guardDec (zeroAt w 3 6 && zeroAt w 15 6) .reserved (.ok (.tchain (field w 9 6)))
  | 2 => guardDec (zeroAt w 3 6 && zeroAt w 15 6) .reserved (.ok (.tcond (field w 9 6)))
  | 3 => guardDec (zeroAt w 6 3) .reserved (.ok (.qpop (field w 15 6) (field w 9 6) (field w 3 3)))
  | 4 => guardDec (zeroAt w 6 3) .reserved (.ok (.qtry (field w 15 6) (field w 9 6) (field w 3 3)))
  | 5 => .ok (.qpush (field w 15 6) (field w 9 6) (field w 3 6))
  | 6 => .ok (.qcancel (field w 15 6) (field w 9 6) (field w 3 6))
  | _ => guardDec (zeroAt w 3 6) .reserved (.ok (.qthaw (field w 15 6) (field w 9 6)))

/-- Major 0x3D (R74). -/
noncomputable def decHeap (w : Nat) : Except Illegal Instr :=
  match bits w 0 3 with
  | 0 => .ok (.hpush (field w 15 6) (field w 9 6) (field w 3 6))
  | 1 => guardDec (zeroAt w 6 3) .reserved (.ok (.hpop (field w 15 6) (field w 9 6) (field w 3 3)))
  | 2 => .ok (.hadj (field w 15 6) (field w 9 6) (field w 3 6))
  | 3 => .ok (.hmax (field w 15 6) (field w 9 6) (field w 3 6))
  | 4 => .ok (.hres (field w 15 6) (field w 9 6) (field w 3 6))
  | 5 => .ok (.hdone (field w 15 6) (field w 9 6) (field w 3 6))
  | 6 => .ok (.hread (field w 15 6) (field w 9 6) (field w 3 6))
  | _ => .error .function

/-- Major 0x3E (R74). -/
noncomputable def decSystem (w : Nat) : Except Illegal Instr :=
  match bits w 0 3 with
  | 0 => .ok (.csrr (field w 15 6) (field w 3 12))
  | 1 => .ok (.csrw (field w 15 6) (field w 3 12))
  | 2 => guardDec (zeroAt w 3 18) .reserved (.ok .eret)
  | 3 => guardDec (zeroAt w 3 6 && zeroAt w 15 6) .reserved (.ok (.segenter (field w 9 6)))
  | 4 => guardDec (zeroAt w 15 6) .reserved (.ok (.segsealSeal (field w 9 6) (field w 3 6)))
  | 5 => .ok (.kslotQuery (field w 15 6) (field w 9 6) (field w 3 6))
  | 6 => guardDec (zeroAt w 3 6) .reserved (.ok (.scrub (field w 15 6) (field w 9 6)))
  | _ => guardDec (zeroAt w 18 3) .reserved (.ok (.pgmap (field w 15 3) (field w 9 6) (field w 3 6)))

/-- Major 0x3F (R74). -/
noncomputable def decExt (w : Nat) : Except Illegal Instr :=
  .ok (.ext (field w 0 21))

/-- The opcode map (R74, R75): the slot whose bits [26:21] and body stand in w, read without its frame. -/
noncomputable def decodeBody (w : Nat) : Except Illegal Instr :=
  match bits w 21 6 with
  | 0 => decMisc w
  | 1 => decAlu w
  | 2 => decShift w
  | 3 => decMulDiv w
  | 4 => decBitField w
  | 5 => decCmp w
  | 6 => decCLogic w
  | 7 => decSel w
  | 8 => decAddi w
  | 9 => decAndi w
  | 10 => decOri w
  | 11 => decXori w
  | 12 => decShiftImm w
  | 13 => decCmpImm w
  | 14 => decMovi w
  | 15 => decAdr w
  | 16 => decLd w
  | 17 => decSt w
  | 18 => decCache w
  | 19 => decLdx w
  | 20 => decBr w
  | 21 => decCall w
  | 22 => decCtrl w
  | 23 => decRpt w
  | 24 => decFp32 w
  | 25 => decFp64 w
  | 26 => decFcmp w
  | 27 => decFcvt w
  | 28 => decVarithF32 w
  | 29 => decVarithBf16 w
  | 30 => decVarithS32 w
  | 31 => decVlogic w
  | 32 => decVspecial w
  | 33 => decVcmp w
  | 34 => decVpred w
  | 35 => decVreduce w
  | 36 => decVperm w
  | 37 => decVcvt w
  | 38 => decVkb w
  | 39 => decVxfer w
  | 40 => decVld w
  | 41 => decVst w
  | 42 => decVgather w
  | 43 => decQops w
  | 44 => decMcfg w
  | 45 => decMma w
  | 46 => decMrd w
  | 47 => decOps w
  | 50 => decRing w
  | 51 => decWin w
  | 52 => decRma w
  | 53 => decSort w
  | 56 => decAmo w
  | 57 => decSync w
  | 58 => decTl w
  | 59 => decSys2 w
  | 60 => decTask w
  | 61 => decHeap w
  | 62 => decSystem w
  | 63 => decExt w
  | _ => .error .major

/-- A slot of a bundle: in slots 1 to 7 a guard of 1000 names "never" and is illegal before all else (R60, R68). -/
noncomputable def decodeSlot (slot w : Nat) : Except Illegal Instr :=
  if slot ≠ 0 ∧ bits w 27 4 = 8 then .error .never else decodeBody w

/-- The encoding of a word is unallocated: its major, or its function, mode, size code or sub-operation (R74, R75). -/
def unallocated (w : Nat) : Option Illegal :=
  let fn (ok : Bool) : Option Illegal := if ok then none else some .function
  match bits w 21 6 with
  | 0 => fn (decide (bits w 0 3 < 7) && (bits w 0 3 != 6 || decide (bits w 3 6 < 8)))
  | 1 => none
  | 2 => none
  | 3 => none
  | 4 => none
  | 5 => fn (decide (bits w 0 3 < 7))
  | 6 => fn (decide (bits w 0 3 < 6))
  | 7 => none
  | 8 => none
  | 9 => none
  | 10 => none
  | 11 => none
  | 12 => fn (decide (bits w 6 3 < 4))
  | 13 => none
  | 14 => none
  | 15 => none
  | 16 => fn (decide (bits w 7 3 ≠ 7))
  | 17 => fn (decide (bits w 7 3 < 4))
  | 18 => fn (decide (bits w 0 3 < 6) && (bits w 0 3 != 4 || decide (bits w 9 6 < 3)))
  | 19 => fn (decide (bits w 0 3 ≠ 7))
  | 20 => none
  | 21 => none
  | 22 => fn (decide (bits w 0 3 < 5))
  | 23 => none
  | 24 => none
  | 25 => none
  | 26 => none
  | 27 => none
  | 28 => none
  | 29 => none
  | 30 => none
  | 31 => none
  | 32 => none
  | 33 => none
  | 34 => none
  | 35 => fn ((bits w 0 3 != 6 || decide (1 ≤ bits w 6 5 ∧ bits w 6 5 ≤ 8)))
  | 36 => none
  | 37 => none
  | 38 => fn (decide (bits w 0 3 < 3) && (bits w 0 3 != 0 || decide (2 ≤ bits w 6 5 ∧ bits w 6 5 ≤ 8)) && (bits w 0 3 != 1 || decide (2 ≤ bits w 6 5 ∧ bits w 6 5 ≤ 8)) && (bits w 0 3 != 2 || decide (2 ≤ bits w 6 5 ∧ bits w 6 5 ≤ 8)))
  | 39 => none
  | 40 => none
  | 41 => none
  | 42 => fn (decide (bits w 0 3 < 6))
  | 43 => fn (decide (bits w 0 3 < 5))
  | 44 => fn (decide (bits w 0 6 < 4))
  | 45 => fn (decide (bits w 4 3 < 3))
  | 46 => fn (decide (bits w 0 6 < 6))
  | 47 => fn (decide (bits w 0 6 < 5))
  | 50 => fn (decide (bits w 0 6 < 7))
  | 51 => fn (decide (bits w 0 6 < 11))
  | 52 => fn (decide (bits w 0 6 < 11))
  | 53 => fn (decide (bits w 0 6 < 5))
  | 56 => none
  | 57 => none
  | 58 => fn (decide (bits w 0 3 < 7))
  | 59 => fn (decide (bits w 0 3 < 4))
  | 60 => none
  | 61 => fn (decide (bits w 0 3 < 7))
  | 62 => none
  | 63 => none
  | _ => some .major

/-- The 32-bit word of an instruction, its frame fields S and G zero (R59, R69); none for an agent step, which has no encoding. -/
def encode : Instr → Option Nat
  | .nop => some (0x00000000)
  | .yield => some (0x00000001)
  | .exit => some (0x00000002)
  | .brk n => some (0x00000003 + n.toNat * 8)
  | .trap n => some (0x00000004 + n.toNat * 8)
  | .rdcyc d => some (0x00000005 + d.toNat * 32768)
  | .rdid d n => some (0x00000006 + d.toNat * 32768 + n.toNat * 8)
  | .add d a b => some (0x00200000 + d.toNat * 32768 + a.toNat * 512 + b.toNat * 8)
  | .sub d a b => some (0x00200001 + d.toNat * 32768 + a.toNat * 512 + b.toNat * 8)
  | .and d a b => some (0x00200002 + d.toNat * 32768 + a.toNat * 512 + b.toNat * 8)
  | .or d a b => some (0x00200003 + d.toNat * 32768 + a.toNat * 512 + b.toNat * 8)
  | .xor d a b => some (0x00200004 + d.toNat * 32768 + a.toNat * 512 + b.toNat * 8)
  | .andn d a b => some (0x00200005 + d.toNat * 32768 + a.toNat * 512 + b.toNat * 8)
  | .orn d a b => some (0x00200006 + d.toNat * 32768 + a.toNat * 512 + b.toNat * 8)
  | .abd d a b => some (0x00200007 + d.toNat * 32768 + a.toNat * 512 + b.toNat * 8)
  | .shl d a b => some (0x00400000 + d.toNat * 32768 + a.toNat * 512 + b.toNat * 8)
  | .shr d a b => some (0x00400001 + d.toNat * 32768 + a.toNat * 512 + b.toNat * 8)
  | .sar d a b => some (0x00400002 + d.toNat * 32768 + a.toNat * 512 + b.toNat * 8)
  | .rol d a b => some (0x00400003 + d.toNat * 32768 + a.toNat * 512 + b.toNat * 8)
  | .clz d a => some (0x00400004 + d.toNat * 32768 + a.toNat * 512)
  | .ctz d a => some (0x00400005 + d.toNat * 32768 + a.toNat * 512)
  | .popc d a => some (0x00400006 + d.toNat * 32768 + a.toNat * 512)
  | .brev d a => some (0x00400007 + d.toNat * 32768 + a.toNat * 512)
  | .mul d a b => some (0x00600000 + d.toNat * 32768 + a.toNat * 512 + b.toNat * 8)
  | .mulhs d a b => some (0x00600001 + d.toNat * 32768 + a.toNat * 512 + b.toNat * 8)
  | .mulhz d a b => some (0x00600002 + d.toNat * 32768 + a.toNat * 512 + b.toNat * 8)
  | .divs d a b => some (0x00600003 + d.toNat * 32768 + a.toNat * 512 + b.toNat * 8)
  | .divz d a b => some (0x00600004 + d.toNat * 32768 + a.toNat * 512 + b.toNat * 8)
  | .rems d a b => some (0x00600005 + d.toNat * 32768 + a.toNat * 512 + b.toNat * 8)
  | .remz d a b => some (0x00600006 + d.toNat * 32768 + a.toNat * 512 + b.toNat * 8)
  | .mulw d a b => some (0x00600007 + d.toNat * 32768 + a.toNat * 512 + b.toNat * 8)
  | .mins d a b => some (0x00800000 + d.toNat * 32768 + a.toNat * 512 + b.toNat * 8)
  | .maxs d a b => some (0x00800001 + d.toNat * 32768 + a.toNat * 512 + b.toNat * 8)
  | .minz d a b => some (0x00800002 + d.toNat * 32768 + a.toNat * 512 + b.toNat * 8)
  | .maxz d a b => some (0x00800003 + d.toNat * 32768 + a.toNat * 512 + b.toNat * 8)
  | .bfx d a b => some (0x00800004 + d.toNat * 32768 + a.toNat * 512 + b.toNat * 8)
  | .bfi d a b => some (0x00800005 + d.toNat * 32768 + a.toNat * 512 + b.toNat * 8)
  | .sext d a b => some (0x00800006 + d.toNat * 32768 + a.toNat * 512 + b.toNat * 8)
  | .zext d a b => some (0x00800007 + d.toNat * 32768 + a.toNat * 512 + b.toNat * 8)
  | .ceq c a b => some (0x00A00000 + c.toNat * 262144 + a.toNat * 512 + b.toNat * 8)
  | .cne c a b => some (0x00A00001 + c.toNat * 262144 + a.toNat * 512 + b.toNat * 8)
  | .clts c a b => some (0x00A00002 + c.toNat * 262144 + a.toNat * 512 + b.toNat * 8)
  | .cles c a b => some (0x00A00003 + c.toNat * 262144 + a.toNat * 512 + b.toNat * 8)
  | .cltz c a b => some (0x00A00004 + c.toNat * 262144 + a.toNat * 512 + b.toNat * 8)
  | .clez c a b => some (0x00A00005 + c.toNat * 262144 + a.toNat * 512 + b.toNat * 8)
  | .ctst c a b => some (0x00A00006 + c.toNat * 262144 + a.toNat * 512 + b.toNat * 8)
  | .cand d a b => some (0x00C00000 + d.toNat * 32768 + a.toNat * 512 + b.toNat * 8)
  | .cor d a b => some (0x00C00001 + d.toNat * 32768 + a.toNat * 512 + b.toNat * 8)
  | .cxor d a b => some (0x00C00002 + d.toNat * 32768 + a.toNat * 512 + b.toNat * 8)
  | .candn d a b => some (0x00C00003 + d.toNat * 32768 + a.toNat * 512 + b.toNat * 8)
  | .cmov d a => some (0x00C00004 + d.toNat * 32768 + a.toNat * 512)
  | .cget d a => some (0x00C00005 + d.toNat * 32768 + a.toNat * 512)
  | .sel d a b c => some (0x00E00000 + d.toNat * 32768 + a.toNat * 512 + b.toNat * 8 + c.toNat)
  | .addi d a imm => some (0x01000000 + d.toNat * 32768 + a.toNat * 512 + imm.toNat)
  | .andi d a imm => some (0x01200000 + d.toNat * 32768 + a.toNat * 512 + imm.toNat)
  | .ori d a imm => some (0x01400000 + d.toNat * 32768 + a.toNat * 512 + imm.toNat)
  | .xori d a imm => some (0x01600000 + d.toNat * 32768 + a.toNat * 512 + imm.toNat)
  | .shli d a k => some (0x01800000 + d.toNat * 32768 + a.toNat * 512 + k.toNat)
  | .shri d a k => some (0x01800040 + d.toNat * 32768 + a.toNat * 512 + k.toNat)
  | .sari d a k => some (0x01800080 + d.toNat * 32768 + a.toNat * 512 + k.toNat)
  | .roli d a k => some (0x018000C0 + d.toNat * 32768 + a.toNat * 512 + k.toNat)
  | .ceqi c a imm => some (0x01A00000 + c.toNat * 262144 + a.toNat * 512 + imm.toNat)
  | .cnei c a imm => some (0x01A08000 + c.toNat * 262144 + a.toNat * 512 + imm.toNat)
  | .cltsi c a imm => some (0x01A10000 + c.toNat * 262144 + a.toNat * 512 + imm.toNat)
  | .clesi c a imm => some (0x01A18000 + c.toNat * 262144 + a.toNat * 512 + imm.toNat)
  | .cltzi c a imm => some (0x01A20000 + c.toNat * 262144 + a.toNat * 512 + imm.toNat)
  | .clezi c a imm => some (0x01A28000 + c.toNat * 262144 + a.toNat * 512 + imm.toNat)
  | .cgtsi c a imm => some (0x01A30000 + c.toNat * 262144 + a.toNat * 512 + imm.toNat)
  | .cgtzi c a imm => some (0x01A38000 + c.toNat * 262144 + a.toNat * 512 + imm.toNat)
  | .movi d imm => some (0x01C00000 + d.toNat * 32768 + imm.toNat)
  | .adr d imm => some (0x01E00000 + d.toNat * 32768 + imm.toNat)
  | .ld d r u z o => some (0x02000000 + d.toNat * 32768 + r.toNat * 2048 + u.toNat * 1024 + z.toNat * 128 + o.toNat)
  | .st d r u z o => some (0x02200000 + d.toNat * 32768 + r.toNat * 2048 + u.toNat * 1024 + z.toNat * 128 + o.toNat)
  | .dclean a b => some (0x02400000 + a.toNat * 512 + b.toNat * 8)
  | .dinv a b => some (0x02400001 + a.toNat * 512 + b.toNat * 8)
  | .dflush a b => some (0x02400002 + a.toNat * 512 + b.toNat * 8)
  | .isync a b => some (0x02400003 + a.toNat * 512 + b.toNat * 8)
  | .fence a => some (0x02400004 + a.toNat * 512)
  | .pref a => some (0x02400005 + a.toNat * 512)
  | .ldx d a b z => some (0x02600000 + d.toNat * 32768 + a.toNat * 512 + b.toNat * 8 + z.toNat)
  | .br imm => some (0x02800000 + imm.toNat)
  | .call imm => some (0x02A00000 + imm.toNat)
  | .ret => some (0x02C00000)
  | .jr a => some (0x02C00001 + a.toNat * 512)
  | .callr a => some (0x02C00002 + a.toNat * 512)
  | .bru d a b => some (0x02C00003 + d.toNat * 32768 + a.toNat * 512 + b.toNat * 8)
  | .lbuf n a => some (0x02C00004 + n.toNat * 32768 + a.toNat * 512)
  | .rpt n x y inc1 inc2 => some (0x02E00000 + n.toNat * 4096 + x.toNat * 256 + y.toNat * 16 + inc1.toNat * 4 + inc2.toNat)
  | .faddF32 d a b => some (0x03000000 + d.toNat * 32768 + a.toNat * 512 + b.toNat * 8)
  | .fsubF32 d a b => some (0x03000001 + d.toNat * 32768 + a.toNat * 512 + b.toNat * 8)
  | .fmulF32 d a b => some (0x03000002 + d.toNat * 32768 + a.toNat * 512 + b.toNat * 8)
  | .fdivF32 d a b => some (0x03000003 + d.toNat * 32768 + a.toNat * 512 + b.toNat * 8)
  | .fsqrtF32 d a => some (0x03000004 + d.toNat * 32768 + a.toNat * 512)
  | .fminF32 d a b => some (0x03000005 + d.toNat * 32768 + a.toNat * 512 + b.toNat * 8)
  | .fmaxF32 d a b => some (0x03000006 + d.toNat * 32768 + a.toNat * 512 + b.toNat * 8)
  | .ffmaF32 d a b => some (0x03000007 + d.toNat * 32768 + a.toNat * 512 + b.toNat * 8)
  | .faddF64 d a b => some (0x03200000 + d.toNat * 32768 + a.toNat * 512 + b.toNat * 8)
  | .fsubF64 d a b => some (0x03200001 + d.toNat * 32768 + a.toNat * 512 + b.toNat * 8)
  | .fmulF64 d a b => some (0x03200002 + d.toNat * 32768 + a.toNat * 512 + b.toNat * 8)
  | .fdivF64 d a b => some (0x03200003 + d.toNat * 32768 + a.toNat * 512 + b.toNat * 8)
  | .fsqrtF64 d a => some (0x03200004 + d.toNat * 32768 + a.toNat * 512)
  | .fminF64 d a b => some (0x03200005 + d.toNat * 32768 + a.toNat * 512 + b.toNat * 8)
  | .fmaxF64 d a b => some (0x03200006 + d.toNat * 32768 + a.toNat * 512 + b.toNat * 8)
  | .ffmaF64 d a b => some (0x03200007 + d.toNat * 32768 + a.toNat * 512 + b.toNat * 8)
  | .feqF32 c a b => some (0x03400000 + c.toNat * 262144 + a.toNat * 512 + b.toNat * 8)
  | .fltF32 c a b => some (0x03400001 + c.toNat * 262144 + a.toNat * 512 + b.toNat * 8)
  | .fleF32 c a b => some (0x03400002 + c.toNat * 262144 + a.toNat * 512 + b.toNat * 8)
  | .funF32 c a b => some (0x03400003 + c.toNat * 262144 + a.toNat * 512 + b.toNat * 8)
  | .feqF64 c a b => some (0x03400004 + c.toNat * 262144 + a.toNat * 512 + b.toNat * 8)
  | .fltF64 c a b => some (0x03400005 + c.toNat * 262144 + a.toNat * 512 + b.toNat * 8)
  | .fleF64 c a b => some (0x03400006 + c.toNat * 262144 + a.toNat * 512 + b.toNat * 8)
  | .funF64 c a b => some (0x03400007 + c.toNat * 262144 + a.toNat * 512 + b.toNat * 8)
  | .fcvtF32S64 d a => some (0x03600000 + d.toNat * 32768 + a.toNat * 512)
  | .fcvtF64S64 d a => some (0x03600001 + d.toNat * 32768 + a.toNat * 512)
  | .fcvtS64F32 d a => some (0x03600002 + d.toNat * 32768 + a.toNat * 512)
  | .fcvtS64F64 d a => some (0x03600003 + d.toNat * 32768 + a.toNat * 512)
  | .fcvtF64F32 d a => some (0x03600004 + d.toNat * 32768 + a.toNat * 512)
  | .fcvtF32F64 d a => some (0x03600005 + d.toNat * 32768 + a.toNat * 512)
  | .fcvtF32Bf16 d a => some (0x03600006 + d.toNat * 32768 + a.toNat * 512)
  | .fcvtBf16F32 d a => some (0x03600007 + d.toNat * 32768 + a.toNat * 512)
  | .vaddF32 d a b p => some (0x03800000 + d.toNat * 65536 + a.toNat * 2048 + b.toNat * 64 + p.toNat * 8)
  | .vsubF32 d a b p => some (0x03800001 + d.toNat * 65536 + a.toNat * 2048 + b.toNat * 64 + p.toNat * 8)
  | .vmulF32 d a b p => some (0x03800002 + d.toNat * 65536 + a.toNat * 2048 + b.toNat * 64 + p.toNat * 8)
  | .vfmaF32 d a b p => some (0x03800003 + d.toNat * 65536 + a.toNat * 2048 + b.toNat * 64 + p.toNat * 8)
  | .vminF32 d a b p => some (0x03800004 + d.toNat * 65536 + a.toNat * 2048 + b.toNat * 64 + p.toNat * 8)
  | .vmaxF32 d a b p => some (0x03800005 + d.toNat * 65536 + a.toNat * 2048 + b.toNat * 64 + p.toNat * 8)
  | .vfmsF32 d a b p => some (0x03800006 + d.toNat * 65536 + a.toNat * 2048 + b.toNat * 64 + p.toNat * 8)
  | .vabsF32 d a p => some (0x03800007 + d.toNat * 65536 + a.toNat * 2048 + p.toNat * 8)
  | .vaddBf16 d a b p => some (0x03A00000 + d.toNat * 65536 + a.toNat * 2048 + b.toNat * 64 + p.toNat * 8)
  | .vsubBf16 d a b p => some (0x03A00001 + d.toNat * 65536 + a.toNat * 2048 + b.toNat * 64 + p.toNat * 8)
  | .vmulBf16 d a b p => some (0x03A00002 + d.toNat * 65536 + a.toNat * 2048 + b.toNat * 64 + p.toNat * 8)
  | .vfmaBf16 d a b p => some (0x03A00003 + d.toNat * 65536 + a.toNat * 2048 + b.toNat * 64 + p.toNat * 8)
  | .vminBf16 d a b p => some (0x03A00004 + d.toNat * 65536 + a.toNat * 2048 + b.toNat * 64 + p.toNat * 8)
  | .vmaxBf16 d a b p => some (0x03A00005 + d.toNat * 65536 + a.toNat * 2048 + b.toNat * 64 + p.toNat * 8)
  | .vfmsBf16 d a b p => some (0x03A00006 + d.toNat * 65536 + a.toNat * 2048 + b.toNat * 64 + p.toNat * 8)
  | .vabsBf16 d a p => some (0x03A00007 + d.toNat * 65536 + a.toNat * 2048 + p.toNat * 8)
  | .vaddS32 d a b p => some (0x03C00000 + d.toNat * 65536 + a.toNat * 2048 + b.toNat * 64 + p.toNat * 8)
  | .vsubS32 d a b p => some (0x03C00001 + d.toNat * 65536 + a.toNat * 2048 + b.toNat * 64 + p.toNat * 8)
  | .vmulS32 d a b p => some (0x03C00002 + d.toNat * 65536 + a.toNat * 2048 + b.toNat * 64 + p.toNat * 8)
  | .vmacS32 d a b p => some (0x03C00003 + d.toNat * 65536 + a.toNat * 2048 + b.toNat * 64 + p.toNat * 8)
  | .vminsS32 d a b p => some (0x03C00004 + d.toNat * 65536 + a.toNat * 2048 + b.toNat * 64 + p.toNat * 8)
  | .vmaxsS32 d a b p => some (0x03C00005 + d.toNat * 65536 + a.toNat * 2048 + b.toNat * 64 + p.toNat * 8)
  | .vminzS32 d a b p => some (0x03C00006 + d.toNat * 65536 + a.toNat * 2048 + b.toNat * 64 + p.toNat * 8)
  | .vmaxzS32 d a b p => some (0x03C00007 + d.toNat * 65536 + a.toNat * 2048 + b.toNat * 64 + p.toNat * 8)
  | .vand d a b p => some (0x03E00000 + d.toNat * 65536 + a.toNat * 2048 + b.toNat * 64 + p.toNat * 8)
  | .vor d a b p => some (0x03E00001 + d.toNat * 65536 + a.toNat * 2048 + b.toNat * 64 + p.toNat * 8)
  | .vxor d a b p => some (0x03E00002 + d.toNat * 65536 + a.toNat * 2048 + b.toNat * 64 + p.toNat * 8)
  | .vandn d a b p => some (0x03E00003 + d.toNat * 65536 + a.toNat * 2048 + b.toNat * 64 + p.toNat * 8)
  | .vshl d a b p => some (0x03E00004 + d.toNat * 65536 + a.toNat * 2048 + b.toNat * 64 + p.toNat * 8)
  | .vshr d a b p => some (0x03E00005 + d.toNat * 65536 + a.toNat * 2048 + b.toNat * 64 + p.toNat * 8)
  | .vsar d a b p => some (0x03E00006 + d.toNat * 65536 + a.toNat * 2048 + b.toNat * 64 + p.toNat * 8)
  | .vsel d a b p => some (0x03E00007 + d.toNat * 65536 + a.toNat * 2048 + b.toNat * 64 + p.toNat * 8)
  | .vrcp d a p => some (0x04000000 + d.toNat * 65536 + a.toNat * 2048 + p.toNat * 8)
  | .vrsq d a p => some (0x04000001 + d.toNat * 65536 + a.toNat * 2048 + p.toNat * 8)
  | .vsqrt d a p => some (0x04000002 + d.toNat * 65536 + a.toNat * 2048 + p.toNat * 8)
  | .vex2 d a p => some (0x04000003 + d.toNat * 65536 + a.toNat * 2048 + p.toNat * 8)
  | .vlg2 d a p => some (0x04000004 + d.toNat * 65536 + a.toNat * 2048 + p.toNat * 8)
  | .vdiv d a b p => some (0x04000005 + d.toNat * 65536 + a.toNat * 2048 + b.toNat * 64 + p.toNat * 8)
  | .vfloor d a p => some (0x04000006 + d.toNat * 65536 + a.toNat * 2048 + p.toNat * 8)
  | .vround d a p => some (0x04000007 + d.toNat * 65536 + a.toNat * 2048 + p.toNat * 8)
  | .vceqF32 d a b p => some (0x04200000 + d.toNat * 65536 + a.toNat * 2048 + b.toNat * 64 + p.toNat * 8)
  | .vcltF32 d a b p => some (0x04200001 + d.toNat * 65536 + a.toNat * 2048 + b.toNat * 64 + p.toNat * 8)
  | .vcleF32 d a b p => some (0x04200002 + d.toNat * 65536 + a.toNat * 2048 + b.toNat * 64 + p.toNat * 8)
  | .vcunF32 d a b p => some (0x04200003 + d.toNat * 65536 + a.toNat * 2048 + b.toNat * 64 + p.toNat * 8)
  | .vceqS32 d a b p => some (0x04200004 + d.toNat * 65536 + a.toNat * 2048 + b.toNat * 64 + p.toNat * 8)
  | .vcltS32 d a b p => some (0x04200005 + d.toNat * 65536 + a.toNat * 2048 + b.toNat * 64 + p.toNat * 8)
  | .vcleS32 d a b p => some (0x04200006 + d.toNat * 65536 + a.toNat * 2048 + b.toNat * 64 + p.toNat * 8)
  | .vcltzS32 d a b p => some (0x04200007 + d.toNat * 65536 + a.toNat * 2048 + b.toNat * 64 + p.toNat * 8)
  | .pand d a b => some (0x04400000 + d.toNat * 65536 + a.toNat * 2048 + b.toNat * 64)
  | .por d a b => some (0x04400001 + d.toNat * 65536 + a.toNat * 2048 + b.toNat * 64)
  | .pxor d a b => some (0x04400002 + d.toNat * 65536 + a.toNat * 2048 + b.toNat * 64)
  | .pandn d a b => some (0x04400003 + d.toNat * 65536 + a.toNat * 2048 + b.toNat * 64)
  | .pnot d a => some (0x04400004 + d.toNat * 65536 + a.toNat * 2048)
  | .pany d a p => some (0x04400005 + d.toNat * 65536 + a.toNat * 2048 + p.toNat * 8)
  | .pall d a p => some (0x04400006 + d.toNat * 65536 + a.toNat * 2048 + p.toNat * 8)
  | .pcnt d a p => some (0x04400007 + d.toNat * 65536 + a.toNat * 2048 + p.toNat * 8)
  | .vrsumF32 d a p => some (0x04600000 + d.toNat * 65536 + a.toNat * 2048 + p.toNat * 8)
  | .vrmaxF32 d a p => some (0x04600001 + d.toNat * 65536 + a.toNat * 2048 + p.toNat * 8)
  | .vrminF32 d a p => some (0x04600002 + d.toNat * 65536 + a.toNat * 2048 + p.toNat * 8)
  | .vrsumS32 d a p => some (0x04600003 + d.toNat * 65536 + a.toNat * 2048 + p.toNat * 8)
  | .vscanF32 d a p => some (0x04600004 + d.toNat * 65536 + a.toNat * 2048 + p.toNat * 8)
  | .vscanS32 d a p => some (0x04600005 + d.toNat * 65536 + a.toNat * 2048 + p.toNat * 8)
  | .vtopk d a k p => some (0x04600006 + d.toNat * 65536 + a.toNat * 2048 + k.toNat * 64 + p.toNat * 8)
  | .vargmax d a p => some (0x04600007 + d.toNat * 65536 + a.toNat * 2048 + p.toNat * 8)
  | .vbcast d a b p => some (0x04800000 + d.toNat * 65536 + a.toNat * 2048 + b.toNat * 64 + p.toNat * 8)
  | .vperm d a b p => some (0x04800001 + d.toNat * 65536 + a.toNat * 2048 + b.toNat * 64 + p.toNat * 8)
  | .vrot d a b p => some (0x04800002 + d.toNat * 65536 + a.toNat * 2048 + b.toNat * 64 + p.toNat * 8)
  | .vslide d a b p => some (0x04800003 + d.toNat * 65536 + a.toNat * 2048 + b.toNat * 64 + p.toNat * 8)
  | .vzip d a b p => some (0x04800004 + d.toNat * 65536 + a.toNat * 2048 + b.toNat * 64 + p.toNat * 8)
  | .vunzip d a b p => some (0x04800005 + d.toNat * 65536 + a.toNat * 2048 + b.toNat * 64 + p.toNat * 8)
  | .vcompress d a p => some (0x04800006 + d.toNat * 65536 + a.toNat * 2048 + p.toNat * 8)
  | .vexpand d a p => some (0x04800007 + d.toNat * 65536 + a.toNat * 2048 + p.toNat * 8)
  | .vcvtF32S32 d a p => some (0x04A00000 + d.toNat * 65536 + a.toNat * 2048 + p.toNat * 8)
  | .vcvtS32F32 d a p => some (0x04A00001 + d.toNat * 65536 + a.toNat * 2048 + p.toNat * 8)
  | .vcvtBf16F32 d a b p => some (0x04A00002 + d.toNat * 65536 + a.toNat * 2048 + b.toNat * 64 + p.toNat * 8)
  | .vcvtF32Bf16l d a p => some (0x04A00003 + d.toNat * 65536 + a.toNat * 2048 + p.toNat * 8)
  | .vcvtF32Bf16h d a p => some (0x04A00004 + d.toNat * 65536 + a.toNat * 2048 + p.toNat * 8)
  | .vcvtF16F32 d a b p => some (0x04A00005 + d.toNat * 65536 + a.toNat * 2048 + b.toNat * 64 + p.toNat * 8)
  | .vcvtF32F16l d a p => some (0x04A00006 + d.toNat * 65536 + a.toNat * 2048 + p.toNat * 8)
  | .vcvtF32F16h d a p => some (0x04A00007 + d.toNat * 65536 + a.toNat * 2048 + p.toNat * 8)
  | .vkbpack d a n => some (0x04C00000 + d.toNat * 65536 + a.toNat * 2048 + n.toNat * 64)
  | .vkbunpack d a n => some (0x04C00001 + d.toNat * 65536 + a.toNat * 2048 + n.toNat * 64)
  | .vkbscale d a n => some (0x04C00002 + d.toNat * 65536 + a.toNat * 2048 + n.toNat * 64)
  | .vmov d a p => some (0x04E00000 + d.toNat * 65536 + a.toNat * 2048 + p.toNat * 8)
  | .vfill d a p => some (0x04E00001 + d.toNat * 65536 + a.toNat * 2048 + p.toNat * 8)
  | .vins d a b p => some (0x04E00002 + d.toNat * 65536 + a.toNat * 2048 + b.toNat * 64 + p.toNat * 8)
  | .vext d a b => some (0x04E00003 + d.toNat * 65536 + a.toNat * 2048 + b.toNat * 64)
  | .vqpk d q p => some (0x04E0E004 + d.toNat * 65536 + q.toNat * 2048 + p.toNat * 8)
  | .vqcnt d q => some (0x04E0E005 + d.toNat * 65536 + q.toNat * 2048)
  | .vqclr q => some (0x04E0E006 + q.toNat * 2048)
  | .vlaneid d p => some (0x04E00007 + d.toNat * 65536 + p.toNat * 8)
  | .vld v r u p m o => some (0x05000000 + v.toNat * 65536 + r.toNat * 4096 + u.toNat * 2048 + p.toNat * 256 + m.toNat * 64 + o.toNat)
  | .vst v r u p m o => some (0x05200000 + v.toNat * 65536 + r.toNat * 4096 + u.toNat * 2048 + p.toNat * 256 + m.toNat * 64 + o.toNat)
  | .vgth32 d a b p => some (0x05400000 + d.toNat * 65536 + a.toNat * 2048 + b.toNat * 64 + p.toNat * 8)
  | .vsct32 d a b p => some (0x05400001 + d.toNat * 65536 + a.toNat * 2048 + b.toNat * 64 + p.toNat * 8)
  | .vgth16 d a b p => some (0x05400002 + d.toNat * 65536 + a.toNat * 2048 + b.toNat * 64 + p.toNat * 8)
  | .vsct16 d a b p => some (0x05400003 + d.toNat * 65536 + a.toNat * 2048 + b.toNat * 64 + p.toNat * 8)
  | .vsctaddF32 d a b p => some (0x05400004 + d.toNat * 65536 + a.toNat * 2048 + b.toNat * 64 + p.toNat * 8)
  | .vsctaddS32 d a b p => some (0x05400005 + d.toNat * 65536 + a.toNat * 2048 + b.toNat * 64 + p.toNat * 8)
  | .qpk d q => some (0x05606000 + d.toNat * 32768 + q.toNat * 512)
  | .qcnt d q => some (0x05606001 + d.toNat * 32768 + q.toNat * 512)
  | .qclr q => some (0x05606002 + q.toNat * 512)
  | .qbind d q b => some (0x05606003 + d.toNat * 32768 + q.toNat * 512 + b.toNat * 8)
  | .qunbind d q => some (0x05606004 + d.toNat * 32768 + q.toNat * 512)
  | .mfmt e y => some (0x05800000 + e.toNat * 4096 + y.toNat * 64)
  | .mdrain t q k => some (0x0581C001 + t.toNat * 262144 + q.toNat * 4096 + k.toNat * 64)
  | .mzero t k => some (0x05800002 + t.toNat * 262144 + k.toNat * 4096)
  | .mstat x e => some (0x05800003 + x.toNat * 4096 + e.toNat * 64)
  | .mma t k a b m => some (0x05A00000 + t.toNat * 262144 + k.toNat * 32768 + a.toNat * 2048 + b.toNat * 128 + m.toNat * 16)
  | .mrdv k d y => some (0x05C00000 + k.toNat * 262144 + d.toNat * 4096 + y.toNat * 64)
  | .mrdq k d y => some (0x05C00001 + k.toNat * 262144 + d.toNat * 4096 + y.toNat * 64)
  | .mstF32 t k y => some (0x05C00002 + t.toNat * 262144 + k.toNat * 4096 + y.toNat * 64)
  | .mstBf16 t k y => some (0x05C00003 + t.toNat * 262144 + k.toNat * 4096 + y.toNat * 64)
  | .mstKb t k y => some (0x05C00004 + t.toNat * 262144 + k.toNat * 4096 + y.toNat * 64)
  | .mwrv k a y => some (0x05C00005 + k.toNat * 262144 + a.toNat * 4096 + y.toNat * 64)
  | .oclaim x y => some (0x05E00000 + x.toNat * 4096 + y.toNat * 64)
  | .orelease x y => some (0x05E00001 + x.toNat * 4096 + y.toNat * 64)
  | .oload t x y => some (0x05E00002 + t.toNat * 262144 + x.toNat * 4096 + y.toNat * 64)
  | .ofill t x y => some (0x05E00003 + t.toNat * 262144 + x.toNat * 4096 + y.toNat * 64)
  | .ostat x y => some (0x05E00004 + x.toNat * 4096 + y.toNat * 64)
  | .wrset t x y => some (0x06400000 + t.toNat * 262144 + x.toNat * 8192 + y.toNat * 64)
  | .wradv t x y => some (0x06400001 + t.toNat * 262144 + x.toNat * 4096 + y.toNat * 64)
  | .wrstat x y => some (0x06400002 + x.toNat * 4096 + y.toNat * 64)
  | .wrfree t x => some (0x06400003 + t.toNat * 262144 + x.toNat * 4096)
  | .wrbind q y => some (0x0641C004 + q.toNat * 4096 + y.toNat * 64)
  | .wrout t x y => some (0x06400005 + t.toNat * 262144 + x.toNat * 4096 + y.toNat * 64)
  | .wrflush t x => some (0x06400006 + t.toNat * 262144 + x.toNat * 4096)
  | .wnew t x y => some (0x06600000 + t.toNat * 262144 + x.toNat * 4096 + y.toNat * 64)
  | .wfree t x => some (0x06600001 + t.toNat * 262144 + x.toNat * 4096)
  | .wfence t x y => some (0x06600002 + t.toNat * 262144 + x.toNat * 4096 + y.toNat * 64)
  | .wpost t x y => some (0x06600003 + t.toNat * 262144 + x.toNat * 4096 + y.toNat * 64)
  | .wstart t x y => some (0x06600004 + t.toNat * 262144 + x.toNat * 4096 + y.toNat * 64)
  | .wcompl t x => some (0x06600005 + t.toNat * 262144 + x.toNat * 4096)
  | .wwait t x => some (0x06600006 + t.toNat * 262144 + x.toNat * 4096)
  | .wlock t x y => some (0x06600007 + t.toNat * 262144 + x.toNat * 4096 + y.toNat * 64)
  | .wunlock t x y => some (0x06600008 + t.toNat * 262144 + x.toNat * 4096 + y.toNat * 64)
  | .wflush t x y => some (0x06600009 + t.toNat * 262144 + x.toNat * 4096 + y.toNat * 64)
  | .wquery x y => some (0x0660000A + x.toNat * 4096 + y.toNat * 64)
  | .get t x y => some (0x06800000 + t.toNat * 262144 + x.toNat * 4096 + y.toNat * 128)
  | .put t x y => some (0x06800001 + t.toNat * 262144 + x.toNat * 4096 + y.toNat * 128)
  | .putm t x y => some (0x06800002 + t.toNat * 262144 + x.toNat * 4096 + y.toNat * 128)
  | .accAddf t x y => some (0x06800003 + t.toNat * 262144 + x.toNat * 4096 + y.toNat * 128)
  | .accAdds t x y => some (0x06800004 + t.toNat * 262144 + x.toNat * 4096 + y.toNat * 128)
  | .accFx t x y => some (0x06800005 + t.toNat * 262144 + x.toNat * 4096 + y.toNat * 128)
  | .accMaxf t x y => some (0x06800006 + t.toNat * 262144 + x.toNat * 4096 + y.toNat * 128)
  | .accMinf t x y => some (0x06800007 + t.toNat * 262144 + x.toNat * 4096 + y.toNat * 128)
  | .getacc t x y => some (0x06800008 + t.toNat * 262144 + x.toNat * 4096 + y.toNat * 128)
  | .rcas t x y => some (0x06800009 + t.toNat * 262144 + x.toNat * 4096 + y.toNat * 128)
  | .getro t x y => some (0x0680000A + t.toNat * 262144 + x.toNat * 4096 + y.toNat * 128)
  | .dispatch t x => some (0x06A00000 + t.toNat * 262144 + x.toNat * 4096)
  | .combine t x => some (0x06A00001 + t.toNat * 262144 + x.toNat * 4096)
  | .coll t x => some (0x06A00002 + t.toNat * 262144 + x.toNat * 4096)
  | .cstat x y => some (0x06A00003 + x.toNat * 4096 + y.toNat * 64)
  | .ccancel t x => some (0x06A00004 + t.toNat * 262144 + x.toNat * 4096)
  | .aadd d a b => some (0x07000000 + d.toNat * 32768 + a.toNat * 512 + b.toNat * 8)
  | .aand d a b => some (0x07000001 + d.toNat * 32768 + a.toNat * 512 + b.toNat * 8)
  | .aor d a b => some (0x07000002 + d.toNat * 32768 + a.toNat * 512 + b.toNat * 8)
  | .axchg d a b => some (0x07000003 + d.toNat * 32768 + a.toNat * 512 + b.toNat * 8)
  | .amaxs d a b => some (0x07000004 + d.toNat * 32768 + a.toNat * 512 + b.toNat * 8)
  | .amins d a b => some (0x07000005 + d.toNat * 32768 + a.toNat * 512 + b.toNat * 8)
  | .aaddf d a b => some (0x07000006 + d.toNat * 32768 + a.toNat * 512 + b.toNat * 8)
  | .afx d a b => some (0x07000007 + d.toNat * 32768 + a.toNat * 512 + b.toNat * 8)
  | .acas d a b => some (0x07200000 + d.toNat * 32768 + a.toNat * 512 + b.toNat * 8)
  | .ahist d a b => some (0x07200001 + d.toNat * 32768 + a.toNat * 512 + b.toNat * 8)
  | .barv d a b => some (0x07200002 + d.toNat * 32768 + a.toNat * 512 + b.toNat * 8)
  | .barw d a b => some (0x07200003 + d.toNat * 32768 + a.toNat * 512 + b.toNat * 8)
  | .barset d a b => some (0x07200004 + d.toNat * 32768 + a.toNat * 512 + b.toNat * 8)
  | .barq d a => some (0x07200005 + d.toNat * 32768 + a.toNat * 512)
  | .tlwait d t b => some (0x07200006 + d.toNat * 32768 + t.toNat * 512 + b.toNat * 8)
  | .tlrd d t => some (0x07200007 + d.toNat * 32768 + t.toNat * 512)
  | .tlwaitr d t b => some (0x07400000 + d.toNat * 32768 + t.toNat * 512 + b.toNat * 8)
  | .tlrdi d t => some (0x07400001 + d.toNat * 32768 + t.toNat * 512)
  | .tlrdc d t => some (0x07400002 + d.toNat * 32768 + t.toNat * 512)
  | .tlrdv d t => some (0x07400003 + d.toNat * 32768 + t.toNat * 512)
  | .tlerr d t => some (0x07400004 + d.toNat * 65536 + t.toNat * 512)
  | .bwph a => some (0x07400005 + a.toNat * 512)
  | .wakew => some (0x07400006)
  | .tlbinv a b => some (0x07600000 + a.toNat * 512 + b.toNat * 8)
  | .tlbsync => some (0x07600001)
  | .rtcinv a b => some (0x07600002 + a.toNat * 512 + b.toNat * 8)
  | .rtcsync => some (0x07600003)
  | .trun a => some (0x07800000 + a.toNat * 512)
  | .tchain a => some (0x07800001 + a.toNat * 512)
  | .tcond a => some (0x07800002 + a.toNat * 512)
  | .qpop d a c => some (0x07800003 + d.toNat * 32768 + a.toNat * 512 + c.toNat * 8)
  | .qtry d a c => some (0x07800004 + d.toNat * 32768 + a.toNat * 512 + c.toNat * 8)
  | .qpush d a b => some (0x07800005 + d.toNat * 32768 + a.toNat * 512 + b.toNat * 8)
  | .qcancel d a b => some (0x07800006 + d.toNat * 32768 + a.toNat * 512 + b.toNat * 8)
  | .qthaw d a => some (0x07800007 + d.toNat * 32768 + a.toNat * 512)
  | .hpush d a b => some (0x07A00000 + d.toNat * 32768 + a.toNat * 512 + b.toNat * 8)
  | .hpop d a c => some (0x07A00001 + d.toNat * 32768 + a.toNat * 512 + c.toNat * 8)
  | .hadj d a b => some (0x07A00002 + d.toNat * 32768 + a.toNat * 512 + b.toNat * 8)
  | .hmax d a b => some (0x07A00003 + d.toNat * 32768 + a.toNat * 512 + b.toNat * 8)
  | .hres d a b => some (0x07A00004 + d.toNat * 32768 + a.toNat * 512 + b.toNat * 8)
  | .hdone d a b => some (0x07A00005 + d.toNat * 32768 + a.toNat * 512 + b.toNat * 8)
  | .hread d a b => some (0x07A00006 + d.toNat * 32768 + a.toNat * 512 + b.toNat * 8)
  | .csrr d n => some (0x07C00000 + d.toNat * 32768 + n.toNat * 8)
  | .csrw d n => some (0x07C00001 + d.toNat * 32768 + n.toNat * 8)
  | .eret => some (0x07C00002)
  | .segenter a => some (0x07C00003 + a.toNat * 512)
  | .segsealSeal a b => some (0x07C00004 + a.toNat * 512 + b.toNat * 8)
  | .segsealPatch a b => some (0x07C00004 + a.toNat * 512 + b.toNat * 8)
  | .kslotQuery d a b => some (0x07C00005 + d.toNat * 32768 + a.toNat * 512 + b.toNat * 8)
  | .kslotInstall d a b => some (0x07C00005 + d.toNat * 32768 + a.toNat * 512 + b.toNat * 8)
  | .kslotZeroise d a b => some (0x07C00005 + d.toNat * 32768 + a.toNat * 512 + b.toNat * 8)
  | .kslotRotate d a b => some (0x07C00005 + d.toNat * 32768 + a.toNat * 512 + b.toNat * 8)
  | .kslotBind d a b => some (0x07C00005 + d.toNat * 32768 + a.toNat * 512 + b.toNat * 8)
  | .scrub d a => some (0x07C00006 + d.toNat * 32768 + a.toNat * 512)
  | .pgmap t a b => some (0x07C00007 + t.toNat * 32768 + a.toNat * 512 + b.toNat * 8)
  | .ext h => some (0x07E00000 + h.toNat)
  | .blockOpen _ => none
  | .fixedLatencyLanding _ => none
  | .interlockedResultArrival _ _ => none
  | .compensatedResultArrival _ => none
  | .loadMemoryError _ => none
  | .boundQueueDelivery _ _ => none
  | .contextExitCompletion _ => none
  | .engineCommandStart _ _ => none
  | .mmaRepetitionAccept _ _ => none
  | .mmaCompletion _ _ => none
  | .oloadCompletion _ _ => none
  | .ofillCompletion _ _ => none
  | .mstCompletion _ _ => none
  | .drainRowDelivery _ _ => none
  | .pgmapCompletion _ => none
  | .ringRowLanding _ _ => none
  | .ringMulticastRow _ => none
  | .recvRegistration _ _ => none
  | .ringCreditReturn _ => none
  | .ringBoundRowDelivery _ _ => none
  | .ringRowWriteAccept _ _ => none
  | .fabricPacketHop _ => none
  | .mailbagWaitExpiry _ _ => none
  | .mailbagArrival _ _ => none
  | .remoteRequestArrival _ => none
  | .orderedPacketRelease _ => none
  | .remoteResponseArrival _ => none
  | .translationRequest _ => none
  | .translationReply _ => none
  | .tokenInvalidation _ => none
  | .tokenInvalidationAck _ => none
  | .windowCollectiveNotice _ => none
  | .fenceCloseNotice _ => none
  | .postNotice _ => none
  | .completeNotice _ => none
  | .lockRequest _ => none
  | .lockRelease _ => none
  | .headAnnouncement _ => none
  | .collectiveChunk _ _ => none
  | .dispatchCountExchange _ => none
  | .deliveryStreamEntry _ _ => none
  | .cancelArrival _ => none
  | .laneFailure _ _ => none
  | .iczerGroupArrival _ _ => none
  | .iczerIdleFill _ => none
  | .iczerRekey _ => none
  | .iczerCounterExhausted _ => none
  | .iczerLinkRetrain _ => none
  | .joinReport _ _ => none
  | .joinTimeout _ => none
  | .l1MissFill _ _ => none
  | .pageTableWalk _ _ _ => none
  | .pigeonholeBankAccess _ _ => none
  | .writeQueueWatermarkDrain _ _ => none
  | .writeQueueAgeDrain _ _ => none
  | .rowActivationRefresh _ _ => none
  | .patrolRead _ _ => none
  | .channelRetirementStart _ _ => none
  | .granuleMove _ => none
  | .retirementComplete _ => none
  | .bankSetNap _ _ => none
  | .bankSetRetain _ _ => none
  | .bankSetDeep _ _ => none
  | .bankSetWake _ _ => none
  | .lsBankWake _ _ => none
  | .keyRotationGranule _ => none
  | .keyRotationComplete _ => none
  | .scrubUnit _ => none
  | .scrubComplete _ => none
  | .letterEnqueue _ _ _ _ => none
  | .schedulingDecision => none
  | .letterAging _ => none
  | .completionWriteLetter _ => none
  | .completionWaitPoll _ => none
  | .gangStart _ => none
  | .instanceCompletion _ => none
  | .contextPreemptionStop _ => none
  | .contextSave _ => none
  | .teamResumption _ => none
  | .taskfaultDelivery _ => none
  | .sealreqDone _ => none
  | .sealreqRefuse _ => none
  | .ckptbaseWrite _ _ => none
  | .trapcauseDiscard _ => none
  | .lsboundsWrite _ _ _ => none
  | .lspwrWrite _ _ _ => none
  | .ptrootWrite _ _ => none
  | .slretRetire _ _ => none
  | .slretGo _ => none
  | .wqcfgWrite _ _ _ => none
  | .hpctlReset _ _ => none
  | .hpcapWrite _ _ _ => none
  | .gmkillWrite _ => none
  | .rtcdropAll _ => none
  | .cecntRead _ => none
  | .merrstatRead _ => none
  | .rtcstatRead _ => none
  | .iczerrRead _ => none
  | .pmcntRead _ => none
  | .pbstatRead _ => none
  | .pbcancelWrite _ _ => none
  | .elstatRead _ => none
  | .sitectlExpertWrite _ _ => none
  | .hostRegisterWrite _ _ _ => none
  | .hostUnimplementedAccess _ _ _ => none
  | .bar4Read _ _ => none
  | .bar4Write _ _ _ => none
  | .panelctlCold => none
  | .panelctlWarm => none
  | .panelctlSitewarm _ => none
  | .powerOn => none
  | .startupStageAdvance => none
  | .hostLinkDown _ => none
  | .getVersion _ => none
  | .getCapabilities _ => none
  | .negotiateAlgorithms _ => none
  | .getDigests _ => none
  | .getCertificate _ => none
  | .challenge _ => none
  | .getMeasurements _ _ => none
  | .keyExchange _ => none
  | .finish _ _ => none
  | .endSession _ _ => none
  | .ideKmQuery _ _ => none
  | .ideKmKeyProg _ _ _ => none
  | .ideKmKSetGo _ _ _ => none
  | .ideKmKSetStop _ _ _ => none
  | .thermalThrottle _ => none
  | .thermalShutdown _ => none
  | .thermalRestart _ => none
  | .coolantFlowLow => none
  | .dvfsChange _ => none
  | .aclkCycle _ => none
  | .unallocatedEncoding _ => none
  | .letterWindowWrite _ _ _ => none
  | .unlistedSpdmRequest _ => none
  | .joinPartFailure _ => none

/-- The instruction that the decoder reads from a table word. One word of 32 bits is a slot; the frame bits S and G
(or W) above the major belong to the bundle, not to the instruction (R59). -/
noncomputable def decodeTableWord (nbits w : Nat) : Option Instr :=
  if nbits = 32 then (decodeBody (w % 2 ^ 32)).toOption else none

end Sys2Proof
end

