-- ==== Sys2Proof/Machine/Float.lean ====
section
/-! DEFINITION. The floating-point formats and their exact arithmetic with one rounding (R40 to R50). -/
namespace Sys2Proof.Machine

/-- A binary interchange format: exponent bits and fraction bits (Table 8). -/
structure FFmt where
  eb : Nat
  fb : Nat
  deriving DecidableEq, Repr

def f16 : FFmt := ⟨5, 10⟩
def bf16 : FFmt := ⟨8, 7⟩
def f32 : FFmt := ⟨8, 23⟩
def f64 : FFmt := ⟨11, 52⟩

/-- The exponent bias of Table 8. -/
def FFmt.bias (f : FFmt) : Nat := 2 ^ (f.eb - 1) - 1
/-- The width in bits. -/
def FFmt.width (f : FFmt) : Nat := f.eb + f.fb + 1
/-- The canonical NaN of Table 8. -/
def FFmt.nan (f : FFmt) : Nat := (2 ^ f.eb - 1) * 2 ^ f.fb + 2 ^ (f.fb - 1)
/-- Infinity with the given sign. -/
def FFmt.inf (f : FFmt) (neg : Bool) : Nat := bn neg * 2 ^ (f.eb + f.fb) + (2 ^ f.eb - 1) * 2 ^ f.fb
/-- The largest finite value with the given sign (R41). -/
def FFmt.maxFin (f : FFmt) (neg : Bool) : Nat := f.inf neg - 1
/-- Zero with the given sign. -/
def FFmt.zero (f : FFmt) (neg : Bool) : Nat := bn neg * 2 ^ (f.eb + f.fb)

/-- The rounding modes of FCTL.RM (R29). -/
inductive RMode where
  | rne | rz | ru | rd
  deriving DecidableEq, Repr

/-- FCTL.RM decoded (R29). -/
def RMode.ofCode : Nat → RMode
  | 0 => .rne
  | 1 => .rz
  | 2 => .ru
  | _ => .rd

/-- The five flags of Table 9, as bits NV, DZ, OF, UF, NX from bit 4 down (R29). -/
abbrev Flags := BitVec 5
def Flags.nv : Flags := 16#5
def Flags.dz : Flags := 8#5
def Flags.of : Flags := 4#5
def Flags.uf : Flags := 2#5
def Flags.nx : Flags := 1#5

/-- What a floating-point word stands for: fin s m e is (-1)^s × m × 2^e, m = 0 for a zero. -/
inductive FVal where
  | nan (signalling : Bool)
  | inf (neg : Bool)
  | fin (neg : Bool) (m : Nat) (e : Int)
  deriving DecidableEq, Repr

/-- The value of a word in format f (R40). -/
def unpack (f : FFmt) (x : Nat) : FVal :=
  let neg := bit x (f.eb + f.fb)
  let ex := bits x f.fb f.eb
  let fr := bits x 0 f.fb
  if ex = 2 ^ f.eb - 1 then
    if fr = 0 then .inf neg else .nan (!bit fr (f.fb - 1))
  else if ex = 0 then .fin neg fr (1 - (f.bias : Int) - f.fb)
  else .fin neg (fr + 2 ^ f.fb) ((ex : Int) - f.bias - f.fb)

/-- Whether rounding the magnitude q + r/h2 (r < 2^d, h2 = 2^d) away from zero is called for (R41). -/
def roundsUp (rm : RMode) (neg : Bool) (q r d : Nat) : Bool :=
  match rm with
  | .rne => decide (2 * r > 2 ^ d) || (decide (2 * r = 2 ^ d) && decide (q % 2 = 1))
  | .rz => false
  | .ru => !neg && decide (r ≠ 0)
  | .rd => neg && decide (r ≠ 0)

/-- m × 2^e rounded to an integer multiple of 2^q, in units of 2^q, and whether it was inexact. -/
def roundAt (rm : RMode) (neg : Bool) (m : Nat) (e q : Int) : Nat × Bool :=
  if q ≤ e then (m * 2 ^ (e - q).toNat, false)
  else
    let d := (q - e).toNat
    let k := m / 2 ^ d
    let r := m % 2 ^ d
    (k + (if roundsUp rm neg k r d then 1 else 0), decide (r ≠ 0))

/-- (-1)^neg × m × 2^e with m > 0 is tiny: below the smallest normal once rounded with the exponent unbounded (R41). -/
def tinyFin (f : FFmt) (rm : RMode) (neg : Bool) (m : Nat) (e : Int) : Bool :=
  let top : Int := Nat.log2 m + e
  let emin : Int := 1 - f.bias
  decide (top < emin) && !(decide (top = emin - 1) && decide ((roundAt rm neg m e (top - f.fb)).1 = 2 ^ (f.fb + 1)))

/-- Round of R38 and R41 applied to (-1)^neg × m × 2^e with m > 0: the word and its flags. -/
def roundFin (f : FFmt) (rm : RMode) (neg : Bool) (m : Nat) (e : Int) : Nat × Flags :=
  let top : Int := Nat.log2 m + e
  let emin : Int := 1 - f.bias
  let q := max (top - f.fb) (emin - f.fb)
  let (k, inexact) := roundAt rm neg m e q
  let body := (q - (emin - f.fb)).toNat * 2 ^ f.fb + k
  let sgn := bn neg * 2 ^ (f.eb + f.fb)
  if (2 ^ f.eb - 1) * 2 ^ f.fb ≤ body then
    let toInf := match rm with
      | .rne => true
      | .rz => false
      | .ru => !neg
      | .rd => neg
    (if toInf then f.inf neg else f.maxFin neg, Flags.of ||| Flags.nx)
  else
    (sgn + body, (if inexact then Flags.nx else 0) ||| (if inexact && tinyFin f rm neg m e then Flags.uf else 0))

/-- A value rounded to a format; a NaN becomes the canonical one, with NV where it was signalling (R42, R45). -/
def roundVal (f : FFmt) (rm : RMode) : FVal → Nat × Flags
  | .nan sg => (f.nan, if sg then Flags.nv else 0)
  | .inf n => (f.inf n, 0)
  | .fin n m e => if m = 0 then (f.zero n, 0) else roundFin f rm n m e

def FVal.isNan : FVal → Bool
  | .nan _ => true
  | _ => false
def FVal.isSnan : FVal → Bool
  | .nan true => true
  | _ => false
def FVal.neg : FVal → FVal
  | .nan sg => .nan sg
  | .inf n => .inf (!n)
  | .fin n m e => .fin (!n) m e

/-- NV where any operand is a signalling NaN (Table 9). -/
def nvOf (xs : List FVal) : Flags := if xs.any FVal.isSnan then Flags.nv else 0

/-- The exact sum of two finite values, with the zero-sum sign rule of R42. -/
def addFin (rm : RMode) (n1 : Bool) (m1 : Nat) (e1 : Int) (n2 : Bool) (m2 : Nat) (e2 : Int) : FVal :=
  let e := min e1 e2
  let sg (n : Bool) (m : Nat) (x : Int) : Int := (if n then -1 else 1) * (m * 2 ^ (x - e).toNat : Nat)
  let t := sg n1 m1 e1 + sg n2 m2 e2
  if t = 0 then
    .fin (if m1 = 0 && m2 = 0 && n1 == n2 then n1 else decide (rm = .rd)) 0 0
  else .fin (decide (t < 0)) t.natAbs e

/-- The exact sum of two values, with its flags. -/
def addVal (rm : RMode) (x y : FVal) : FVal × Flags :=
  match x, y with
  | .fin n1 m1 e1, .fin n2 m2 e2 => (addFin rm n1 m1 e1 n2 m2 e2, 0)
  | .inf n1, .inf n2 => if n1 == n2 then (.inf n1, 0) else (.nan false, Flags.nv)
  | .inf n, .fin _ _ _ => (.inf n, 0)
  | .fin _ _ _, .inf n => (.inf n, 0)
  | _, _ => (.nan false, nvOf [x, y])

/-- The exact product of two values, with its flags. -/
def mulVal (x y : FVal) : FVal × Flags :=
  match x, y with
  | .fin n1 m1 e1, .fin n2 m2 e2 => (.fin (n1 ^^ n2) (m1 * m2) (e1 + e2), 0)
  | .inf n1, .inf n2 => (.inf (n1 ^^ n2), 0)
  | .inf n1, .fin n2 m _ => if m = 0 then (.nan false, Flags.nv) else (.inf (n1 ^^ n2), 0)
  | .fin n1 m _, .inf n2 => if m = 0 then (.nan false, Flags.nv) else (.inf (n1 ^^ n2), 0)
  | _, _ => (.nan false, nvOf [x, y])

/-- A rounding that also carries flags found before it. -/
def roundWith (f : FFmt) (rm : RMode) (r : FVal × Flags) : Nat × Flags :=
  let (w, fl) := roundVal f rm r.1
  (w, fl ||| r.2)

def fAdd (f : FFmt) (rm : RMode) (a b : Nat) : Nat × Flags := roundWith f rm (addVal rm (unpack f a) (unpack f b))
def fSub (f : FFmt) (rm : RMode) (a b : Nat) : Nat × Flags := roundWith f rm (addVal rm (unpack f a) (unpack f b).neg)
def fMul (f : FFmt) (rm : RMode) (a b : Nat) : Nat × Flags := roundWith f rm (mulVal (unpack f a) (unpack f b))

/-- A × B + C with one rounding; 0 × ∞ sets NV whatever the addend holds (R139, R44). -/
def fFma (f : FFmt) (rm : RMode) (a b c : Nat) : Nat × Flags :=
  let z := unpack f c
  let (p, fl) := mulVal (unpack f a) (unpack f b)
  let (t, fl2) := addVal rm p z
  let (w, fl3) := roundVal f rm t
  (w, fl ||| fl2 ||| fl3 ||| nvOf [z])

/-- C − A × B with one rounding. -/
def fFms (f : FFmt) (rm : RMode) (a b c : Nat) : Nat × Flags :=
  let z := unpack f c
  let (p, fl) := mulVal (unpack f a) (unpack f b)
  let (t, fl2) := addVal rm p.neg z
  let (w, fl3) := roundVal f rm t
  (w, fl ||| fl2 ||| fl3 ||| nvOf [z])

/-- The quotient of two values, exact or with a sticky bit that keeps it on its side of every rounding boundary. -/
def divVal (x y : FVal) : FVal × Flags :=
  match x, y with
  | .fin n1 m1 e1, .fin n2 m2 e2 =>
    if m2 = 0 then
      if m1 = 0 then (.nan false, Flags.nv) else (.inf (n1 ^^ n2), Flags.dz)
    else if m1 = 0 then (.fin (n1 ^^ n2) 0 0, 0)
    else
      let k := 128 + Nat.log2 m2
      let q := m1 * 2 ^ k / m2
      let st := if m1 * 2 ^ k % m2 = 0 then 0 else 1
      (.fin (n1 ^^ n2) (2 * q + st) (e1 - e2 - k - 1), 0)
  | .inf _, .inf _ => (.nan false, Flags.nv)
  | .inf n1, .fin n2 _ _ => (.inf (n1 ^^ n2), 0)
  | .fin n1 _ _, .inf n2 => (.fin (n1 ^^ n2) 0 0, 0)
  | _, _ => (.nan false, nvOf [x, y])

def fDiv (f : FFmt) (rm : RMode) (a b : Nat) : Nat × Flags := roundWith f rm (divVal (unpack f a) (unpack f b))

/-- The square root of a value, with a sticky bit as in divVal. -/
def sqrtVal (x : FVal) : FVal × Flags :=
  match x with
  | .nan sg => (.nan false, if sg then Flags.nv else 0)
  | .inf n => if n then (.nan false, Flags.nv) else (.inf false, 0)
  | .fin n m e =>
    if m = 0 then (.fin n 0 0, 0)
    else if n then (.nan false, Flags.nv)
    else
      let odd := e % 2 ≠ 0
      let a := (if odd then 2 * m else m) * 2 ^ 132
      let e2 := (if odd then e - 1 else e) / 2 - 66
      let r := isqrt a 96
      (.fin false (2 * r + (if r * r = a then 0 else 1)) (e2 - 1), 0)

def fSqrt (f : FFmt) (rm : RMode) (a : Nat) : Nat × Flags := roundWith f rm (sqrtVal (unpack f a))

/-- 1/x of R46: division of 1 by x. -/
def fRcp (a : Nat) : Nat × Flags := roundWith f32 .rne (divVal (.fin false 1 0) (unpack f32 a))

/-- 1/√x of R46. -/
def fRsq (a : Nat) : Nat × Flags :=
  match unpack f32 a with
  | .nan sg => (f32.nan, if sg then Flags.nv else 0)
  | .inf n => if n then (f32.nan, Flags.nv) else (f32.zero false, 0)
  | .fin n m e =>
    if m = 0 then (f32.inf n, Flags.dz)
    else if n then (f32.nan, Flags.nv)
    else
      let odd := e % 2 ≠ 0
      let m2 := if odd then 2 * m else m
      let e2 := (if odd then e - 1 else e) / 2
      -- √(2^160 / m2) × 2^(-80 - e2)
      let r := isqrt (2 ^ 160 / m2) 82
      roundFin f32 .rne false (2 * r + (if r * r * m2 = 2 ^ 160 then 0 else 1)) (-e2 - 81)

/-- The smaller or larger of R42: −0 below +0, a NaN gives way to a number. -/
def fMinMax (f : FFmt) (takeMax : Bool) (a b : Nat) : Nat × Flags :=
  let x := unpack f a
  let y := unpack f b
  let fl := nvOf [x, y]
  let key (v : Nat) : Int :=
    let mag : Int := (v % 2 ^ (f.eb + f.fb) : Nat)
    if bit v (f.eb + f.fb) then -mag - 1 else mag
  let am := a % 2 ^ f.width
  let bm := b % 2 ^ f.width
  match x.isNan, y.isNan with
  | true, true => (f.nan, fl)
  | true, false => (bm, fl)
  | false, true => (am, fl)
  | false, false =>
    let aLess := decide (key am ≤ key bm)
    (if aLess == !takeMax then am else bm, fl)

/-- The order of two values where neither is a NaN (R43: −0 equals +0). -/
def fKey (f : FFmt) (x : Nat) : Int :=
  let mag : Int := (x % 2 ^ (f.eb + f.fb) : Nat)
  if bit x (f.eb + f.fb) then -mag else mag

/-- Equal, less, less-or-equal, unordered (R43). -/
inductive FCmp where
  | eq | lt | le | un
  deriving DecidableEq, Repr

/-- A comparison and its flags (R43). -/
def fCmp (f : FFmt) (c : FCmp) (a b : Nat) : Bool × Flags :=
  let x := unpack f a
  let y := unpack f b
  let anyNan := x.isNan || y.isNan
  let quiet := nvOf [x, y]
  let loud : Flags := if anyNan then Flags.nv else 0
  match c with
  | .eq => (!anyNan && decide (fKey f a = fKey f b), quiet)
  | .lt => (!anyNan && decide (fKey f a < fKey f b), loud)
  | .le => (!anyNan && decide (fKey f a ≤ fKey f b), loud)
  | .un => (anyNan, quiet)

/-- An integer rounded to a format (R45). -/
def fOfInt (f : FFmt) (rm : RMode) (x : Int) : Nat × Flags :=
  roundVal f rm (.fin (decide (x < 0)) x.natAbs 0)

/-- A float rounded to a w-bit signed integer with saturation (R45). -/
def fToInt (f : FFmt) (rm : RMode) (w : Nat) (a : Nat) : Int × Flags :=
  match unpack f a with
  | .nan _ => (0, Flags.nv)
  | .inf n => (if n then -(2 ^ (w - 1)) else 2 ^ (w - 1) - 1, Flags.nv)
  | .fin n m e =>
    let (k, inexact) := roundAt rm n m e 0
    let v : Int := if n then -(k : Int) else k
    if v < -(2 ^ (w - 1)) then (-(2 ^ (w - 1)), Flags.nv)
    else if 2 ^ (w - 1) - 1 < v then (2 ^ (w - 1) - 1, Flags.nv)
    else (v, if inexact then Flags.nx else 0)

/-- Conversion between formats (R45). -/
def fCvt (from_ to_ : FFmt) (rm : RMode) (a : Nat) : Nat × Flags := roundVal to_ rm (unpack from_ a)

/-- vfloor and vround of R47: an integral value, never NX. A zero that a non-zero input rounds to keeps the input's sign, of which R47
says nothing (DESIGN CHOICE, log 73). -/
def fIntegral (rm : RMode) (a : Nat) : Nat × Flags :=
  match unpack f32 a with
  | .nan sg => (f32.nan, if sg then Flags.nv else 0)
  | .inf n => (f32.inf n, 0)
  | .fin n m e =>
    if m = 0 then (f32.zero n, 0)
    else
      let k := (roundAt rm n m e 0).1
      ((roundVal f32 .rne (.fin n k 0)).1, 0)

/-- vabs of R42: the sign cleared, a NaN made canonical, no flag. -/
def fAbs (f : FFmt) (a : Nat) : Nat :=
  if (unpack f a).isNan then f.nan else a % 2 ^ (f.eb + f.fb)

/-- The product, in units of 2^-128, of the powers 2^(2^-i) over the 1 bits of x (64 bits, bit 63 standing
for 2^-1), with c the current power. -/
def exp2Frac (x : Nat) : Nat → Nat → Nat → Nat
  | 0, _, acc => acc
  | n + 1, c, acc =>
    let c' := isqrt (c * 2 ^ 128) 129
    exp2Frac x n c' (if bit x n then acc * c' / 2 ^ 128 else acc)

/-- 2^x of R46. An x with a fraction is irrational, and is rounded from 100 and more correct bits. -/
def fEx2 (a : Nat) : Nat × Flags :=
  match unpack f32 a with
  | .nan sg => (f32.nan, if sg then Flags.nv else 0)
  | .inf n => (if n then f32.zero false else f32.inf false, 0)
  | .fin n m e =>
    if m = 0 then (0x3F800000, 0)
    else
      let top : Int := Nat.log2 m + e
      if 10 < top then
        if n then roundFin f32 .rne false 1 (-2000) else roundFin f32 .rne false 1 2000
      else if top < -40 then
        roundFin f32 .rne false (if n then 2 ^ 60 - 1 else 2 ^ 60 + 1) (-60)
      else
        -- x in units of 2^-64: top ≥ -40 and 24 significant bits leave it exact
        let u : Int := if 0 ≤ e + 64 then (m * 2 ^ (e + 64).toNat : Nat) else (m / 2 ^ (-(e + 64)).toNat : Nat)
        let x : Int := if n then -u else u
        let k := x / 2 ^ 64
        let fr := (x % 2 ^ 64).toNat
        if fr = 0 then roundFin f32 .rne false 1 k
        else
          let y := exp2Frac fr 64 (2 ^ 129) (2 ^ 128)
          roundFin f32 .rne false (2 * y + 1) (k - 129)

/-- The next n bits of log2 of y, y in [1, 2) in units of 2^-300, after those gathered in acc. -/
def log2Bits : Nat → Nat → Nat → Nat
  | 0, _, acc => acc
  | n + 1, y, acc =>
    let z := y * y / 2 ^ 300
    if 2 ^ 301 ≤ z then log2Bits n (z / 2) (2 * acc + 1) else log2Bits n z (2 * acc)

/-- log2 x of R46. Away from powers of two it is irrational, and is rounded from 120 fraction bits. -/
def fLg2 (a : Nat) : Nat × Flags :=
  match unpack f32 a with
  | .nan sg => (f32.nan, if sg then Flags.nv else 0)
  | .inf n => if n then (f32.nan, Flags.nv) else (f32.inf false, 0)
  | .fin n m e =>
    if m = 0 then (f32.inf true, Flags.dz)
    else if n then (f32.nan, Flags.nv)
    else
      let l := Nat.log2 m
      let k : Int := l + e
      if m = 2 ^ l then fOfInt f32 .rne k
      else
        let fr := log2Bits 120 (m * 2 ^ (300 - l)) 0
        -- (fr + δ) × 2^-120 + k with 0 < δ < 1; one more bit keeps the value off every boundary
        let t : Int := k * 2 ^ 121 + (2 * fr + 1 : Nat)
        roundFin f32 .rne (decide (t < 0)) t.natAbs (-121)

end Sys2Proof.Machine
end

