-- ==== Sys2Proof/Config.lean ====
section
/-! DEFINITION. What an implementation fixes and what the spec leaves open: constants without a body, so that nothing can be
proved of their values. -/
namespace Sys2Proof.Config

/-- Free values by the count of State.free (log 6). -/
opaque freeWord : Nat → W64

/-- The bound, in cluster cycles, within which an access that has issued reaches its memory (R255; log 60). -/
opaque postBound : Nat

/-- PHYS of a stepping-latency class (R33): fused, known only not to be below NOM. -/
opaque physSlack : Nat → Nat

/-- The low 63 bits of the word that a sequencer mark spills as (R310). -/
opaque markBits : BitVec 63

/-- AES-256-XTS of a 64-byte data unit: the key pair and the tweak (R356). -/
opaque xts : BitVec 512 → BitVec 128 → Equiv.Perm (BitVec 512)

/-- AES-256-GCM opening of a 256-byte block: key, 96-bit nonce, text, 64-bit tag; none where the tag does not match
(R358, R360). -/
opaque gcmOpen : BitVec 256 → BitVec 96 → BitVec 2048 → BitVec 64 → Option (BitVec 2048)

/-- AES-256-GCM sealing of a 256-byte block: the text and the tag (R358). -/
opaque gcmSeal : BitVec 256 → BitVec 96 → BitVec 2048 → BitVec 2048 × BitVec 64

/-- AES-256-GCM opening of an install block: KWK, IV, additional data, ciphertext, tag (R349). -/
opaque gcmUnwrap : BitVec 256 → BitVec 96 → Nat → BitVec 768 → BitVec 128 → Option (BitVec 768)

/-- The first 8 bytes of the AES-256-GCM tag over a letter's bytes 0x00 to 0x77: PMK, nonce, letter (R369). -/
opaque gcmMac : BitVec 256 → BitVec 96 → BitVec 960 → BitVec 64

/-- HKDF-SHA-384 of an export master secret: 0 for KWK (R347); 1, a post box and a slot for PMK (R369). -/
opaque hkdf : W384 → Nat → Nat → Nat → BitVec 256

/-- SHA-384 of a message of n bytes, held little-endian as a number (R351, R358, R359, R366). -/
opaque sha384 : Nat → Nat → W384

/-- ECDSA P-384 with SHA-384: public key, signature, the message's length and bytes (R358, R366). -/
opaque ecdsaOk : BitVec 768 → BitVec 768 → Nat → Nat → Bool

/-- A parameter's value lies in the range a segment declares for it: the segment's digest, 0 `.ncl`, 1 `.ngang`, 2 `.nsite`,
the value. No field of the header gives the ranges (R300, R358). -/
opaque paramOk : W384 → Nat → Nat → Bool

/-- Slot 0 of a site as the management core installs it: the data key pair, the code key, SIGNER (R346). -/
opaque platformData : Nat → BitVec 512
opaque platformCode : Nat → BitVec 256
opaque platformSigner : Nat → W384

/-- The monitor firmware that start-up loads into a site's monitor region: bytes by offset (R271, R378). -/
opaque firmware : Nat → List (Nat × BitVec 8)

/-- What a save writes of a cluster's claimed state in its save area, by the count of State.free: bytes by offset (R305). -/
opaque saveImage : Nat → List (Nat × BitVec 8)

/-- What start-up measures into MEAS0 to MEAS4 (R366, R378). -/
opaque measure : Nat → W384

/-- The fused SHA-384 hash of the maker's root key, and the management firmware as it is stored: the root key it carries, its
signature, its length and bytes (R366). -/
opaque rootHash : W384
opaque mgmtKey : BitVec 768
opaque mgmtSig : BitVec 768
opaque mgmtImage : Nat × Nat

/-- The public identity key that the ROM derives from the fused unique secret, and the maker's signature over it; the public alias key
by MEAS0 to MEAS3 (R366). -/
opaque identityKey : BitVec 768
opaque rootSign : BitVec 768
opaque aliasKey : BitVec 768 → List W384 → BitVec 768

/-- An ECDSA P-384 signature by the private key of a public key over a SHA-384 digest (R366, R367). -/
opaque sign : BitVec 768 → W384 → BitVec 768

/-- An export master secret of a session, by its transcript hash and the shared secret (R347, R367). -/
opaque exportSecret : W384 → W384 → W384

/-- The AES-256-GCM tag over the five data flits of a tag group: key, nonce, flits (R338). -/
opaque linkTag : BitVec 256 → BitVec 96 → BitVec 2560 → BitVec 128

/-- The far end of an Iczer port's cable: the panel's id and its port; none where it has none (R342, R345). -/
opaque cable : Nat → Option (Nat × Nat)

end Sys2Proof.Config
end

