-- ==== Sys2Proof/Machine/State.lean ====
section
/-! DEFINITION. The state of the machine, as plain data (R6 to R35 and the state sections of every chapter), the reasons a
step stops, and the state after reset. -/
namespace Sys2Proof.Machine

/-! ## Why a step stops -/

/-- The reasons a step ends in a fault. -/
inductive Fault where
  /-- Raised by step: an agent step of the agenda names a place that the device does not have (a site above 63, a
  cluster index above 83), or an instruction that is not well formed. Safe: no such thing exists on the device. -/
  | malformedEvent
  deriving DecidableEq, Repr

/-- The reasons a step is refused. -/
inductive Refusal where
  /-- Raised by exec for an instruction of the table that has no meaning yet. Safe. -/
  | notModelled (mnemonic : String)
  deriving DecidableEq, Repr

/-! ## A context -/

/-- A register of a context, by file (Table 4): scalar domain 0 to 63, vector 0 to 31, condition and predicate 0 to 7. -/
inductive Reg where
  | x (n : Nat)
  | v (n : Nat)
  | c (n : Nat)
  | p (n : Nat)
  deriving DecidableEq, Repr

/-- A value bound for a register (R89, R91). -/
inductive Wr where
  | x (n : Nat) (val : W64)
  | v (n : Nat) (val : V2048)
  | c (n : Nat) (val : Bool)
  | p (n : Nat) (val : W64)
  /-- No register: the entry carries flags alone (R104). -/
  | flags
  deriving DecidableEq, Repr

/-- A fixed-latency write in flight: its landing cycle, the issue number of its bundle, its flags and whether they go
to VFLAGS (R89, R90, R104), and the cluster cycle before which this stepping does not deliver it (R93). -/
structure Pend where
  wr : Wr
  due : Nat
  seq : Nat
  fl : BitVec 5 := 0
  toV : Bool := false
  arr : Nat := 0
  deriving DecidableEq, Repr

/-- An interlocked result in flight: the registers it will write, and the writes once they are known (R91). For a result that
several accesses make up: what they have brought so far, how many are still to come, and the lowest in order that failed, with
its address (R103); the failing words logged for it. blk: a load that missed, or one at a pigeonhole bank, whose wait is BLOCK (R88, R127). -/
structure Inflight where
  id : Nat
  dsts : List Reg
  seq : Nat
  val : Option (List Wr) := none
  fl : BitVec 5 := 0
  acc : V2048 := 0
  left : Nat := 0
  failed : Option (Nat × W64) := none
  badWords : List Nat := []
  blk : Bool := false
  deriving DecidableEq, Repr

/-- An entry of the shadow result buffer: the write (or the register it lost, R104), the offset k, the flags. -/
structure Shadow where
  wr : Wr
  noVal : Bool := false
  k : Nat
  fl : BitVec 5 := 0
  toV : Bool := false
  deriving DecidableEq, Repr

/-- The read-modify-writes of Table 34, acas and ahist (R227 to R230). -/
inductive AmoOp where
  | add | and | or | xchg | maxs | mins | addf | fx | cas | hist
  deriving DecidableEq, Repr

/-- What an access does where it is performed: a load of a size code, a store of n bytes, an atomic operation, n bytes for a
vector register from bit b on, 4 bytes for every active lane of one, an element of vsctadd.f32 or vsctadd.s32 (R125, R160 to R167,
R228). -/
inductive MemOp where
  | load (z : Nat)
  | store (n : Nat)
  | amo (op : AmoOp)
  | lane (n b : Nat)
  | bcst
  | addEl (float : Bool)
  deriving DecidableEq, Repr

/-- An access that has issued and is not yet performed (R127, R255, R270): the context, the home and the virtual address, the
operation and its operands, the interlocked result that waits for it and its destination, its bundle, slot and issue number, its place
among the elements of its slot, the REASON of its MEMERR, and the cluster cycle in which it reaches its memory. -/
structure MemReq where
  ctx : Nat := 0
  pa : Nat
  va : W64
  op : MemOp
  arg : W64 := 0
  arg2 : W64 := 0
  id : Nat := 0
  dst : Nat := 0
  bpc : W64 := 0
  slot : Nat := 0
  ord : Nat := 0
  reason : Nat := 1
  due : Nat := 0
  seq : Nat := 0
  deriving DecidableEq, Repr

/-- The engine stream a queue register is bound to (R11 to R14): a ring of the context, an accumulator drain of an
engine, or a sorting-office delivery. -/
inductive Stream where
  | ring (r : Nat)
  | drain (e : Nat)
  | delivery (sid : Nat)
  deriving DecidableEq, Repr

/-- A scalar queue register, head first (R12 to R14). -/
structure XQueue where
  ents : List W64 := []
  bound : Option Stream := none
  deriving DecidableEq, Repr

/-- A vector queue register, head first. -/
structure VQueue where
  ents : List V2048 := []
  bound : Option Stream := none
  deriving DecidableEq, Repr

/-- The error record of a timeline: the lowest-numbered operation that failed, the address, the code of Table 33, the
side, and how many further operations failed (R17, R189, R236). -/
structure TlErr where
  num : Nat
  addr : W64
  code : Nat
  side : Nat := 0
  more : Nat := 0
  deriving DecidableEq, Repr

/-- A timeline (R16, R17): its counters, the operations above DONE that have completed, those above VIS that are
visible, those that have failed, and its error record when it is in ERROR. -/
structure Timeline where
  issue : Nat := 0
  done : Nat := 0
  vis : Nat := 0
  fin : List Nat := []
  seen : List Nat := []
  failed : List Nat := []
  err : Option TlErr := none
  deriving DecidableEq, Repr

/-- An entry of the return stack: an address, or the sequencer's mark (R98, R310). -/
inductive RetEntry where
  | addr (a : W64)
  | mark
  deriving DecidableEq, Repr

/-- The loop buffer (R97): body address and length, position, iterations left, whether a trap suspended it, whether it
is skipping a body of count 0, and the bundles it holds by address. -/
structure LoopBuf where
  body : W64
  len : Nat
  pos : Nat
  left : Nat
  suspended : Bool := false
  words : List (Nat × List Nat) := []
  deriving DecidableEq, Repr

/-- The current code segment (R359). -/
structure Segment where
  segid : Nat := 0
  text : W64 := 0
  nblk : Nat := 0
  tags : W64 := 0
  slot : Nat := 0
  deriving DecidableEq, Repr

/-- The sequencer's state (R310, Table 23): the record's address, PART, TRUN, OVR, STEP, ACTIVE, the captured trip
count, the iteration index and the return point; with the words of the running record, the part that ran last, the condition
word read, whether a trap holds the pending step back until eret, the bundle after which the sequencer acts (R312), and
whether the context stands at the start of a record or of a preemptible iteration, no bundle of it issued (R107). -/
structure SeqState where
  record : W64 := 0
  part : Nat := 0
  trun : Bool := false
  ovr : Option W64 := none
  step : Nat := 0
  active : Bool := false
  trip : Nat := 0
  iter : Nat := 0
  word : W64 := 0
  retPt : W64 := 0
  words : List W64 := []
  last : Nat := 0
  susp : Bool := false
  from_ : W64 := 0
  fresh : Bool := false
  deriving DecidableEq, Repr

/-- For whom an access is made: the slot of the team, and whether at MONITOR (R354). -/
structure Agent where
  slot : Option Nat := none
  monitor : Bool := false
  deriving DecidableEq, Repr

/-- An engine operation: the context and timeline it was issued on, its number, and for whom and at what level it acts
(R16, R286, R354). -/
structure Op where
  ctx : Nat
  tl : Nat
  num : Nat
  user : Bool := true
  agent : Agent := {}
  deriving DecidableEq, Repr

/-- What a ring command still waits for (R191 to R198): an IN or RECV ring's rows from one to another to land; k rows to be
retired; an IN ring's rows fetched again; of n rows of an OUT ring those not yet written; n rows of a wrout that has completed to be
retired; registration with the source; or every earlier wrout. -/
inductive RingWait where
  | landed (lo upto : Nat)
  | adv (k : Nat)
  | flush (rows : List Nat)
  | out (done n : Nat)
  | retire (n : Nat)
  | reg
  | outs
  deriving DecidableEq, Repr

/-- A row of a ring of which some granules have been written (R259): its number, whether a wrflush fetches it again, the free values
that select the granules, the row's bytes, and its flags. -/
structure RowPart where
  row : Nat
  again : Bool := false
  free : Nat
  val : Nat
  fl : BitVec 5 := 0
  deriving DecidableEq, Repr

/-- A ring (R190 to R199). Rows are numbered from 0 at set-up; row a stands in slot a mod DEPTH. first is the oldest row
held; the rows below landed have landed, and of an IN ring being freed those of extra too; next counts the record rows written, cmds
the commands outstanding in order, dests the destinations by gang index: 0 once dropped, else 1 + its credits, bind the vector queue,
chunk and next row of a binding, freeing the wrfrees that wait, part the row that is half written. -/
structure Ring where
  mode : Nat
  rowel : Nat
  len : Nat
  depth : Nat
  conv : Nat
  lsb : Nat
  handle : Nat
  tr : List W64
  o0 : Nat
  o1 : Nat
  i2 : Nat
  i3 : Nat
  dctx : Nat
  dring : Nat
  mcn : Nat
  mcf : Nat
  first : Nat := 0
  landed : Nat := 0
  extra : List Nat := []
  next : Nat := 0
  cmds : List (Op × RingWait) := []
  dests : Map Nat := []
  registered : Bool := false
  bind : Option (Nat × Nat × Nat) := none
  freeing : Option (List Op) := none
  part : Option RowPart := none
  deriving DecidableEq, Repr

/-- Where a context stands: not started, running, exiting (R117), stopped for pre-emption, saved out (R107). -/
inductive Live where
  | off | run | exiting | stopped | saved
  deriving DecidableEq, Repr

/-- The states of Table 19 (R88). -/
inductive CState where
  | issue | wait | stall | block | held | fetch | compensate | preempted
  deriving DecidableEq, Repr

/-- A trap: Table 21. -/
structure Trap where
  cause : Nat
  addr : W64 := 0
  reason : Nat := 0
  detail : Nat := 0
  slot : Nat := 0
  deriving DecidableEq, Repr

/-- A context's current task (R243): the queue or heap it came from, and its entry or packed word. -/
structure CurTask where
  heap : Bool
  site : Nat
  ix : Nat
  word : W64
  deriving DecidableEq, Repr

/-- One context (R6, R9, R10). Register files list only the registers written since the start (R9: the rest are zero). -/
structure Ctx where
  live : Live := .off
  cstate : CState := .fetch
  pc : W64 := 0
  xs : Map W64 := []
  qs : Map XQueue := []
  cs : BitVec 8 := 0
  vs : Map V2048 := []
  vqs : Map VQueue := []
  ps : Map W64 := []
  tls : Map Timeline := []
  rstack : List RetEntry := []
  lbuf : Option LoopBuf := none
  fetchBuf : Option (Nat × BitVec 2048) := none
  /-- A block whose words have been read from memory and whose tag entry has not (R363). -/
  fetchHalf : Option (Nat × BitVec 2048) := none
  /-- Wait cycles left before the next bundle issues, where not the bundle's own W (R105). -/
  waitLeft : Option Nat := none
  ccount : Nat := 0
  /-- The issue number of the next bundle; 0 stands for nothing issued. -/
  seq : Nat := 1
  pending : List Pend := []
  /-- Format pairs set and not yet landed: engine, na, nb, and the cluster cycle before which this stepping does not deliver them
  (R93, R173, R178). -/
  fmts : List (Nat × Nat × Nat × Nat) := []
  inflight : List Inflight := []
  /-- Accesses issued and not yet performed, in program order (R255). -/
  posted : List MemReq := []
  nextId : Nat := 0
  shadow : List Shadow := []
  /-- Interlocked results must land before the next bundle issues (R104). -/
  settle : Bool := false
  fctl : W64 := 0
  vflags : W64 := 0
  priv : Nat := 0
  ppriv : Nat := 0
  sealedCtx : Bool := false
  trapCause : Nat := 0
  trapShadow : Bool := false
  trapWrem : Nat := 0
  trapPc : W64 := 0
  trapAddr : W64 := 0
  trapInfo : W64 := 0
  trapVec : W64 := 0
  stkSpill : W64 := 0
  ckptBase : W64 := 0
  /-- Dirty bits (R109): bits 0 to 63 scalar domain, 64 to 95 vector, 96 to 103 predicate. -/
  dirty : BitVec 104 := BitVec.allOnes 104
  yielded : Bool := false
  phase : Nat := 0
  sqr : SeqState := {}
  seg : Segment := {}
  /-- The trap a context exited on; the deferred MEMERRs and TASKFAULTs not yet taken, oldest first (R102, R103, R314). -/
  exitTrap : Option Trap := none
  memErrs : List Trap := []
  taskFaults : List Trap := []
  /-- The scope of a fence the context still waits for (R131). -/
  fence : Option Nat := none
  /-- The active rings 0 to 15 (R190). -/
  rings : Map Ring := []
  /-- The bundle is held by a waiting instruction (R226). -/
  waiting : Bool := false
  /-- Killed while the bundle whose pop was answered had not issued (R307). -/
  killed : Bool := false
  /-- KSSEL, RESSEL and PMSEL (R372). -/
  ksSel : Nat := 0
  resSel : Nat := 0
  pmSel : Nat := 0
  /-- ICZSEL (R345). -/
  iczSel : Nat := 0
  task : Option CurTask := none
  /-- tlerr results under way: the interlocked result, the timeline, the pair (R236). -/
  tlErrs : List (Nat × Nat × Nat) := []
  /-- WQSEL and HPSEL (R318). -/
  wqSel : Nat := 0
  hpSel : Nat := 0
  deriving DecidableEq, Repr

/-! ## A cluster -/

/-- A line of the L1: its slice offset div 128, its 128 bytes and the bytes made dirty (R254, R268). -/
structure L1Line where
  line : Nat
  data : BitVec 1024
  dirty : BitVec 128
  /-- The parity of its tag fails (R283). -/
  parity : Bool := false
  /-- The slot plus 1 under whose data keys it came from its home, or 0 (R356). -/
  key : Nat := 0
  deriving DecidableEq, Repr

/-- A cached leaf (R287): the level, VA div the page size, the entry, and whether its parity fails (R283). -/
structure TlbEnt where
  level : Nat
  vpn : Nat
  pte : W64
  parity : Bool := false
  deriving DecidableEq, Repr

/-- Power states of a bank or bank set (R267, R281). -/
inductive Power where
  | on | nap | retain | deep
  deriving DecidableEq, Repr

/-- A write-queue entry (R276, R277): the 64-byte range (slice offset div 64), the byte mask, the CYCLE at which it was taken, and
the elements with pending reductions: the byte in the range, the bytes of the element, how many are pending. -/
structure WqEnt where
  range : Nat
  mask : BitVec 64
  born : Nat := 0
  chains : List (Nat × Nat × Nat) := []
  deriving DecidableEq, Repr

/-- Retirement of a channel (R273, R274). -/
inductive ChanState where
  | normal | spare | reduce | waitVac
  deriving DecidableEq, Repr

/-- A bank map entry's counts of mapped pages, heat classes 0 to 7 (R280). -/
abbrev HeatCounts := List Nat

/-- A block held by the instruction cache, as stored: its address div 256, its words and its tag entry (R268, R360). -/
structure ICLine where
  blk : Nat
  text : BitVec 2048
  tag : BitVec 128
  deriving DecidableEq, Repr

/-- The team a cluster serves (R35, R302): team number, gang number, index and size, team size, the rank table (global
cluster numbers by rank), and the key slot of a sealed team (R353). -/
structure TeamInfo where
  team : Nat := 0
  gang : Nat := 0
  gangIx : Nat := 0
  gangSize : Nat := 0
  rbase : Nat := 0
  ranks : List Nat := []
  slot : Option Nat := none
  deriving DecidableEq, Repr

/-- The stores of an accumulator (R187). -/
inductive MstKind where
  | f32 | bf16 | kb
  deriving DecidableEq, Repr

/-- What a command of an engine queue does (R170): an mma with its captured formats and the slots of its repetitions, a
zeroing, a drain, a row read with or without zeroing, a row write, a store through a record. -/
inductive EngDo where
  | mma (ac mode na nb : Nat) (reps : List (Nat × Nat)) (rpt : Bool)
  | mzero (ac : Nat)
  | mdrain (ac vq : Nat)
  | mrd (ac row id vd : Nat) (clear : Bool)
  | mwrv (ac row : Nat) (v : V2048)
  | mst (k : MstKind) (ac : Nat) (tile : W64) (rec : List W64)
  deriving DecidableEq, Repr

/-- A command of an engine queue, with the stamp of cluster issue order (R170, R176) and the cluster cycle in which it issued. -/
structure EngCmd where
  op : Op
  stamp : Nat
  act : EngDo
  born : Nat := 0
  deriving DecidableEq, Repr

/-- The command an engine executes; the repetition it has accepted: its slots and its stamp (R96, R176); and of an accumulator
store under way, the free values by which it has written some of its granules (R259). -/
structure EngRun where
  cmd : EngCmd
  cur : Option (Nat × Nat × Nat) := none
  half : Option Nat := none
  deriving DecidableEq, Repr

/-- A drain buffer: its context, the vector queue it is bound to, and the rows not yet delivered (R185). -/
structure Drain where
  ctx : Nat
  vq : Nat
  rows : List V2048
  deriving DecidableEq, Repr

/-- A matrix engine: its command queue, what it executes, its drain buffers, its format pair (R170 to R173). -/
structure Engine where
  queue : List EngCmd := []
  run : Option EngRun := none
  drains : List Drain := []
  na : Nat := 8
  nb : Nat := 8
  deriving DecidableEq, Repr

/-- A load of an operand slot under way (R181, R182): from a record, or from rows of a ring of its context. -/
inductive LoadFrom where
  | tile (tile : W64) (rec : List W64)
  | ring (r blk0 row : Nat)
  deriving DecidableEq, Repr

structure LoadCmd where
  op : Op
  stamp : Nat
  slot : Nat
  vr : Nat
  vk : Nat
  n : Nat
  src : LoadFrom
  deriving DecidableEq, Repr

/-- The metadata of an operand slot (R171). -/
structure ObMeta where
  vr : Nat := 0
  vk : Nat := 0
  ln : Nat := 0
  deriving DecidableEq, Repr

/-- An ostat whose sample waits for the loads issued before it (R180). -/
structure OstatWait where
  ctx : Nat
  id : Nat
  dst : Nat
  slot : Nat
  stamp : Nat
  deriving DecidableEq, Repr

/-- The remote operations (R209); getacc carries its operation AUX[2:0]. -/
inductive RemKind where
  | get | put | addf | adds | fx | maxf | minf | rcas | getro
  | getacc (k : Nat)
  deriving DecidableEq, Repr

/-- The tag of an access (R202). -/
inductive Tag where
  | none
  | fence (n : Nat)
  | post (n : Nat)
  | lock (n : Nat)
  deriving DecidableEq, Repr

/-- A packet of a remote operation (R325): the operation with its remote address word, the access it is part of, its kind, its
target rank and window, its tag, offset, length and payload, the local address its answer goes to, its token once translated, whether
it is ordered and its sequence number (R327), for a dispatch row the delivery entry it leaves (R220), for a get of a combine the choice
it serves (R221), and once accepted the cycle of its target's cluster from which it may be applied (R259) and the base of its window
there (R329); the local address of an operand that is still to be read again, and of an answer's data of which some elements have been
written, each with the free values that select the elements (R259); for a packet released before its group's tag has been checked, the
Iczer port and the group's stamp (R339). -/
structure Packet where
  op : Op
  acc : Nat
  kind : RemKind
  rank : Nat
  win : Nat
  tag : Tag
  off : Nat
  len : Nat
  data : Nat := 0
  back : Nat := 0
  token : Option (Nat × Nat) := none
  ordered : Bool := false
  seq : Nat := 0
  entry : Option (Nat × W64) := none
  ra : W64 := 0
  row : Option Nat := none
  due : Nat := 0
  base : Nat := 0
  late : Option (Nat × Nat) := none
  half : Option Nat := none
  early : Option (Nat × Nat) := none
  deriving DecidableEq, Repr

/-- An access to one target that is not yet visible there: its number, its operation, window, rank and tag, the packets not yet
accepted and not yet applied (R210), its flags so far (R209), the tokens invalidated while it was under way (R332), whether it is a
get of a combine, which completes by itself (R221), and the operation's remote address word. -/
structure Access where
  id : Nat
  op : Op
  win : Nat
  rank : Nat
  tag : Tag
  unacc : Nat
  unapp : Nat
  fl : BitVec 5 := 0
  dead : List (Nat × Nat) := []
  part : Bool := false
  ra : W64 := 0
  deriving DecidableEq, Repr

/-- What happens when the accesses a command waits for have passed VIS or failed (R203 to R207). -/
inductive WinAct where
  | flush
  | unlock (win rank : Nat)
  | compl (win first count : Nat)
  | fence (win flags k : Nat)
  deriving DecidableEq, Repr

structure WinWait where
  op : Op
  ids : List Nat
  act : WinAct
  deriving DecidableEq, Repr

/-- A started access epoch of a context (R204): its window and group, the exposure number of each target that has
posted, the wstart that waits, and the wcompl with the targets still to be notified. -/
structure Epoch where
  ctx : Nat
  win : Nat
  first : Nat
  count : Nat
  nums : Map Nat := []
  start : Option Op := none
  ending : Option (Op × Nat) := none
  deriving DecidableEq, Repr

/-- A lock request (R205). -/
structure LockReq where
  op : Op
  rank : Nat
  excl : Bool
  deriving DecidableEq, Repr

/-- A franking entry (R202, R328). state: 0 free, 1 CLOSED, 2 FENCE_OPEN, 3 POSTED; acc, put, get: the rights. -/
structure Frank where
  state : Nat := 0
  num : Nat := 0
  tainted : Bool := false
  first : Nat := 0
  count : Nat := 0
  /-- Ranks that have completed to this exposure, and the wwait that waits. -/
  compl : List Nat := []
  wait : Option Op := none
  /-- Lock holders: context, grant number, exclusive. -/
  holders : List (Nat × Nat × Bool) := []
  queue : List LockReq := []
  grants : Nat := 0
  acc : Bool := false
  put : Bool := false
  get : Bool := false
  skid : Bool := false
  base : Nat := 0
  len : Nat := 0
  rej : Nat := 0
  lastOrg : Nat := 0
  deriving DecidableEq, Repr

/-- A token table entry (R331). state: 0 FREE, 1 LIVE, 2 REVOKING. rd and wr: what the page's leaf permits (R286). wait: the holders
that have not acknowledged its invalidation, acks of them (R332). -/
structure Token where
  win : Nat := 0
  va : Nat := 0
  home : Nat := 0
  size : Nat := 0
  gen : Nat := 0
  holders : List Nat := []
  bcast : Bool := false
  state : Nat := 0
  age : Nat := 0
  acks : Nat := 0
  wait : List Nat := []
  rd : Bool := true
  wr : Bool := true
  deriving DecidableEq, Repr

/-- A remote translation cache entry (R330): rank, window, the offsets it covers, the token's GEN and INDEX, and what it permits. -/
structure RtcEnt where
  rank : Nat
  win : Nat
  lo : Nat
  hi : Nat
  gen : Nat
  ix : Nat
  rd : Bool := true
  wr : Bool := true
  deriving DecidableEq, Repr

/-- What a member's office has announced of a communicator command (R216, R334): the member's rank, the identifier,
cancel count and place of the command, the fields that matched commands must agree on, whether it recorded BADARG, and the
operation, where it is under way. -/
structure HeadNote where
  rank : Nat
  id : Nat
  cc : Nat
  k : Nat
  sig : List Nat
  bad : Bool := false
  op : Option Op := none
  deriving DecidableEq, Repr

/-- A barrier object (R231): E, P, the arrivals at its open phases (phase and context), the contexts that wait on it, and
those whose wait a barset has ended. -/
structure Bar where
  e : Nat := 4
  p : Nat := 0
  arr : List (Nat × Nat) := []
  waits : List Nat := []
  resets : List Nat := []
  deriving DecidableEq, Repr

/-- A pgmap under way (R251): its operation, address and entry, and whether its context is sealed (R354). -/
structure PgCmd where
  op : Op
  va : W64
  pte : W64
  sealedCtx : Bool
  deriving DecidableEq, Repr

/-- One cluster of a site. Unless a comment says otherwise a field is the register of its name. -/
structure Cluster where
  cycle : Nat := 0
  lsBase : Nat := 0
  lsLim : Nat := 0
  sbMode : Bool := false
  recBase : W64 := 0
  recLim : Nat := 0
  /-- Owners of ac0 to ac7, ob0 to ob31, MFMT.0 and MFMT.1, by index (R18, R32). -/
  accOwn : Map Nat := []
  obOwn : Map Nat := []
  mfmtOwn : Map Nat := []
  ptroot : W64 := 0
  /-- Power state of each local-store bank (R267, LSPWR): 0 ON, 1 RETAIN, 2 OFF. -/
  lsPwr : Map Nat := []
  deepen : Bool := true
  retIdle : Nat := 65536
  napIdle : Nat := 256
  /-- Mapped pages by quarter × 8 + heat class; pages in the upper third by quarter (R273, R280). -/
  heat : Map Nat := []
  upper : Map Nat := []
  /-- Power state by quarter × 4 + channel (R281). -/
  bankPwr : Map Power := []
  /-- Site channel numbers of CH0 to CH2 once they differ from the fused ones (R272, R290). -/
  chans : Option (List Nat) := none
  chState : ChanState := .normal
  /-- The channel index being retired, and the spare taking its place (R273). -/
  retiring : Option (Nat × Option Nat) := none
  cethr : Nat := 4096
  mbnd : Nat := 0
  wqHi : Nat := 48
  wqLo : Nat := 16
  rhThr : Nat := 1024
  ceCnt : Nat := 0
  merrAddr : W64 := 0
  merrStat : Nat := 0
  tlb : List TlbEnt := []
  engTlb : List TlbEnt := []
  /-- Outstanding invalidations of tlbinv and rtcinv (R238). -/
  tlbInv : List Nat := []
  rtcInv : Nat := 0
  /-- Cached tensor records by handle, and getro replicas by remote address word (R25, R213, R269). -/
  recCache : Map (List W64) := []
  replicas : List (W64 × Nat × BitVec 1024) := []
  l1 : List L1Line := []
  /-- Lines asked for by pref and not yet filled (R132, R268). -/
  l1Miss : List Nat := []
  /-- By line, the key it is to be filled under: the slot plus 1, or 0 (R356). -/
  missKeys : Map Nat := []
  icache : List ICLine := []
  /-- Write queues by channel (R276). -/
  wqs : Map (List WqEnt) := []
  /-- Row activation counters (R279). -/
  rowCnt : Map Nat := []
  /-- The last primary context of the merge stage (R95). -/
  primary : Nat := 3
  ti : TeamInfo := {}
  engines : Map Engine := []
  loader : List LoadCmd := []
  obMeta : Map ObMeta := []
  /-- The next stamp of cluster issue order (R170). -/
  stamp : Nat := 0
  ostats : List OstatWait := []
  /-- The franking table by window id (R328). -/
  frank : Map Frank := []
  /-- The token table (R331). -/
  tokens : Map Token := []
  tokAge : Nat := 0
  /-- The remote translation cache, most recent first, its MISSES, and the packets that wait for a reply (R330). -/
  rtc : List RtcEnt := []
  rtcMisses : Nat := 0
  rtcWait : List Packet := []
  /-- Accesses issued and not yet visible, and the commands that wait for some of them (R210). -/
  accs : List Access := []
  winWaits : List WinWait := []
  /-- The member's fence epoch by window, 0 for none, and the contexts and windows with a wfence under way (R203); access
  epochs; posts received: window, rank, number. -/
  fences : Map Nat := []
  shut : List (Nat × Nat) := []
  epochs : List Epoch := []
  posts : List (Nat × Nat × Nat) := []
  /-- Locks held: context, window, rank, grant (R205); locks asked for: operation, window, rank. -/
  locks : List (Nat × Nat × Nat × Nat) := []
  lockAsks : List (Op × Nat × Nat) := []
  /-- Window commands that wait for a member of another panel, with that member's cluster (R340, R344). -/
  unacked : List (Op × Nat) := []
  /-- Collective window commands issued so far, by window (R201). -/
  winSeq : Map Nat := []
  /-- The number of the next packet to each target, by origin context × 2^17 + rank, modulo 2^24, the numbers not yet resolved,
  oldest first, and the packets held back; and at the port, by origin context: the count below which every packet is resolved and the
  numbers resolved above it (R327). -/
  seqOut : Map Nat := []
  seqLive : List (Nat × Nat) := []
  seqHeld : List Packet := []
  resolved : Map Nat := []
  resolvedAbove : List (Nat × Nat) := []
  /-- Packets accepted at the port and not yet applied, in order of arrival (R263, R327, R332). -/
  held : List Packet := []
  /-- The member's cancel count and the place of its next command, by communicator (R216, R224); announcements heard;
  its cancels that have not reached every member. -/
  commCancel : Map Nat := []
  commSeq : Map Nat := []
  heads : List HeadNote := []
  cancels : List (Op × Nat) := []
  /-- Of the gang whose first cluster this is: its barrier objects, its contexts that have exited (R231, R316). -/
  bars : Map Bar := []
  gone : List Nat := []
  /-- pgmap operations under way. -/
  pgmaps : List PgCmd := []
  /-- CYCLE at the last access of each bank set, by quarter × 4 + channel (R281). -/
  setUsed : Map Nat := []
  /-- The CYCLEs of each channel's correctable events in the last 2^30 (R273). -/
  chEvents : Map (List Nat) := []
  /-- Row counters whose check fails (R279). -/
  rowBad : List Nat := []
  /-- The slice cache's lines by set, most recent first (R269). -/
  slc : Map (List Nat) := []
  /-- Lines of the slice cache whose tag's parity fails (R283). -/
  slcBad : List Nat := []
  /-- Frames of the slice that an access has reached through a leaf with ENC = 1 (R356, R357). -/
  encFrames : List Nat := []
  /-- Pages that an engine operation has translated: its context, timeline and number (R287). -/
  opTlb : List (Nat × Nat × Nat × TlbEnt) := []
  /-- KBND (R372). -/
  kbActive : Bool := false
  kbSlot : Nat := 0
  kbPos : Nat := 0
  /-- CLSAVE.BASE and GMSTAT.SAVEFAIL (R318). -/
  clSave : Nat := 0
  saveFail : Bool := false
  deriving DecidableEq, Repr

/-! ## A site -/

/-- An entry of the error log: its four words (R382). -/
structure LogEnt where
  w0 : W64
  w1 : W64
  w2 : W64
  w3 : W64
  deriving DecidableEq, Repr

/-- A command of the sorting office (R215 to R222, R334): its operation, its cluster, its communicator word, cancel count
and place; fn 0 dispatch, 1 combine, 2 coll; the block and the records read at issue; the fields that must agree;
whether it has been announced as its channel's head; run 0 waiting, 1 running, 2 a dispatch whose rows are on their
way; the chunks written, the result of a coll with its flags or of a dispatch its prefix; the choices read, token, choice and value,
with the gates of a combine (R219, R221); whether the rows of a combine's chunk have been asked for, and what has come of them: the
choice, the byte in the row, the value; the chunks of SRC that the member's office has passed on (R336); and of a result of which some
granules have been written the free values that select them (R259). -/
structure SortCmd where
  op : Op
  cl : Nat
  word : W64
  cc : Nat
  k : Nat
  fn : Nat
  blk : List W64
  recs : List (List W64)
  sig : List Nat
  said : Bool := false
  run : Nat := 0
  chunks : Nat := 0
  result : Option (Nat × BitVec 5) := none
  route : List (Nat × Nat × Int) := []
  gates : List (Nat × Nat × Int) := []
  asked : Bool := false
  rows : List (Nat × Nat × Nat) := []
  next : Nat := 0
  half : Option Nat := none
  deriving DecidableEq, Repr

/-- A substrate link as one end sees it (R324, LNKSTAT): retrains, spare lanes left, width 0 full, 1 half, 2 quarter, 3 down. -/
structure Link where
  retrain : Nat := 0
  spares : Nat := 4
  width : Nat := 0
  deriving DecidableEq, Repr

/-- A pop waiting at its engine, with its answer once it has one: the flag and D (R226, R241, R247). -/
structure Waiter where
  ctx : Nat
  ans : Option (Bool × W64) := none
  deriving DecidableEq, Repr

/-- A work queue (R313): OWNER, the team of that context when WQCFG was written (R314), V, TEAM, LOG2SZ and BASE of WQCFG; WQFREC; the indices of the head and past the tail, the
slots cancelled, CLOSED and FROZEN, whether a fault record stands (R314), operations applied, the entries taken last (value,
taker, operation number), and the pops that wait. -/
structure WorkQ where
  owner : Nat := 0
  ownTeam : Nat := 0
  v : Bool := false
  team : Nat := 0
  log2 : Nat := 4
  base : Nat := 0
  frec : Nat := 0
  head : Nat := 0
  tail : Nat := 0
  gone : List Nat := []
  closed : Bool := false
  frozen : Bool := false
  written : Bool := false
  ops : Nat := 0
  taken : List (W64 × Nat × Nat) := []
  waits : List Waiter := []
  deriving DecidableEq, Repr

/-- A task of a heap (R246): gain, state 0 ABSENT, 1 QUEUED, 2 RUNNING, p, entry time. -/
structure HTask where
  g : Nat := 0
  st : Nat := 0
  p : Nat := 0
  time : Nat := 0
  deriving DecidableEq, Repr

/-- A heap engine (R315, R318), with the team of OWNER's context when HPCFG was written (R314). -/
structure Heap where
  owner : Nat := 0
  ownTeam : Nat := 0
  v : Bool := false
  team : Nat := 0
  age : Nat := 0
  rshift : Nat := 0
  cap : Nat := 65536
  floor : Nat := 0
  tol : W64 := 0
  init : W64 := 0x7FFFFFFFFFFFFFFF
  res : W64 := 0x7FFFFFFFFFFFFFFF
  frec : Nat := 0
  tasks : Map HTask := []
  drained : Bool := false
  frozen : Bool := false
  written : Bool := false
  pops : Nat := 0
  ops : Nat := 0
  waits : List Waiter := []
  deriving DecidableEq, Repr

/-- The states of a key slot (R346). -/
inductive SlotState where
  | empty | loaded | bound | rotating | zeroised
  deriving DecidableEq, Repr

/-- A key slot (R346, R351): its keys, SIGNER, binding digest, session and post boxes. -/
structure KeySlot where
  st : SlotState := .empty
  dataKey : BitVec 512 := 0
  codeKey : BitVec 256 := 0
  newKey : BitVec 512 := 0
  signer : W384 := 0
  bd : W384 := 0
  session : Nat := 0
  pbFirst : Nat := 0
  pbCount : Nat := 0
  deriving DecidableEq, Repr

/-- The scrub engine of a site (R364): its list store and SCRUBPROG. -/
structure Scrub where
  active : Bool := false
  result : Nat := 0
  slot : Nat := 0
  entry : Nat := 0
  n : Nat := 0
  unit : Nat := 0
  words : List W64 := []
  deriving DecidableEq, Repr

/-- What the fuses of a site fix: the clusters enabled for gangs, the monitor cluster, the spare channels (R1, R380, R388). -/
structure Fuses where
  clen : BitVec 84
  moncl : Nat
  pool : List Nat
  deriving DecidableEq, Repr

/-- A KS-S64 site: 80 clusters enabled, 3 spare, 16 spare channels; and a KS-S64L site: 72, 11 and 40 (R1; log 2). -/
def Fuses.s64 : Fuses := { clen := BitVec.ofNat 84 (2 ^ 80 - 1), moncl := 80, pool := List.range' 240 16 }
def Fuses.s64L : Fuses := { clen := BitVec.ofNat 84 (2 ^ 72 - 1), moncl := 80, pool := List.range' 216 40 }

/-- One site. -/
structure Site where
  fuses : Fuses := .s64
  /-- Clusters enabled still, and the monitor cluster (R32, R380). -/
  clen : BitVec 84 := BitVec.ofNat 84 (2 ^ 80 - 1)
  moncl : Nat := 80
  /-- Spare channels of the site's pool (R273). -/
  sparePool : List Nat := List.range' 240 16
  /-- Seal tags by frame: 0 FREE, k + 1 for slot k; the number of a frame is the space's base plus its index (R354). -/
  tags : Map Nat := []
  /-- Requests under way to the pigeonhole banks, in arrival order (R270). -/
  pigQueue : List MemReq := []
  /-- Key slots 0 to 63 (R346). -/
  slots : Map KeySlot := []
  /-- The error log by entry number mod 1,024, the number of the next entry, LOST, and the next entry's number when ELSTAT
  was last read (R382, R383). -/
  elog : Map LogEnt := []
  elHead : Nat := 0
  elLost : Nat := 0
  elRead : Nat := 0
  /-- The sorting office: its commands in issue order, and the channel whose chunk it moved last (R334, R336). -/
  office : List SortCmd := []
  lastCh : Nat := 7
  /-- Links 0 to 13 of the switch die (R319, R324), and MBCTL.WAIT. -/
  links : Map Link := []
  mbWait : Nat := 8
  /-- Work queues and heap engines (R313, R315). -/
  queues : Map WorkQ := []
  heaps : Map Heap := []
  /-- RESLOCK: the slot plus 1 by cluster index (R351). -/
  resLock : Map Nat := []
  scrub : Scrub := {}
  /-- SEALHDR, SEALCTL, SEALPAR (NSITE, NGANG, NCL) and SEALREQ (R372). -/
  sealHdr : Nat := 0
  sealSlot : Nat := 0
  sealPar : Nat × Nat × Nat := (0, 0, 0)
  sealPending : Bool := false
  sealPb : Nat := 0
  /-- The digests of the last 16 segments verified (R359). -/
  verified : List W384 := []
  /-- PMBASE, ASBASE and CVBASE (R318). -/
  pmBase : Nat := 0
  asBase : Nat := 0
  cvBase : Nat := 0
  cvEn : Bool := false
  /-- SITECTL.EXPERT; in service, key slots available (SITECAP); the stage a restart of this site has reached, whether
  its stage 4 fills the HBM (R378), and whether its supply is removed (R376, R384); ACLK steps down from the nominal, and the DVFS setting (R384). -/
  expert : Bool := false
  present : Bool := true
  sealOk : Bool := true
  stage : Option Nat := none
  fill : Bool := false
  off : Bool := false
  throttle : Nat := 0
  dvfs : W64 := 0
  deriving DecidableEq, Repr

/-- A site before start-up, with its fuses. -/
def Site.fused (f : Fuses) : Site := { fuses := f, clen := f.clen, moncl := f.moncl, sparePool := f.pool }

/-! ## The machine -/

/-- How the bundle being issued has fared so far (R99, R100). -/
inductive Verdict where
  | ok
  | trapped (t : Trap)
  | held (c : CState)
  deriving DecidableEq, Repr

/-- Effects that land in the cycle after the bundle's (t + 1): a system-register write (R249), the bounds that a segenter sets (R226,
R359), a format pair (R183), a
declared phase (R237), a waiting instruction's result (R226). -/
inductive Late where
  | csr (n : Nat) (v : W64)
  | lsBounds (lo hi : Nat)
  | mfmt (e na nb : Nat)
  | phase (l : Nat)
  | arrive (id : Nat)
  deriving DecidableEq, Repr

/-- What a waiting instruction leaves at its engine while it waits (R226): a pop of a queue or heap, or a place among the
waiters of a barrier object. -/
inductive Keep where
  | qpop (site q : Nat)
  | hpop (site h : Nat)
  | bar (cl obj : Nat)
  deriving DecidableEq, Repr

/-- The bundle being issued: the slot, its address and its successor's, the ext before the slot (R65), the rpt of its
mma (R96), the queue registers later slots pop (R13), the verdict, the target of its transfer, and whether its ret
popped the mark of a sequencer part (R310), what lands in the next cycle, whether a waiting instruction holds it, what
that leaves at its engine, the blocks that a segseal resealed before it trapped (R361), the unit whose latency class the slot
has (R33): 0 ALU, 1 MD, 2 FP, 3 VEC, 4 vkbpack and vkbscale, 5 pcnt; and ISSUE of each timeline as the bundle found it (R234). -/
structure Issue where
  slot : Nat := 0
  bpc : W64 := 0
  next : W64 := 0
  ext : Option (BitVec 21) := none
  rpt : Option (Nat × Nat × Nat × Int × Int) := none
  later : List Reg := []
  verdict : Verdict := .ok
  target : Option W64 := none
  partEnd : Bool := false
  late : List Late := []
  waits : Bool := false
  keep : Option Keep := none
  unit : Nat := 0
  issued : Option (List Nat) := none
  resealed : Option (Bool × Nat × Nat) := none
  deriving DecidableEq, Repr

/-- A member's part in a collective window command (R201, R203, R207): its rank, operation, descriptor bits or flags,
whether it records BADARG or was cancelled as it issued, and for wnew the range it exposes; from a member of another panel, its
franking entry as it sent the part (R344). -/
structure WinPart where
  rank : Nat
  op : Op
  word : Nat
  bad : Bool := false
  dead : Bool := false
  base : Nat := 0
  len : Nat := 0
  entry : Option Frank := none
  deriving DecidableEq, Repr

/-- A collective window command that not every member has reached: kind 0 wnew, 1 wfence, 2 wfree, or mixed. -/
structure WinColl where
  team : Nat
  win : Nat
  k : Nat
  parts : List (Nat × WinPart) := []
  deriving DecidableEq, Repr

/-- What a message on the fabric does where it arrives. -/
inductive MsgDo where
  /-- A multicast row of n bytes for a RECV ring, and credits for its source, with the operation behind it (R194, R195). -/
  | ringRow (op : Op) (ctx ring src srcRing data n : Nat)
  | credit (op : Op) (ctx ring destIx n : Nat)
  /-- A request packet, and the answers to one (R210): acceptance, application, data with the whole lines that a getro read (R213), a
  rejection with its code, STALE. -/
  | req (p : Packet)
  | accepted (p : Packet)
  | applied (p : Packet) (fl : BitVec 5)
  | data (p : Packet) (v : Nat) (fl : BitVec 5) (lines : List (Nat × Nat))
  | reject (p : Packet) (code : Nat)
  | stale (p : Packet)
  /-- Translation (R330): the cluster that asks, the rank, window and offset, whether the access reads and writes, the operation's
  remote address word, and whether a full table has begun to make room for it (R331); the reply with a token or a code. -/
  | transReq (src rank win off : Nat) (rd wr : Bool) (ra : W64) (room : Bool)
  | transOk (e : RtcEnt)
  | transFail (rank win off code : Nat) (rd wr : Bool)
  /-- Token invalidation and its acknowledgement (R332). -/
  | inval (port gen ix : Nat)
  | invalAck (ix gen : Nat)
  /-- Window notices (R201 to R205). -/
  | winNotice (kind win k : Nat) (part : WinPart)
  | closeNotice (win k : Nat) (part : WinPart)
  | post (op : Op) (win rank num : Nat)
  | compl (win rank : Nat) (op : Op) (origin : Nat)
  | lockReq (win : Nat) (r : LockReq)
  | unlock (win : Nat) (op : Op)
  /-- To a member of another panel: a lock request granted under a number, or turned away; an unlock or a completion that has been
  carried out; and how a collective window command has ended, with the member's own part (R201, R205, R344). -/
  | lockGrant (win : Nat) (r : LockReq) (g : Option Nat)
  | ack (op : Op)
  | winEnd (kind win : Nat) (ok : Bool) (part : WinPart)
  /-- Sorting office notices (R216, R224, R335). -/
  | head (n : HeadNote)
  /-- Counts for member ix: its exclusive prefix; or, with the dispatch's number, every member's totals (R335). -/
  | counts (id cc k ix : Nat) (pre : List Nat) (tot : Option (Nat × List Nat))
  | cancel (id : Nat) (op : Op)
  /-- A chunk of a coll on its way through the members, f its place in the order of chunks, n its bytes, with the flags so far; or, with
  fin, a result on its way back (R336). -/
  | chunk (id cc k f n v : Nat) (fl : BitVec 5) (fin : Bool)
  /-- A packet of 4,096 bytes that goes before the last packet of a message, which does the rest (R325). -/
  | more (of vc : Nat)
  deriving DecidableEq, Repr

/-- A message on the fabric (R322 to R326): its number, the site where it is, the site at the far end of the link that holds it, if
one does, the hop class it holds, its target cluster, its source cluster, the mailbag it travels in, whether it is a single-flit REQ
packet, and what it does. -/
structure Msg where
  id : Nat
  pos : Nat
  via : Option Nat := none
  cls : Nat := 0
  dst : Nat
  src : Nat := 0
  bag : Option Nat := none
  small : Bool := false
  act : MsgDo
  deriving DecidableEq, Repr

/-- A mailbag being filled at a site for a target site, or on its way (R326): the cluster whose packet came first, with its CYCLE
then. -/
structure Bag where
  id : Nat
  src : Nat
  dst : Nat
  open_ : Bool := true
  cl : Nat := 0
  born : Nat := 0
  deriving DecidableEq, Repr

/-- The rows of a dispatch as its members see them (R220): its number, team, identifier and member count; the operation
of each member that has sent its rows, by rank; the members that opened a stream, with the context; and the entry word
of each row applied, with the rank it was applied at. -/
structure DispatchRec where
  no : Nat
  team : Nat
  id : Nat
  count : Nat
  ops : List (Nat × Op) := []
  streams : List (Nat × Nat) := []
  entries : List (Nat × W64) := []
  deriving DecidableEq, Repr

/-- A tag group that has arrived at an Iczer port (R338, R339): its five data flits, and its tag flit's counter, key number and tag; the
packets that end in it; and whether its flits have been taken in, those in skid mode released. -/
structure IczGroup where
  counter : Nat := 0
  key : Nat := 0
  tag : BitVec 128 := 0
  text : BitVec 2560 := 0
  msgs : List Msg := []
  released : Bool := false
  deriving DecidableEq, Repr

/-- An Iczer port (R338 to R341, R345): state 0 DOWN, 1 TRAINING, 2 UP, 3 REKEYING; the key number; the panel and port it
is linked to; the groups sent, and received, under the key; the flits of the group being filled; FAIL and LIMIT; and the groups
that have arrived from the far panel and have not been checked. The key in use and the one agreed (R341); the cluster whose packet
began the group being filled, with its CYCLE then (R338); the answers to packets in skid mode that wait for their group's tag, each
with the group's stamp, the cluster that sends it and the one it goes to; and the intervals that such packets have changed: the stamp,
the cluster, the window and the number (R339, R340). -/
structure IczPort where
  state : Nat := 0
  key : Nat := 0
  peer : Nat := 0
  peerPort : Nat := 0
  sent : Nat := 0
  seen : Nat := 0
  flits : Nat := 0
  fail : Nat := 0
  limit : Nat := 2 ^ 47
  rx : List IczGroup := []
  keyBits : BitVec 256 := 0
  nextKey : Option (BitVec 256) := none
  opened : Nat × Nat := (0, 0)
  early : List (Nat × Nat × Nat × MsgDo) := []
  touched : List (Nat × Nat × Nat × Nat) := []
  deriving DecidableEq, Repr

/-- A letter in a post box (R291): its number, its 16 words, whether it has been checked at the head; instances admitted,
ended and cancelled, those with a trap exit and the first cause; whether no further instance will be admitted; its status
so far (R299), whether it was cancelled before any instance was admitted (R308); TAKER; the launch of its post box before it (R295); the
segment, with the local-store bounds, of its checked header, and the segment found on each cluster checked, the `.nsite` value and the
clusters patched (R300, R359); the monitor's patching: 0 not asked, 1 asked, 2 done (R362); its effective class and the consecutive decisions it has been passed over at (R297). -/
structure Letter where
  id : Nat
  words : List W64
  checked : Bool := false
  admitted : Nat := 0
  ended : Nat := 0
  ncanc : Nat := 0
  ntrap : Nat := 0
  cause : Option Nat := none
  closed : Bool := false
  refused : Bool := false
  bad : Bool := false
  cut : Bool := false
  taker : Option Nat := none
  prev : Option Nat := none
  seg : Option (Segment × Nat × Nat) := none
  segs : Map Segment := []
  nsite : Option Nat := none
  patched : List Nat := []
  patch : Nat := 0
  cls : Nat := 3
  passed : Nat := 0
  deriving DecidableEq, Repr

/-- A completion record of a post box held for the host (R370): the address, the status word and CWVAL. -/
structure Record where
  cw : W64
  status : W64
  val : W64
  deriving DecidableEq, Repr

/-- A post box (R293, R294, R369, R372): the letter window, the letters held, the launch entered last, PBCTL, its credit, PBSTAT.DROP, PBCRES and the
cancel asked for; the site and slot it is sealed to, HALT and HALTWHY, SESSION, LAST, PMCNT; records held. -/
structure PostBox where
  win : Map W64 := []
  letters : List Letter := []
  lastLaunch : Option Nat := none
  weight : Nat := 1
  cls : Nat := 3
  preempt : Bool := false
  en : Bool := false
  credit : Nat := 2
  drop : Nat := 0
  cancel : Option Nat := none
  cstatus : Nat := 0
  taker : Nat := 0
  sealedTo : Option (Nat × Nat) := none
  halt : Bool := false
  haltWhy : Nat := 0
  session : Nat := 0
  last : Nat := 0
  rep : Nat := 0
  badTag : Nat := 0
  foreign : Nat := 0
  refused : Nat := 0
  skip : Nat := 0
  held : List Record := []
  deriving DecidableEq, Repr

/-- Where an instance stands: its gang managers at work, a JOIN part that waits for the others, running, asked to stop for
pre-emption, saved out. -/
inductive TeamPhase where
  | placed | joining | running | stopping | saved
  deriving DecidableEq, Repr

/-- What a pre-empted team leaves with a cluster (R305): the cluster and its contexts as they stood at the save. -/
structure Parked where
  cl : Nat
  cluster : Cluster
  ctxs : List Ctx
  deriving DecidableEq, Repr

/-- A team instance (R302): the post box and letter it was admitted for, the letter's words, its clusters by rank, its slot, the
segment of its letter, its order of admission, its class, whether it may be pre-empted still (R306), the clusters and memory parked
at a save, the order of that, and the reserving letter it was pre-empted for (R304); for a JOIN part the parts that have reported, the
first cluster's CYCLE at its reservation, whether the team has started, the parts that have completed (R344), whether the join has
failed, and the cause of the first exit on a trap (R299, R344, R377). -/
structure Team where
  pb : Nat
  letter : Nat
  words : List W64
  clusters : List Nat
  slot : Option Nat := none
  seg : Segment := {}
  lsBase : Nat := 0
  lsLim : Nat := 0
  phase : TeamPhase := .placed
  order : Nat := 0
  cls : Nat := 3
  noSave : Bool := false
  parked : List Parked := []
  parkedMem : List Host.Cell := []
  savedAt : Nat := 0
  savedFor : Option Nat := none
  heard : List Nat := []
  joinAt : Nat := 0
  started : Bool := false
  finished : List Nat := []
  failed : Bool := false
  trap : Option Nat := none
  deriving DecidableEq, Repr

/-- An SPDM session of a host port (R367): 0 none, 1 opened by KEY_EXCHANGE, 2 live; its export master secret, its transcript
hash. -/
structure Session where
  st : Nat := 0
  ems : W384 := 0
  th : W384 := 0
  deriving DecidableEq, Repr

/-- A host port (R367, R368, R373): whether its link is up, how far the connection's set-up has come, its sessions, its
IDE streams: 0 none, 1 keys programmed, 2 running, the running transcript hashes of the connection's set-up, for CHALLENGE and for
GET_MEASUREMENTS, and whether the request now in its DOE mailbox is malformed. -/
structure HostPort where
  up : Bool := true
  conn : Nat := 0
  sessions : Map Session := []
  ide : Map Nat := []
  vca : W384 := 0
  m12 : W384 := 0
  l12 : W384 := 0
  doe : Bool := false
  deriving DecidableEq, Repr

/-- What the host, or the reader of a register that a read clears, receives (R4, R367, R374, R379, R383): nothing, a value, Completer Abort, an SPDM response with its contents, or
an SPDM error. -/
inductive Reply where
  | none
  | value (v : Nat)
  | abort
  | spdm (body : List Nat)
  | unexpected
  | unsupported
  | invalid
  deriving DecidableEq, Repr

/-- The merge stage in the cycle under way (R95): the resources of the primary's bundle once it has issued, whether the candidate
has been found, the contexts of the cluster still to be looked at, and one that has been passed over for its yield (R116). -/
structure Lane where
  used : Option (List (Nat × Nat)) := none
  found : Bool := false
  left : List Nat := []
  passed : Option Nat := none
  deriving DecidableEq, Repr

/-- The machine: its contexts, clusters and sites by number, the panel, memory, the words that hold an uncorrectable
error, the messages under way, and the model's own fields: the agent steps to take next, the context that issues, the
bundle being issued, and the counter behind free values. -/
structure State where
  ctxs : Map Ctx := []
  clusters : Map Cluster := []
  sites : Map Site := []
  /-- Messages on the fabric in the order they were sent, the next number, and the mailbags (R325, R326). -/
  net : List Msg := []
  nextMsg : Nat := 0
  bags : List Bag := []
  /-- Collective window commands that wait for members (R201). -/
  winColls : List WinColl := []
  /-- Dispatches whose rows are out or whose entries are not yet all delivered (R220). -/
  dispatches : List DispatchRec := []
  /-- PANELID and the Iczer ports by number (R321, R342). -/
  panelId : Nat := 0
  ports : Map IczPort := []
  /-- The panel route table: for each other panel the local Iczer ports linked to it (R342). -/
  routes : Map (List Nat) := []
  /-- Words that hold a correctable error (R283). -/
  soft : List Nat := []
  /-- Post boxes and team instances by number; the numbers of the next letter and admission; the post box served last in each
  class; the letters that qualified to reserve, in order (R293 to R308). -/
  pbs : Map PostBox := []
  teams : Map Team := []
  nextLetter : Nat := 0
  nextAdmit : Nat := 1
  served : Map Nat := []
  reserving : List (Nat × Nat) := []
  /-- PANELSTAT, PANELCTL.SITE and B4WIN (R383), MEAS0 to MEAS15 (R366), the host ports, and the host's last answer. -/
  stage : Nat := 1
  failCode : Nat := 0
  panelSite : Nat := 0
  b4win : W64 := 0
  measured : Map W384 := []
  /-- The device identity key, the alias key, and the certificate chain of slot 0: each key with the signature over it (R366). -/
  devIdentity : BitVec 768 := 0
  devAlias : BitVec 768 := 0
  certs : List (BitVec 768) := []
  hostPorts : Map HostPort := []
  reply : Reply := .none
  mem : List Host.Cell := []
  bad : List Nat := []
  agenda : List Instr := []
  cur : Nat := 0
  issue : Issue := {}
  lane : Lane := {}
  free : Nat := 0
  deriving DecidableEq, Repr

/-- The machine right after reset. -/
def State.reset : State := {}

end Sys2Proof.Machine
end

