-- ==== Sys2Proof/Machine/Mem.lean ====
section
/-! DEFINITION. Units of the machine by number, and memory: one list of cells in canonical form, its regions, the homes of R252,
uncorrectable errors, the L1, and translation (R19, R252 to R257, R266 to R290, R354). -/
namespace Sys2Proof.Machine

/-! ## Units by number -/

def State.ctx (s : State) (g : Nat) : Ctx := mget {} s.ctxs g
def State.setCtx (s : State) (g : Nat) (c : Ctx) : State := { s with ctxs := mset s.ctxs g c }
def State.cl (s : State) (n : Nat) : Cluster := mget {} s.clusters n
def State.setCl (s : State) (n : Nat) (c : Cluster) : State := { s with clusters := mset s.clusters n c }
def State.site (s : State) (n : Nat) : Site := mget {} s.sites n
def State.setSite (s : State) (n : Nat) (x : Site) : State := { s with sites := mset s.sites n x }

/-- The context that issues, its cluster and its site (R35). -/
def State.me (s : State) : Ctx := s.ctx s.cur
def State.setMe (s : State) (c : Ctx) : State := s.setCtx s.cur c
def State.clNo (s : State) : Nat := s.cur / 4
def State.myCl (s : State) : Cluster := s.cl s.clNo
def State.setMyCl (s : State) (c : Cluster) : State := s.setCl s.clNo c
def siteOf (cl : Nat) : Nat := cl / 128
def State.siteNo (s : State) : Nat := siteOf s.clNo
def State.mySite (s : State) : Site := s.site s.siteNo

/-- The cluster is its site's monitor cluster (R32). -/
def State.isMon (s : State) (cl : Nat) : Bool := decide (cl % 128 = (s.site (siteOf cl)).moncl)

/-! ## Memory -/

/-- The byte at an address; an unlisted byte reads 0, as start-up leaves every memory (R378). -/
def readByte : List Host.Cell → Nat → BitVec 8
  | [], _ => 0
  | (b, v) :: m, a => if a = b then v else readByte m a

/-- Memory with the byte at a set to v, in canonical form: rising addresses and no zero byte listed. -/
def writeByte : List Host.Cell → Nat → BitVec 8 → List Host.Cell
  | [], a, v => if v = 0 then [] else [(a, v)]
  | (b, w) :: m, a, v =>
    if a = b then (if v = 0 then m else (a, v) :: m)
    else if a < b then (if v = 0 then (b, w) :: m else (a, v) :: (b, w) :: m)
    else (b, w) :: writeByte m a v

/-- The canonical form of memory: every address above lo, rising, and no byte equal to 0. -/
def memWfFrom : Nat → List Host.Cell → Bool
  | _, [] => true
  | lo, (a, v) :: m => decide (lo ≤ a) && decide (v ≠ 0) && memWfFrom (a + 1) m

/-- The canonical form of memory. -/
def memWf (m : List Host.Cell) : Bool := memWfFrom 0 m

/-- The memory of a state has the canonical form. -/
def State.memOk (s : State) : Prop := memWf s.mem = true

/-- n bytes from a, little-endian (R3). -/
def readMem (m : List Host.Cell) (a : Nat) : Nat → Nat
  | 0 => 0
  | n + 1 => (readByte m a).toNat + 256 * readMem m (a + 1) n

/-- The low n bytes of v stored from a, little-endian (R3). -/
def writeMem (m : List Host.Cell) (a : Nat) : Nat → Nat → List Host.Cell
  | 0, _ => m
  | n + 1, v => writeMem (writeByte m a (BitVec.ofNat 8 v)) (a + 1) n (v / 256)

/-- The n bytes from a that mask selects (bit i for byte a + i), taken from v. -/
def writeMask (m : List Host.Cell) (a : Nat) (mask : Nat) : Nat → Nat → List Host.Cell
  | 0, _ => m
  | n + 1, v => writeMask (if mask % 2 = 1 then writeByte m a (BitVec.ofNat 8 v) else m) (a + 1) (mask / 2) n (v / 256)

/-! ## Where a byte lives: space × 2^56 + unit × 2^40 + offset -/

def lsAt (cl off : Nat) : Nat := cl * 2 ^ 40 + off
def sliceAt (cl off : Nat) : Nat := 2 ^ 56 + cl * 2 ^ 40 + off
def pigAt (site off : Nat) : Nat := 2 * 2 ^ 56 + site * 2 ^ 40 + off
def obAt (cl off : Nat) : Nat := 3 * 2 ^ 56 + cl * 2 ^ 40 + off
def accAt (cl off : Nat) : Nat := 4 * 2 ^ 56 + cl * 2 ^ 40 + off
/-- The L1's copy of slice offset off (R283). -/
def l1At (cl off : Nat) : Nat := 5 * 2 ^ 56 + cl * 2 ^ 40 + off
def hostAt (addr : Nat) : Nat := 6 * 2 ^ 56 + addr

/-- A home as a leaf with ENC = 1 gives it: slot k of the key is held in the bits from 72 up, as k + 1 (R356). -/
def keyed (pa k : Nat) : Nat := pa + k * 2 ^ 72
def bare (pa : Nat) : Nat := pa % 2 ^ 72
def spaceOf (pa : Nat) : Nat := pa / 2 ^ 56 % 2 ^ 16
def unitOf (pa : Nat) : Nat := pa % 2 ^ 56 / 2 ^ 40
def offOf (pa : Nat) : Nat := pa % 2 ^ 40
/-- The slot plus 1 under whose data keys a slice home is reached, or 0: only slices are encrypted (R356). -/
def keyOf (pa : Nat) : Nat := if spaceOf pa = 1 then pa / 2 ^ 72 else 0

/-- The first address of the error-coded word that holds pa: 32 bytes in a slice, 8 elsewhere (R283). -/
def wordOf (pa : Nat) : Nat := if spaceOf pa = 1 then bare pa / 32 * 32 else bare pa / 8 * 8

/-- The length of that word. -/
def wordLen (pa : Nat) : Nat := if spaceOf pa = 1 then 32 else 8

/-- Some word of [pa, pa + n) holds an uncorrectable error (R284). -/
def State.badAt (s : State) (pa n : Nat) : Bool := s.bad.any fun w => decide (w < bare pa + n ∧ bare pa < w + wordLen w)

/-- An entry written whole in a site's error log, before ELHEAD advances (R382). cl is the reporting cluster, or none. -/
def State.logEntry (s : State) (site cls : Nat) (cl : Option Nat) (code src addr detail : Nat) : State :=
  let x := s.site site
  let e : LogEnt := {
    w0 := BitVec.ofNat 64 (cls % 256 * 2 ^ 56 + (match cl with
      | some c => c % 128
      | none => 0x7F) * 2 ^ 48 + code % 256 * 2 ^ 40 + src % 256 * 2 ^ 32 + x.elHead % 2 ^ 32)
    w1 := BitVec.ofNat 64 addr, w2 := BitVec.ofNat 64 detail
    w3 := BitVec.ofNat 64 (match cl with
      | some c => (s.cl c).cycle
      | none => 0) }
  s.setSite site { x with
    elog := mset x.elog (x.elHead % 1024) e, elHead := x.elHead + 1
    elLost := if x.elRead + 1024 ≤ x.elHead then min (x.elLost + 1) (2 ^ 32 - 1) else x.elLost }

/-- An uncorrectable error met by a cluster: MERRADDR, MERRSTAT (R290) and its site's error log (R284, R382). -/
def State.logErr (s : State) (cl pa : Nat) (code : Nat := 0) : State :=
  let c := s.cl cl
  let mem := match spaceOf pa with
    | 1 => 0
    | 0 => 1
    | 2 => 2
    | _ => 3
  let src := match spaceOf pa with
    | 1 => 1
    | 2 => 2
    | _ => 0
  let x := offOf (wordOf pa)
  let s := s.setCl cl { c with merrAddr := BitVec.ofNat 64 (mem * 2 ^ 62 + x), merrStat := min (c.merrStat + 1) 65535 }
  s.logEntry (siteOf cl) 1 (some cl) code src x 0

/-- The first failing word of [pa, pa + n). -/
def State.firstBadWord (s : State) (pa n : Nat) : Nat :=
  ((s.bad.filter fun w => decide (w < bare pa + n ∧ bare pa < w + wordLen w)).foldl
    (fun (m : Option Nat) w => some (match m with
      | some x => min x w
      | none => w)) none).getD pa

/-- The first failing word of [pa, pa + n) logged, where there is one. -/
def State.logBad (s : State) (cl pa n : Nat) (code : Nat := 0) : State :=
  if s.badAt pa n then s.logErr cl (s.firstBadWord pa n) code else s

/-- The cluster that reports an error at a home: its own for a slice, a local store, an operand store or an accumulator; for
pigeonhole memory the one named, or the site's monitor cluster. -/
def State.reporter (s : State) (pa : Nat) (who : Option Nat) : Nat :=
  if spaceOf pa = 2 then who.getD (unitOf pa * 128 + (s.site (unitOf pa)).moncl) else unitOf pa

/-- A plain write of the bytes of [pa, pa + n) that sel selects: a failing word of which it writes some byte has its other bytes
made 0 and no longer fails; one that it does not cover whole is logged. A correctable error in such a word is gone too (R284). -/
def State.healWith (s : State) (pa n : Nat) (sel : Nat → Bool) (who : Option Nat := none) : State :=
  let covers (w b : Nat) : Bool := decide (bare pa ≤ w + b ∧ w + b < bare pa + n) && sel (w + b - bare pa)
  let hit (w : Nat) : Bool := (List.range (wordLen w)).any (covers w)
  let whole (w : Nat) : Bool := (List.range (wordLen w)).all (covers w)
  let ws := s.bad.filter hit
  let s := ws.foldl (fun s w => if whole w then s else s.logErr (s.reporter w who) w) s
  { s with
    mem := ws.foldl (fun m w => writeMem m w (wordLen w) 0) s.mem
    bad := s.bad.filter fun w => !hit w
    soft := s.soft.filter fun w => !hit w }

/-- A plain write of all of [pa, pa + n) over failing words (R284). -/
def State.healFor (s : State) (pa n : Nat) (who : Option Nat := none) : State :=
  if s.bad.isEmpty && s.soft.isEmpty then s else s.healWith pa n (fun _ => true) who

/-! ## Encrypted homes (R356, R357) -/

/-- AES-256-XTS of the 64-byte data unit at an encrypted home: under the slot's data key pair, or behind KBND.POS of a rotation of
that slot under the new one; the tweak is the cluster number × 2^40 + slice offset div 64 (R356, R357). -/
def State.cipher (s : State) (pa : Nat) : Equiv.Perm (BitVec 512) :=
  let c := s.cl (unitOf pa)
  let k := keyOf pa - 1
  let x := mget {} (s.site (siteOf (unitOf pa))).slots k
  Config.xts (if x.st == .rotating && c.kbSlot == k && decide (offOf pa / 256 < c.kbPos) then x.newKey else x.dataKey)
    (BitVec.ofNat 128 (unitOf pa * 2 ^ 40 + offOf pa / 64))

/-- The plaintext of the data unit at an encrypted home (R356). -/
def State.unitText (s : State) (pa : Nat) : Nat := ((s.cipher pa).symm (BitVec.ofNat 512 (readMem s.mem (bare pa) 64))).toNat

/-- The first bytes of the data units that [pa, pa + n) meets. -/
def unitHomes (pa n : Nat) : List Nat := tab (fun i => pa / 64 * 64 + 64 * i) ((pa % 64 + n + 63) / 64)

/-- n bytes of x, those that mask selects taken from v. -/
def mergeBytes (mask : Nat) : Nat → Nat → Nat → Nat
  | 0, _, _ => 0
  | n + 1, x, v => (if mask % 2 = 1 then v % 256 else x % 256) + 256 * mergeBytes (mask / 2) n (x / 256) (v / 256)

/-- A write of the bytes of the data unit at an encrypted home that mask selects: read, merged and written back (R356). -/
def State.unitPut (s : State) (pa mask v : Nat) : State :=
  { s with mem := writeMem s.mem (bare pa) 64 (s.cipher pa (BitVec.ofNat 512 (mergeBytes mask 64 (s.unitText pa) v))).toNat }

/-- The bytes of [pa, pa + n) at an encrypted home that mask selects, taken from v. -/
def State.unitsPut (s : State) (pa n mask v : Nat) : State :=
  (unitHomes pa n).foldl (fun s a =>
    let m := mask % 2 ^ n * 2 ^ (pa % 64) / 2 ^ (a - pa / 64 * 64) % 2 ^ 64
    if m = 0 then s else s.unitPut a m (v * 2 ^ (8 * (pa % 64)) / 2 ^ (8 * (a - pa / 64 * 64)))) s

/-! ## Reading and writing a home -/

/-- n bytes at the home (R252); an encrypted home is decrypted (R356). -/
def State.load (s : State) (pa n : Nat) : Nat :=
  if keyOf pa = 0 then readMem s.mem pa n
  else pack 512 ((unitHomes pa n).map s.unitText) / 2 ^ (8 * (pa % 64)) % 2 ^ (8 * n)

/-- n bytes written at the home (R252, R284, R356). -/
def State.store (s : State) (pa n v : Nat) (who : Option Nat := none) : State :=
  let s := s.healFor pa n who
  if keyOf pa = 0 then { s with mem := writeMem s.mem pa n v } else s.unitsPut pa n (2 ^ n - 1) v

/-- Bytes of [pa, pa + n) selected by mask written at the home (R254, R284, R356). -/
def State.storeMask (s : State) (pa n mask v : Nat) : State :=
  let s := if s.bad.isEmpty && s.soft.isEmpty then s else s.healWith pa n fun i => bit mask i
  if keyOf pa = 0 then { s with mem := writeMask s.mem pa mask n v } else s.unitsPut pa n mask v

/-- n zero bytes at the home. -/
def State.zeroMem (s : State) (pa n : Nat) : State :=
  let s := s.healFor pa n
  { s with mem := s.mem.filter fun (a, _) => !decide (pa ≤ a ∧ a < pa + n) }

/-! ## The slice: geometry (R271, R272) -/

/-- Bytes of a slice, of a site's pigeonhole memory, and of the monitor region within it. -/
def sliceSize : Nat := 0x180000000
def pigSize : Nat := 0x4000000
def monBase : Nat := 0x3800000

/-- Live channels of a slice (R272, R273). -/
def Cluster.nChan (c : Cluster) : Nat := match c.chans with
  | some l => l.length
  | none => 3

/-- Site channel numbers of the live channels; the fused ones are 3i to 3i + 2 (R290). -/
def Cluster.chanList (c : Cluster) (ix : Nat) : List Nat := match c.chans with
  | some l => l
  | none => [3 * ix, 3 * ix + 1, 3 * ix + 2]

/-- Offset x of a slice lies in a hole (R272). -/
def Cluster.isHole (c : Cluster) (x : Nat) : Bool := decide (c.nChan * 2 ^ 21 ≤ x % 0x60000000 / 256)

/-- The home of slice offset x of a cluster; none past its end or in a hole. The monitor cluster's slice is the
monitor region (R271). -/
def State.slicePa (s : State) (cl x : Nat) : Option Nat :=
  if s.isMon cl then (if x < 0x800000 then some (pigAt (siteOf cl) (monBase + x)) else none)
  else if sliceSize ≤ x ∨ (s.cl cl).isHole x then none
  else some (sliceAt cl x)

/-- The index of the channel being retired. -/
def Cluster.leaving (c : Cluster) : Nat := (c.retiring.map (·.1)).getD 0

/-- The channel index of slice offset x, and its granule within the channel's bank set (R272). While a move runs, a granule whose
place in the move's order is below MBND has the new map: 3 stands for the spare, and the survivors of a reduction keep their
old indices until it ends (R274). -/
def Cluster.place (c : Cluster) (x : Nat) : Nat × Nat :=
  let q := x / 0x60000000
  let g := x % 0x60000000 / 256
  let n := c.nChan
  match c.chState with
  | .spare => if g % n = c.leaving ∧ q * 2 ^ 21 + g / n < c.mbnd then (3, g / n) else (g % n, g / n)
  | .reduce =>
    if g < 2 ^ 22 ∧ q * 2 ^ 22 + (2 ^ 22 - 1 - g) < c.mbnd then (((List.range n).eraseIdx c.leaving).getD (g % 2) 0, g / 2)
    else (g % n, g / n)
  | _ => (g % n, g / n)

/-- Where a slice offset lies: channel, bank of the channel's 32, row, column granule, byte of the granule (R272). -/
structure Geom where
  ch : Nat
  bank : Nat
  row : Nat
  col : Nat
  byte : Nat
  deriving DecidableEq, Repr

def Cluster.geom (c : Cluster) (x : Nat) : Geom :=
  let (ch, h) := c.place x
  { ch := ch, bank := x / 0x60000000 * 8 + ((bits h 0 3) ^^^ (bits h 10 3) ^^^ (bits h 18 3)), row := bits h 6 15, col := bits h 3 3
    byte := x % 256 }

/-! ## Correctable errors (R283) -/

/-- One correctable event met by a cluster at a home: counted in CECNT and among its channel's of the last 2^30 cycles, and
logged (R273, R283). -/
def State.countEvent (s : State) (cl pa : Nat) : State :=
  let c := s.cl cl
  let c := { c with ceCnt := min (c.ceCnt + 1) (2 ^ 32 - 1) }
  let s := s.setCl cl (if spaceOf pa = 1 then
    let ch := (c.geom (offOf pa)).ch
    { c with chEvents := mset c.chEvents ch (c.cycle :: (mget [] c.chEvents ch).filter fun t => decide (c.cycle < t + 2 ^ 30)) }
    else c)
  s.logEntry (siteOf cl) 0 (some cl) 0 (if spaceOf pa = 1 then 1 else if spaceOf pa = 2 then 2 else 0) (offOf pa) 0

/-- The correctable errors of n bytes from a home corrected, each counted and logged (R283). -/
def State.correct (s : State) (cl pa n : Nat) : State :=
  let hit (w : Nat) : Bool := decide (w < bare pa + n ∧ bare pa < w + wordLen w)
  let ws := s.soft.filter hit
  ws.foldl (fun s w => s.countEvent (s.reporter w (some cl)) w) { s with soft := s.soft.filter fun w => !hit w }

/-- The frame number that seal tags use (R354): by space and unit, 32 KiB each. -/
def frameOf (pa : Nat) : Nat := bare pa / 2 ^ 15

/-! ## Agents and seal tags (R354) -/

/-- The slot's state refuses every access to its frames (R354). -/
def State.slotDead (s : State) (site k : Nat) : Bool := (mget {} (s.site site).slots k).st == .zeroised

/-- The access to the frame of pa is refused (R354, R271). -/
def State.refused (s : State) (cl pa : Nat) (a : Agent) : Bool :=
  let site := siteOf cl
  let t := mget 0 (s.site site).tags (frameOf pa)
  let monRegion := decide (spaceOf pa = 2 ∧ monBase ≤ offOf pa) && !s.isMon cl
  monRegion || (decide (t ≠ 0) && !a.monitor &&
    (decide (a.slot ≠ some (t - 1)) || s.slotDead site (t - 1)))

/-! ## Translation (R285 to R287) -/

/-- The kinds of access a leaf permits or refuses (R286). -/
inductive Acc where
  | read | write | exec | amo
  deriving DecidableEq, Repr

/-- REASON of PROT (Table 21). -/
def Acc.reason : Acc → Nat
  | .read => 1
  | .write => 2
  | .exec => 3
  | .amo => 2

/-- log2 of the page size of a level (R285). -/
def pageBits : Nat → Nat
  | 0 => 15
  | 1 => 26
  | _ => 37

/-- XLATE with a reason and the level at which the failure was found (R286). -/
def xlateTrap (va : W64) (reason level : Nat) : Trap := { cause := 0x04, addr := va, reason := reason, detail := level }
def protTrap (va : W64) (a : Acc) (detail : Nat := 0) : Trap :=
  { cause := 0x05, addr := va, reason := a.reason, detail := detail }

/-- A leaf at a level breaks a rule of its layout (R285, R286). -/
def leafMalformed (level : Nat) (e : W64) : Bool :=
  fld e 57 4 != 0 || fld e 48 2 != 0 || fld e 9 6 != 0 || fld e 7 2 != level ||
  fld e 15 (pageBits level - 15) != 0 || (fld e 6 1 == 1 && fld e 56 1 == 1)

/-- A pointer breaks a rule of its layout. -/
def ptrMalformed (level : Nat) (e : W64) : Bool :=
  level == 0 || fld e 48 16 != 0 || fld e 2 12 != 0 || decide (sliceSize ≤ fld e 14 34 * 2 ^ 14)

/-- The walk of va below a table at slice offset t: the leaf's level and entry, or the reason and level of the failure
(R285, R286). Levels are 2, 1, 0. A table beyond the monitor region, or in a hole of a reduced slice, is unmapped: FRAME (R271; log 86). -/
def State.walkFrom (s : State) (cl : Nat) (a : Agent) (va : Nat) : Nat → Nat → Except (Nat × Nat) (Nat × W64)
  | level, t =>
    match s.slicePa cl (t + 8 * bits va (15 + 11 * level) 11) with
    | none => .error (if s.isMon cl || decide (t < sliceSize) then 4 else 3, level)
    | some pa =>
      if s.refused cl pa a then .error (2, level)
      else if s.badAt pa 8 then .error (5, level)
      else
        let e : W64 := BitVec.ofNat 64 (s.load pa 8)
        if fld e 0 1 = 0 then .error (2, level)
        else if fld e 1 1 = 1 then (if leafMalformed level e then .error (3, level) else .ok (level, e))
        else if ptrMalformed level e then .error (3, level)
        else match level with
          | 0 => .error (3, 0)
          | l + 1 => s.walkFrom cl a va l (fld e 14 34 * 2 ^ 14)

/-- The walk of va from PTROOT. -/
def State.walk (s : State) (cl : Nat) (a : Agent) (va : Nat) : Except (Nat × Nat) (Nat × W64) :=
  let r := (s.cl cl).ptroot
  if fld r 0 1 = 0 then .error (2, 2) else s.walkFrom cl a va 2 (fld r 14 34 * 2 ^ 14)

/-- The home of the failing entry that a walk of va meets, if it meets one (R284, R286). -/
def State.walkBadFrom (s : State) (cl : Nat) (a : Agent) (va : Nat) : Nat → Nat → Option Nat
  | level, t =>
    match s.slicePa cl (t + 8 * bits va (15 + 11 * level) 11) with
    | none => none
    | some pa =>
      if s.refused cl pa a then none
      else if s.badAt pa 8 then some pa
      else
        let e : W64 := BitVec.ofNat 64 (s.load pa 8)
        if fld e 0 1 = 0 || fld e 1 1 = 1 || ptrMalformed level e then none
        else match level with
          | 0 => none
          | l + 1 => s.walkBadFrom cl a va l (fld e 14 34 * 2 ^ 14)

/-- A walk that met an uncorrectable error logs it, with the reason WALKERR (R284, R382). -/
def State.logWalk (s : State) (cl : Nat) (a : Agent) (va : Nat) : State :=
  let r := (s.cl cl).ptroot
  if fld r 0 1 = 0 then s
  else match s.walkBadFrom cl a va 2 (fld r 14 34 * 2 ^ 14) with
    | some pa => s.logErr cl pa 5
    | none => s

/-- The cached leaf for va, if any; one whose parity fails is as good as absent (R283, R287). -/
def tlbFind (t : List TlbEnt) (va : Nat) : Option TlbEnt := t.find? fun e => !e.parity && decide (e.vpn = va / 2 ^ pageBits e.level)

/-- The leaf for va, from the TLB or a walk. -/
def State.leafFor (s : State) (cl : Nat) (a : Agent) (eng : Bool) (va : Nat) : Except (Nat × Nat) (Nat × W64) :=
  match tlbFind (if eng then (s.cl cl).engTlb else (s.cl cl).tlb) va with
  | some e => .ok (e.level, e.pte)
  | none => s.walk cl a va

/-- The home that a leaf gives va, with its key where the leaf has ENC = 1 (R285, R356); none beyond the memory's end or in a hole. -/
def State.leafHome (s : State) (cl level : Nat) (e : W64) (va : Nat) : Option Nat :=
  let x := fld e 15 33 * 2 ^ 15 + va % 2 ^ pageBits level
  if fld e 6 1 = 1 then (if x < pigSize then some (pigAt (siteOf cl) x) else none)
  else (s.slicePa cl x).map fun pa => keyed pa (if fld e 56 1 = 1 ∧ spaceOf pa = 1 then fld e 50 6 + 1 else 0)

/-- Where the byte at va lives, its permissions aside. -/
def State.homeOf (s : State) (cl : Nat) (a : Agent) (va : Nat) : Option Nat :=
  if va < 0x800000 then some (lsAt cl va)
  else match s.leafFor cl a false va with
    | .error _ => none
    | .ok (l, e) => s.leafHome cl l e va

/-- The uncorrectable error at or after va that an access of a cluster met, logged (R284). -/
def State.logVa (s : State) (cl : Nat) (a : Agent) (va : W64) (code : Nat) : State :=
  match s.homeOf cl a va.toNat with
  | some pa => s.logBad cl pa 256 code
  | none => s

/-- The home that a leaf gives an access, checked in the order of R286. -/
def State.checkLeaf (s : State) (cl : Nat) (a : Agent) (user : Bool) (va : W64) (acc : Acc) (l : Nat) (e : W64) : Except Trap Nat :=
  match s.leafHome cl l e va.toNat with
  | none => .error (xlateTrap va 4 l)
  | some pa =>
    let ok := match acc with
      | .read => fld e 2 1 == 1
      | .write => fld e 3 1 == 1
      | .exec => fld e 4 1 == 1
      | .amo => fld e 2 1 == 1 && fld e 3 1 == 1
    if !ok || (user && fld e 5 1 == 0) then .error (protTrap va acc)
    else if s.refused cl pa a then .error (protTrap va acc 1)
    else .ok pa

/-- Translation of one address at or above the local-store window, checked in the order of R286. -/
def State.translate (s : State) (cl : Nat) (a : Agent) (eng : Bool) (user : Bool) (va : W64) (acc : Acc) :
    Except Trap Nat :=
  if fld va 48 16 ≠ 0 then .error (xlateTrap va 1 3)
  else match s.leafFor cl a eng va.toNat with
    | .error (r, l) => .error (xlateTrap va r l)
    | .ok (l, e) => s.checkLeaf cl a user va acc l e

/-- The top of the local-store window (R19). -/
def lsTop : Nat := 0x800000

/-- [a, a + n) lies in [LSBASE, LSLIM) (R19). -/
def Cluster.lsOk (c : Cluster) (a n : Nat) : Bool :=
  decide (c.lsBase * 131072 ≤ a ∧ a + n ≤ c.lsLim * 131072 ∧ a + n ≤ 48 * 131072)

/-- LSBOUND for an address of the window (R101). -/
def lsboundTrap (va : W64) : Trap :=
  { cause := 0x07, addr := va, detail := if va.toNat < 0x600000 then va.toNat / 131072 else 63 }

/-- ALIGN for an address and a size or alignment that is a power of two (R101). -/
def alignTrap (va : W64) (size : Nat) : Trap :=
  { cause := 0x06, addr := va, detail := (if size ≤ 128 then size else 0) + 256 * Nat.log2 size }

/-- The address checks of R99 step 6 for one access of n bytes that does not cross a page. -/
def State.addrCheck (s : State) (cl : Nat) (a : Agent) (user : Bool) (va : W64) (n : Nat) (acc : Acc) : Except Trap Nat :=
  if va.toNat % n ≠ 0 then .error (alignTrap va n)
  else if va.toNat < lsTop then
    (if (s.cl cl).lsOk va.toNat n then .ok (lsAt cl va.toNat) else .error (lsboundTrap va))
  else s.translate cl a false user va acc

/-! ## Power (R267, R281): what an access wakes -/

/-- The bank or set numbers of units of size u that [x, x + n) meets. -/
def unitsOf (u x n : Nat) : List Nat := List.range' (x / u) ((x + max n 1 - 1) / u + 1 - x / u)

/-- Every local-store bank that is accessed returns to ON (R267). -/
def State.wakeLs (s : State) (cl x n : Nat) : State :=
  (unitsOf 131072 x n).foldl (fun s b =>
    let c := s.cl cl
    if mget 0 c.lsPwr b = 0 then s else s.setCl cl { c with lsPwr := mset c.lsPwr b 0 }) s

/-- Bank set q × 4 + ch of a cluster made ACTIVE. What a DEEP set lost reads zero from its entry on (R281). -/
def State.readySet (s : State) (cl k : Nat) : State :=
  let c := s.cl cl
  if mget .on c.bankPwr k = .on then s else s.setCl cl { c with bankPwr := mset c.bankPwr k .on }

/-- The number that a row's activation counter has: channel, bank and row (R279). -/
def Cluster.rowKey (c : Cluster) (x : Nat) : Nat :=
  let g := c.geom x
  (g.ch * 32 + g.bank) * 2 ^ 15 + g.row

/-- A counter is over the threshold: the rows beside its row are refreshed before the bank activates again (R279). -/
def Cluster.rowDue (c : Cluster) (r : Nat) : Bool :=
  decide (c.rhThr ≤ mget 0 c.rowCnt r ∨ mget 0 c.rowCnt r = 4095) || c.rowBad.contains r

/-- The neighbours of a row refreshed: its counter starts again (R279). -/
def Cluster.refresh (c : Cluster) (r : Nat) : Cluster := { c with rowCnt := mset c.rowCnt r 0, rowBad := c.rowBad.filter (· != r) }

/-- Before the bank of row r activates again, every counter of the bank that is over the threshold has its refresh (R279). -/
def Cluster.refreshBank (c : Cluster) (r : Nat) : Cluster :=
  { c with rowCnt := mmap (fun k n => if k / 2 ^ 15 = r / 2 ^ 15 ∧ (c.rhThr ≤ n ∨ n = 4095) then 0 else n) c.rowCnt }

/-- One activation of the row of slice offset x: the counters of its bank that are due have their refresh first; one whose check fails
counts as saturated, and the event is counted and logged (R279, R281). The set is ACTIVE from now. -/
def State.activate (s : State) (cl x : Nat) : State :=
  let r := (s.cl cl).rowKey x
  let s := if (s.cl cl).rowBad.contains r then s.countEvent cl (sliceAt cl x) else s
  let c := s.cl cl
  let c := (if c.rowBad.contains r then c.refresh r else c).refreshBank r
  let k := x / 0x60000000 * 4 + (c.geom x).ch
  let c := { c with setUsed := mset c.setUsed k c.cycle, rowCnt := mset c.rowCnt r (min 4095 (mget 0 c.rowCnt r + 1)) }
  (s.setCl cl c).readySet cl k

/-- A frame that an access reaches through a leaf with ENC = 1 holds ciphertext from now on (R356). -/
def State.noteEnc (s : State) (pa : Nat) : State :=
  let c := s.cl (unitOf pa)
  let f := offOf pa / 2 ^ 15
  if keyOf pa = 0 ∨ c.encFrames.contains f then s else s.setCl (unitOf pa) { c with encFrames := c.encFrames ++ [f] }

/-- Whatever an access of n bytes wakes. -/
def State.wake (s : State) (pa n : Nat) : State :=
  if spaceOf pa = 0 then s.wakeLs (unitOf pa) (offOf pa) n
  else if spaceOf pa = 1 then
    ((unitsOf 256 (offOf pa) n).foldl (fun s g => s.activate (unitOf pa) (max (offOf pa) (256 * g))) s).noteEnc pa
  else s

/-! ## The slice cache and the write queues (R269, R276 to R278) -/

/-- A line passes through the slice cache: 16 ways of 1,024 sets, of which replicas hold at most 4 (R269). One whose tag's parity fails
is discarded and fetched again (R283); so is the mark of a line that leaves. -/
def Cluster.slcTouch (c : Cluster) (line : Nat) : Cluster :=
  let k := line % 1024
  let reps := (c.replicas.filter fun e => decide (fld e.1 0 40 / 128 % 1024 = k)).length
  let set := (line :: (mget [] c.slc k).filter (· != line)).take (16 - min reps 4)
  { c with slc := mset c.slc k set, slcBad := c.slcBad.filter fun l => l != line && (l % 1024 != k || set.contains l) }

/-- The lines of [x, x + n) of a slice pass through its slice cache. -/
def State.slcPass (s : State) (cl x n : Nat) : State := s.setCl cl ((unitsOf 128 x n).foldl Cluster.slcTouch (s.cl cl))

/-- Entries leave a channel's write queue: their ranges go through the slice cache to the array (R269, R276). -/
def State.drainWq (s : State) (cl ch : Nat) (gone : WqEnt → Bool) : State :=
  let c := s.cl cl
  let q := mget [] c.wqs ch
  let s := s.setCl cl { c with wqs := mset c.wqs ch (q.filter fun e => !gone e) }
  (q.filter gone).foldl (fun s e => s.slcPass cl (e.range * 64) 64) s

/-- The bytes of an entry's range that [x, x + n) selects, of which m says which are meant. -/
def rangeMask (x n m r : Nat) : BitVec 64 := BitVec.ofNat 64 ((m % 2 ^ n) * 2 ^ (x % 64) / 2 ^ (64 * (r - x / 64)))

/-- An element of a chain lies among the bytes of a mask. -/
def chainMeets (m : BitVec 64) (e : Nat × Nat × Nat) : Bool := (BitVec.ofNat 64 ((2 ^ e.2.1 - 1) * 2 ^ e.1)) &&& m != 0

/-- An entry merged into a queue of 64, the oldest drained where it is full (R276). -/
def State.putWq (s : State) (cl ch r : Nat) (f : WqEnt → WqEnt) : State :=
  let q := mget [] (s.cl cl).wqs ch
  let s := if !(q.any fun e => e.range == r) && decide (64 ≤ q.length) then
      (match q with
        | o :: _ => s.drainWq cl ch fun e => e.range == o.range
        | [] => s)
    else s
  let c := s.cl cl
  let q := mget [] c.wqs ch
  let q := if q.any (fun e => e.range == r) then q.map fun e => if e.range = r then f e else e
    else q ++ [f { range := r, mask := 0, born := c.cycle }]
  s.setCl cl { c with wqs := mset c.wqs ch q }

/-- A plain write of the bytes of [x, x + n) that m selects enters the write queues, one entry for each 64-byte range. A pending
reduction on one of those bytes drains its entry first (R276, R277). -/
def State.enqueue (s : State) (pa n : Nat) (m : Nat := 2 ^ n - 1) : State :=
  if spaceOf pa = 1 then
    let cl := unitOf pa
    let x := offOf pa
    (unitsOf 64 x n).foldl (fun s r =>
      let k := rangeMask x n m r
      if k = 0 then s
      else
        let ch := ((s.cl cl).geom (r * 64)).ch
        let s := s.drainWq cl ch fun e => e.range == r && e.chains.any (chainMeets k)
        s.putWq cl ch r fun e => { e with mask := e.mask ||| k }) s
  else s

/-- A reduction of the n bytes at pa reaches the write queue: applied at once where its entry holds them all, else a link of the
element's chain, the fifth of which drains the entry first (R277). Its value is applied in arrival order, here as elsewhere. -/
def State.enqueueRed (s : State) (pa n : Nat) : State :=
  if spaceOf pa = 1 then
    let cl := unitOf pa
    let r := offOf pa / 64
    let o := offOf pa % 64
    let ch := ((s.cl cl).geom (r * 64)).ch
    let k := rangeMask (offOf pa) n (2 ^ n - 1) r
    let held (e : WqEnt) : Bool := e.range == r && e.mask &&& k == k && !e.chains.any (chainMeets k)
    if (mget [] (s.cl cl).wqs ch).any held then s
    else
      let s := s.drainWq cl ch fun e => e.range == r && e.chains.any fun l => l.1 == o && decide (4 ≤ l.2.2)
      s.putWq cl ch r fun e =>
        if e.chains.any fun l => l.1 == o then { e with chains := e.chains.map fun l => if l.1 = o then (o, n, l.2.2 + 1) else l }
        else { e with chains := e.chains ++ [(o, n, 1)] }
  else s

/-- The bytes of [x, x + n) in a range are all valid in a queue entry, none with a pending reduction (R278). -/
def Cluster.wqCovers (c : Cluster) (x n r : Nat) : Bool :=
  let k := rangeMask x n (2 ^ n - 1) r
  (mget [] c.wqs (c.geom (r * 64)).ch).any fun e => e.range == r && e.mask &&& k == k && !e.chains.any (chainMeets k)

/-- A read that the queues cover whole is forwarded from them; one that they cover only in part, or that meets a pending reduction,
drains those entries first (R278). -/
def State.drainRead (s : State) (cl x n : Nat) : State :=
  let rs := unitsOf 64 x n
  if rs.all fun r => (s.cl cl).wqCovers x n r then s
  else rs.foldl (fun s r =>
    let ch := ((s.cl cl).geom (r * 64)).ch
    let k := rangeMask x n (2 ^ n - 1) r
    s.drainWq cl ch fun e => e.range == r && (e.mask &&& k != 0 || e.chains.any (chainMeets k))) s

/-- The read of a read-modify-write, which the write queue serves or takes into a chain: what it wakes and the correctable errors it
meets (R277, R281, R283). -/
def State.readRed (s : State) (cl pa n : Nat) : State :=
  let s := s.wake pa n
  if s.soft.isEmpty then s else s.correct cl pa n

/-- A read of n bytes at a home, as a cluster makes it: what it wakes, the queue and the slice cache it passes, and the
correctable errors it meets (R267, R269, R278, R281, R283). -/
def State.readAt (s : State) (cl pa n : Nat) : State :=
  let s := s.wake pa n
  let s := if spaceOf pa = 1 then (s.drainRead (unitOf pa) (offOf pa) n).slcPass (unitOf pa) (offOf pa) n else s
  if s.soft.isEmpty then s else s.correct cl pa n

/-- A write performed at its home, with what it wakes and the queue it enters (R252, R276, R281). who is the cluster that makes
it, for the log of an error (R284). -/
def State.perform (s : State) (pa n v : Nat) (who : Option Nat := none) : State := (((s.wake pa n).store pa n v who).enqueue pa n)

/-- The new value of a read-modify-write stored at its home (R277). -/
def State.performRed (s : State) (pa n v : Nat) (who : Option Nat := none) : State := (((s.wake pa n).store pa n v who).enqueueRed pa n)

/-! ## The TLBs (R287) -/

/-- The homes of the entries that a walk of va reads. -/
def State.walkPath (s : State) (cl : Nat) (a : Agent) (va : Nat) : Nat → Nat → List Nat
  | level, t =>
    match s.slicePa cl (t + 8 * bits va (15 + 11 * level) 11) with
    | none => []
    | some pa =>
      let e : W64 := BitVec.ofNat 64 (s.load pa 8)
      if s.refused cl pa a || s.badAt pa 8 || fld e 0 1 == 0 || fld e 1 1 == 1 || ptrMalformed level e then [pa]
      else match level with
        | 0 => [pa]
        | l + 1 => pa :: s.walkPath cl a va l (fld e 14 34 * 2 ^ 14)

/-- A walker's reads of the tables for va (R281, R287). -/
def State.walkReads (s : State) (cl : Nat) (a : Agent) (va : Nat) : State :=
  let r := (s.cl cl).ptroot
  if fld r 0 1 = 0 then s else (s.walkPath cl a va 2 (fld r 14 34 * 2 ^ 14)).foldl (fun s pa => s.readAt cl pa 8) s

/-- A leaf cached: the 64 entries of the scalar TLB are fully associative, the 512 of the engine TLB are 64 sets of 8 ways. An entry
whose parity fails goes (R283, R287). -/
def tlbPut (eng : Bool) (e : TlbEnt) (t : List TlbEnt) : List TlbEnt :=
  let t := t.filter fun f => !f.parity && !(f.level == e.level && f.vpn == e.vpn)
  if eng then e :: (t.filter fun f => f.vpn % 64 != e.vpn % 64) ++ (t.filter fun f => f.vpn % 64 == e.vpn % 64).take 7
  else e :: t.take 63

/-- The TLB after va has been used: a leaf it does not hold is walked for and cached; a walk that fails has read its tables all the
same (R281, R287). An address of the local-store window is not translated (R19). -/
def State.noteTlb (s : State) (cl : Nat) (a : Agent) (eng : Bool) (va : Nat) : State :=
  if va < lsTop then s else
  let c := s.cl cl
  match tlbFind (if eng then c.engTlb else c.tlb) va, s.walk cl a va with
  | none, .ok (l, e) =>
    let s := s.walkReads cl a va
    let c := s.cl cl
    let new : TlbEnt := { level := l, vpn := va / 2 ^ pageBits l, pte := e }
    s.setCl cl (if eng then { c with engTlb := tlbPut true new c.engTlb } else { c with tlb := tlbPut false new c.tlb })
  | none, .error _ => s.walkReads cl a va
  | some _, _ => s

/-- What a read that failed leaves: the walk that its translation made, which wakes and may cache (R281, R287), and the uncorrectable
error by which it failed, logged (R284): one met by a walk, or by the read itself. -/
def State.logFor (s : State) (cl : Nat) (a : Agent) (t : Trap) (eng : Bool := false) : State :=
  let s := if t.cause = 0x04 ∧ t.reason ≠ 1 ∨ t.cause = 0x05 then s.noteTlb cl a eng t.addr.toNat else s
  if t.cause = 0x04 ∧ t.reason = 5 then s.logWalk cl a t.addr.toNat
  else if t.cause = 0x12 then s.logVa cl a t.addr t.reason
  else s

/-! ## The L1 (R254, R268) -/

/-- The L1's cluster and line for a home that it caches: the slice, or for the monitor cluster the monitor region. -/
def State.l1Line (s : State) (cl pa : Nat) : Option Nat :=
  if spaceOf pa = 1 then some (offOf pa / 128)
  else if s.isMon cl ∧ spaceOf pa = 2 ∧ monBase ≤ offOf pa then some ((offOf pa - monBase) / 128)
  else none

/-- The home of a line's first byte. -/
def State.lineHome (s : State) (cl line : Nat) : Nat :=
  if s.isMon cl then pigAt (siteOf cl) (monBase + 128 * line) else sliceAt cl (128 * line)

/-- The eight bytes of a line that word w of its copy holds. -/
def wordMask (w : Nat) : BitVec 128 := (255 : BitVec 128) <<< (w % 128)

/-- The words of a line's own copy that fail and of which m holds a byte. -/
def State.l1Fails (s : State) (cl line : Nat) (m : BitVec 128) : List Nat :=
  s.bad.filter fun w => decide (l1At cl (128 * line) ≤ w ∧ w < l1At cl (128 * line) + 128) && m &&& wordMask w != 0

/-- A line's dirty bytes written at the home, under the key by which the line came. A dirty line whose tag's parity fails is lost, and
logged (R283); so are the bytes of a dirty word that fails in the line itself: its value is not delivered (R284; log 87). -/
def State.writeBack (s : State) (cl : Nat) (l : L1Line) : State :=
  if l.dirty = 0 then s
  else if l.parity then s.logErr cl (l1At cl (128 * l.line))
  else
    let pa := keyed (s.lineHome cl l.line) l.key
    let lost := s.l1Fails cl l.line l.dirty
    let s := lost.foldl (fun s w => s.logErr cl w) s
    let s := if s.soft.isEmpty then s else s.correct cl (l1At cl (128 * l.line)) 128
    let m := (lost.foldl (fun m w => m &&& ~~~wordMask w) l.dirty).toNat
    ((s.wake pa 128).storeMask pa 128 m l.data.toNat).enqueue pa 128 m

/-- A line held, if any. -/
def Cluster.l1Find (c : Cluster) (line : Nat) : Option L1Line := c.l1.find? fun l => decide (l.line = line)

/-- The line dropped from the L1, with whatever error its copy held. -/
def State.l1Drop (s : State) (cl line : Nat) : State :=
  let c := s.cl cl
  let s := s.setCl cl { c with l1 := c.l1.filter fun l => !decide (l.line = line) }
  let mine (w : Nat) : Bool := decide (l1At cl (128 * line) ≤ w ∧ w < l1At cl (128 * line) + 128)
  { s with bad := s.bad.filter fun w => !mine w, soft := s.soft.filter fun w => !mine w }

/-- The line made most recent. -/
def State.l1Recent (s : State) (cl : Nat) (l : L1Line) : State :=
  let c := s.cl cl
  s.setCl cl { c with l1 := l :: c.l1.filter fun m => !decide (m.line = l.line) }

/-- The line written back if dirty, and dropped (R228, R254). -/
def State.l1Flush (s : State) (cl line : Nat) : State :=
  match (s.cl cl).l1Find line with
  | none => s
  | some l => (s.writeBack cl l).l1Drop cl line

/-- A line that is not held will be filled under a key (R356). -/
def State.wantLine (s : State) (cl line key : Nat) : State :=
  let c := s.cl cl
  if (c.l1Find line).isSome ∨ mget 0 c.missKeys line = key then s else s.setCl cl { c with missKeys := mset c.missKeys line key }

/-- The line filled from the home, evicting the least recent line of a full set (R254, R268). -/
def State.l1Bring (s : State) (cl line : Nat) : State :=
  let key := mget 0 (s.cl cl).missKeys line
  let pa := keyed (s.lineHome cl line) key
  let inSet := (s.cl cl).l1.filter fun l => decide (l.line % 1024 = line % 1024)
  let s := if inSet.length < 12 then s else
    match inSet.getLast? with
    | some v => s.l1Flush cl v.line
    | none => s
  let s := s.readAt cl pa 128
  let c := s.cl cl
  let new : L1Line := { line := line, data := BitVec.ofNat 1024 (s.load pa 128), dirty := 0, key := key }
  s.setCl cl { c with
    l1 := new :: c.l1, l1Miss := c.l1Miss.filter fun l => !decide (l = line), missKeys := c.missKeys.filter fun e => !decide (e.1 = line) }

/-- The line made most recent, filled from the home where it is not held. A clean line whose tag's parity fails is discarded and
filled again (R268, R283). -/
def State.l1Fill (s : State) (cl line : Nat) : State :=
  match (s.cl cl).l1Find line with
  | some l => if l.parity && l.dirty == 0 then ((s.l1Drop cl line).wantLine cl line l.key).l1Bring cl line else s.l1Recent cl l
  | none => s.l1Bring cl line

/-- The L1's copy of n bytes holds an uncorrectable error: a failing word, or a dirty line whose tag's parity fails (R283). -/
def State.l1Bad (s : State) (cl : Nat) (l : L1Line) (o n : Nat) : Bool :=
  (l.parity && l.dirty != 0) || s.badAt (l1At cl (128 * l.line + o)) n

/-- A scalar load of n bytes from a home, through the L1 where it caches it (R127). None where the bytes read meet an
uncorrectable error (R284). A line of which another word fails is not kept: the load is served by the home. -/
def State.loadVia (s : State) (cl pa n : Nat) : Option Nat × State :=
  let direct (s : State) : Option Nat × State :=
    let s := s.readAt cl pa n
    if s.badAt pa n then (none, s.logBad cl pa n 1) else (some (s.load pa n), s)
  match s.l1Line cl pa with
  | none => direct s
  | some line =>
    if ((s.cl cl).l1Find line).isNone && s.badAt (s.lineHome cl line) 128 then direct s
    else
      let s := (s.wantLine cl line (keyOf pa)).l1Fill cl line
      match (s.cl cl).l1Find line with
      | some l =>
        let s := if s.soft.isEmpty then s else s.correct cl (l1At cl (128 * line + offOf pa % 128)) n
        if s.l1Bad cl l (offOf pa % 128) n then (none, s.logErr cl (l1At cl (128 * line + offOf pa % 128)) 1)
        else (some (bits l.data.toNat (8 * (offOf pa % 128)) (8 * n)), s)
      | none => (none, s)

/-- n bytes of a line set to v. -/
def L1Line.put (l : L1Line) (o n v : Nat) : L1Line :=
  let d := l.data.toNat
  let hi := d / 2 ^ (8 * (o + n))
  { l with
    data := BitVec.ofNat 1024 (d % 2 ^ (8 * o) + (v % 2 ^ (8 * n)) * 2 ^ (8 * o) + hi * 2 ^ (8 * (o + n)))
    dirty := l.dirty ||| BitVec.ofNat 128 ((2 ^ n - 1) * 2 ^ o) }

/-- A store that merges into a failing word of a line: the word's other bytes become 0 and it no longer fails, which is logged
(R284). A correctable error there is corrected (R283). -/
def State.l1Heal (s : State) (cl line o n : Nat) : State :=
  let a := l1At cl (128 * line + o / 8 * 8)
  let s := if s.soft.isEmpty then s else s.correct cl a 8
  if s.badAt (l1At cl (128 * line + o)) n then
    let s := if n = 8 then s else s.logErr cl a
    let c := s.cl cl
    let s := s.setCl cl { c with l1 := c.l1.map fun l => if l.line = line then l.put (o / 8 * 8) 8 0 else l }
    { s with bad := s.bad.filter fun w => w != a }
  else s

/-- A scalar store of n bytes to a home, through the L1 where it caches it (R127, R128). A line of which a word fails is not
kept: the store merges at the home, which mends the word it writes (R284). -/
def State.storeVia (s : State) (cl pa n v : Nat) : State :=
  match s.l1Line cl pa with
  | none => s.perform pa n v (some cl)
  | some line =>
    if ((s.cl cl).l1Find line).isNone && s.badAt (s.lineHome cl line) 128 then s.perform pa n v (some cl)
    else
      let s := ((s.wantLine cl line (keyOf pa)).l1Fill cl line).l1Heal cl line (offOf pa % 128) n
      let c := s.cl cl
      s.setCl cl { c with l1 := c.l1.map fun l => if l.line = line then l.put (offOf pa % 128) n v else l }

/-- Every leaf of the tables below slice offset t: the first address it maps, its level and entry (R285). -/
def State.leavesFrom (s : State) (cl : Nat) (a : Agent) : Nat → Nat → Nat → List (Nat × Nat × W64)
  | level, t, base =>
    (List.range 2048).flatMap fun i =>
      match s.slicePa cl (t + 8 * i) with
      | none => []
      | some pa =>
        if s.refused cl pa a || s.badAt pa 8 then []
        else
          let e : W64 := BitVec.ofNat 64 (s.load pa 8)
          let va := base + i * 2 ^ (15 + 11 * level)
          if fld e 0 1 = 0 then []
          else if fld e 1 1 = 1 then (if leafMalformed level e then [] else [(va, level, e)])
          else if ptrMalformed level e then []
          else match level with
            | 0 => []
            | l + 1 => s.leavesFrom cl a l (fld e 14 34 * 2 ^ 14) va

/-- Every leaf a cluster's scalar accesses may use: those cached and those its tables hold. -/
def State.leaves (s : State) (cl : Nat) (a : Agent) : List (Nat × Nat × W64) :=
  let c := s.cl cl
  c.tlb.map (fun e => (e.vpn * 2 ^ pageBits e.level, e.level, e.pte)) ++
    (if fld c.ptroot 0 1 = 0 then [] else s.leavesFrom cl a 2 (fld c.ptroot 14 34 * 2 ^ 14) 0)

/-- Lines held in the L1 of which some byte lies in the virtual range [va, va + len), cut at 2^48, each with whether it
lies wholly in the range (R129). -/
def State.linesOf (s : State) (cl : Nat) (a : Agent) (va len : Nat) : List (Nat × Bool) :=
  let hi := min (va + len) (2 ^ 48)
  let lines := (s.cl cl).l1
  if lines.isEmpty ∨ len = 0 then [] else
    let lv := s.leaves cl a
    lines.filterMap fun l =>
      let x := 128 * l.line
      let home := s.lineHome cl l.line
      let vas := lv.filterMap fun (base, level, e) =>
        let f := fld e 15 33 * 2 ^ 15
        -- the offset that a leaf of the right kind must name for this line
        let y := if fld e 6 1 = 1 then (if spaceOf home = 2 then some (offOf home) else none) else some x
        match y with
        | some y => if f ≤ y ∧ y < f + 2 ^ pageBits level then some (base + (y - f)) else none
        | none => none
      let hit := vas.filter fun v => decide (lsTop ≤ v ∧ v < hi ∧ va < v + 128)
      if hit.isEmpty then none else some (l.line, hit.any fun v => decide (va ≤ v ∧ v + 128 ≤ hi))

end Sys2Proof.Machine
end

