-- ==== Sys2Proof/Machine/Ops.lean ====
section
/-! DEFINITION. The named operations over registers, landings, timelines, traps and the return stack (R10 to R17, R88 to R106). -/
namespace Sys2Proof.Machine

/-- The outcome of a meaning. -/
abbrev Out := Host.Outcome State Fault Refusal

/-- A free value of the machine (log 6). -/
def State.fresh (s : State) : W64 × State := (Config.freeWord s.free, { s with free := s.free + 1 })

/-! ## Registers (R10, R72) -/

/-- The scalar-domain register n below 48 as landed; s0 reads 0. -/
def Ctx.getX (c : Ctx) (n : Nat) : W64 := if n = 0 then 0 else mget 0 c.xs n
/-- The vector register n below 28 as landed. -/
def Ctx.getV (c : Ctx) (n : Nat) : V2048 := mget 0 c.vs n
/-- The condition register n; c0 reads 1. -/
def Ctx.getC (c : Ctx) (n : Nat) : Bool := n == 0 || c.cs.getLsbD n
/-- The predicate n; p0 reads all ones. -/
def Ctx.getP (c : Ctx) (n : Nat) : W64 := if n = 0 then BitVec.allOnes 64 else mget 0 c.ps n

/-- The scalar queue register q0 to q15. -/
def Ctx.getQ (c : Ctx) (q : Nat) : XQueue := mget {} c.qs q
/-- The vector queue register vq0 to vq3. -/
def Ctx.getVQ (c : Ctx) (q : Nat) : VQueue := mget {} c.vqs q

/-- Set a dirty bit (R109). -/
def Ctx.markDirty (c : Ctx) (i : Nat) : Ctx := { c with dirty := c.dirty ||| BitVec.ofNat 104 (2 ^ i) }

/-- A landing write (R10, R89, R109): s0, c0 and p0 discard it, a queue register takes it as its new tail. -/
def Ctx.land (c : Ctx) : Wr → Ctx
  | .x n v =>
    if n = 0 then c
    else if n < 48 then { c with xs := mset c.xs n v }.markDirty n
    else { c with qs := mset c.qs (n - 48) { c.getQ (n - 48) with ents := (c.getQ (n - 48)).ents ++ [v] } }.markDirty n
  | .v n v =>
    if n < 28 then { c with vs := mset c.vs n v }.markDirty (64 + n)
    else { c with vqs := mset c.vqs (n - 28) { c.getVQ (n - 28) with ents := (c.getVQ (n - 28)).ents ++ [v] } }.markDirty (64 + n)
  | .c n v => if n = 0 then c else { c with cs := if v then c.cs ||| BitVec.ofNat 8 (2 ^ n) else c.cs &&& ~~~ BitVec.ofNat 8 (2 ^ n) }
  | .p n v => if n = 0 then c else { c with ps := mset c.ps n v }.markDirty (96 + n)
  | .flags => c

/-- Sticky flags set at a landing (R29). -/
def Ctx.orFlags (c : Ctx) (fl : BitVec 5) (toV : Bool) : Ctx :=
  if toV then { c with vflags := c.vflags ||| fl.setWidth 64 } else { c with fctl := c.fctl ||| fl.setWidth 64 }

/-- The register a write is for. -/
def Wr.reg : Wr → Option Reg
  | .x n _ => some (.x n)
  | .v n _ => some (.v n)
  | .c n _ => some (.c n)
  | .p n _ => some (.p n)
  | .flags => none

/-- Landing of one fixed-latency write. -/
def Ctx.landPend (c : Ctx) (p : Pend) : Ctx := (c.land p.wr).orFlags p.fl p.toV

/-- A fixed-latency write to r by an earlier bundle than seq is still pending. -/
def Ctx.fixedBefore (c : Ctx) (r : Reg) (seq : Nat) : Bool := c.pending.any fun p => decide (p.wr.reg = some r ∧ p.seq < seq)

/-- An interlocked result with known writes may land: no earlier-issued fixed-latency write to its registers is
pending (R90), and the context is not in COMPENSATE (R93). -/
def Ctx.canLand (c : Ctx) (f : Inflight) : Bool := c.cstate != .compensate && f.val.isSome && !(f.dsts.any fun r => c.fixedBefore r f.seq)

/-- Landing of one interlocked result (R91). -/
def Ctx.landInflight (c : Ctx) (f : Inflight) : Ctx :=
  match f.val with
  | none => c
  | some ws =>
    let c := { c with inflight := c.inflight.filter fun g => !decide (g.id = f.id) }
    (ws.foldl Ctx.land c).orFlags f.fl false

/-- Landing of an interlocked result where R90 lets it. -/
def Ctx.tryLand (c : Ctx) (f : Inflight) : Ctx := if c.canLand f then c.landInflight f else c

/-- Every interlocked result that may land does. -/
def Ctx.settleKnown (c : Ctx) : Ctx := c.inflight.foldl Ctx.tryLand c

/-- Landing of a fixed-latency write that is due. -/
def Ctx.landOne (c : Ctx) (p : Pend) : Ctx := { c with pending := c.pending.erase p }.landPend p

/-- The fixed-latency writes of a list land in order, each interlocked result before the first that was issued after it (R13, R90). -/
def Ctx.landFixed (c : Ctx) : List Pend → Ctx
  | [] => c
  | p :: ps => (((c.inflight.filter fun f => decide (f.seq < p.seq)).foldl Ctx.tryLand c).landOne p).landFixed ps

/-- Every fixed-latency write due by the count. -/
def Ctx.dueNow (c : Ctx) : List Pend := c.pending.filter fun p => decide (p.due ≤ c.ccount)

/-- Every fixed-latency write due by the count lands, in issue order; in COMPENSATE nothing lands (R89, R90, R93). -/
def Ctx.landDue (c : Ctx) : Ctx := if c.cstate = .compensate then c else c.dueNow.foldl Ctx.landOne c

/-- The end of a cycle of the context: what is due and every interlocked result that has arrived land, in the issue order of their
bundles (R13, R89 to R91). -/
def Ctx.landAll (c : Ctx) : Ctx := (c.landFixed c.dueNow).settleKnown

/-- A result is due by the count that this stepping has not delivered by a cycle of the cluster (R93). -/
def Ctx.late (c : Ctx) (now : Nat) : Bool := (c.dueNow.any fun p => decide (now < p.arr)) || c.fmts.any fun e => decide (now < e.2.2.2)

/-- One context cycle (R88), now being the cluster's next cycle: the count advances, and what is due lands; where some of it has not
arrived the context enters COMPENSATE and nothing lands (R93). -/
def Ctx.tick (c : Ctx) (now : Nat) : Ctx :=
  let c := { c with ccount := c.ccount + 1 }
  if c.late now then { c with cstate := .compensate } else c.landAll

/-- n context cycles in the cluster cycles that follow now. -/
def Ctx.ticks (c : Ctx) (now : Nat) : Nat → Ctx
  | 0 => c
  | n + 1 => (c.tick (now + 1)).ticks (now + 1) n

/-- The stepping-latency class of a result: the unit, as Issue.unit numbers it, the latency, and whether it is a predicate or a
condition (R33, R144, Tables 14 to 17). The stepped register of vld and vst, for which no table names a class, has that of the scalar
ALU (DESIGN CHOICE, log 88). -/
def latClass (unit L : Nat) (pred : Bool) : Nat :=
  match unit, L with
  | 1, 3 => 1
  | 1, _ => 2
  | 2, _ => 3
  | 3, 1 => 0
  | 3, 2 => if pred then 6 else 4
  | 3, 4 => 5
  | 3, 3 => 7
  | 3, 6 => 8
  | 4, _ => 9
  | 5, _ => 6
  | 3, _ => 10
  | _, _ => 0

/-- The write goes to a condition or predicate register. -/
def Wr.isPred : Wr → Bool
  | .c _ _ => true
  | .p _ _ => true
  | _ => false

/-- A fixed-latency result of the bundle being issued, landing L cycles on (R89), and delivered PHYS cycles on (R93). A discarded
write leaves nothing pending but the flags it carries (R94, R104). -/
def State.fix (s : State) (L : Nat) (w : Wr) (fl : BitVec 5 := 0) (toV : Bool := false) : State :=
  let c := s.me
  let w' := match w with
    | .x 0 _ => .flags
    | .c 0 _ => .flags
    | .p 0 _ => .flags
    | w => w
  if w' = .flags ∧ fl = 0 then s
  else s.setMe { c with pending := c.pending ++ [{
    wr := w', due := c.ccount + L, seq := c.seq, fl := fl, toV := toV
    arr := s.myCl.cycle + min 255 (L + Config.physSlack (latClass s.issue.unit L w.isPred)) }] }

/-- s0, c0 and p0, whose writes are discarded (R10). -/
def Reg.isFixed : Reg → Bool
  | .x n => n == 0
  | .c n => n == 0
  | .p n => n == 0
  | .v _ => false

/-- An interlocked result of the bundle being issued, for the registers ds (R91). -/
def State.inter (s : State) (ds : List Reg) (val : Option (List Wr)) (fl : BitVec 5 := 0) : State :=
  let c := s.me
  s.setMe { c with
    inflight := c.inflight ++ [{
      id := c.nextId, dsts := ds.filter fun r => !r.isFixed, seq := c.seq, val := val, fl := fl }]
    nextId := c.nextId + 1 }

/-- The number that the next interlocked result of the context will bear. -/
def State.nextInter (s : State) : Nat := s.me.nextId

/-- An interlocked result of context g becomes known (R91). -/
def State.answer (s : State) (g id : Nat) (ws : List Wr) (fl : BitVec 5 := 0) : State :=
  let c := s.ctx g
  s.setCtx g { c with inflight := c.inflight.map fun f => if f.id = id then { f with val := some ws, fl := fl } else f }

/-- An interlocked result of context g is withdrawn, its destination not written (R103). -/
def State.dropInter (s : State) (g id : Nat) : State :=
  let c := s.ctx g
  s.setCtx g { c with inflight := c.inflight.filter fun f => !decide (f.id = id) }

/-! ## Immediates (R71) -/

/-- The immediate of a field of width w, widened by the ext before the slot. -/
def State.imm (s : State) {w : Nat} (f : BitVec w) : Int :=
  match s.issue.ext with
  | none => f.toInt
  | some h => sextNat (h.toNat * 2 ^ w + f.toNat) (21 + w)

/-! ## Privilege -/

/-- The level a trap raises a context to: MONITOR on the monitor cluster, SUPER elsewhere (R26). -/
def State.trapLevel (s : State) (cl : Nat) : Nat := if s.isMon cl then 2 else 1

/-- For whom a context's accesses are made (R354). -/
def State.agentOf (s : State) (g : Nat) : Agent :=
  { slot := (s.cl (g / 4)).ti.slot, monitor := decide ((s.ctx g).priv = 2) }

/-- The context's accesses are at USER (R286). -/
def State.userOf (s : State) (g : Nat) : Bool := decide ((s.ctx g).priv = 0)

/-- The address checks of one scalar access of the issuing context (R126). -/
def State.access (s : State) (va : W64) (n : Nat) (acc : Acc) : Except Trap Nat :=
  s.addrCheck s.clNo (s.agentOf s.cur) (s.userOf s.cur) va n acc

/-! ## Traps (R99 to R106) -/

/-- TRAPINFO of a trap (R101, R106). -/
def Trap.info (t : Trap) : W64 := BitVec.ofNat 64 (t.detail * 2 ^ 11 + t.slot * 2 ^ 8 + t.reason)

/-- The shadow entry of a fixed-latency write in flight at the stop (R104). -/
def Ctx.shadowOf (c : Ctx) (p : Pend) : Shadow :=
  { wr := p.wr
    noVal := c.inflight.any fun f => decide (p.seq < f.seq) && f.dsts.any fun r => decide (p.wr.reg = some r)
    k := p.due - c.ccount, fl := p.fl, toV := p.toV }

/-- The writes in flight go to the shadow buffer, what is due by the stop having landed; where it already holds entries nothing moves
(R102 step 3, R104). -/
def Ctx.toShadow (c : Ctx) : Ctx :=
  let c := c.landDue
  if c.shadow.isEmpty then
    let sh := c.pending.map c.shadowOf
    { c with shadow := sh, pending := [], trapShadow := !sh.isEmpty }
  else { c with trapShadow := false }

/-! ## The engine side of a task fault (R243, R314) -/

def Site.queue (x : Site) (q : Nat) : WorkQ := mget {} x.queues q
def Site.heap (x : Site) (h : Nat) : Heap := mget {} x.heaps h
def State.setQueue (s : State) (site q : Nat) (w : WorkQ) : State :=
  let x := s.site site
  s.setSite site { x with queues := mset x.queues q w }
def State.setHeap (s : State) (site h : Nat) (w : Heap) : State :=
  let x := s.site site
  s.setSite site { x with heaps := mset x.heaps h w }

/-- Every pop that waits unanswered is answered (R241, R247). -/
def answerAll (c : Bool) (d : W64) (ws : List Waiter) : List Waiter := ws.map fun w => { w with ans := w.ans.or (some (c, d)) }

/-- A queue frozen: the pops that wait are answered, each an operation of the queue (R242, R243). -/
def WorkQ.freeze (q : WorkQ) : WorkQ :=
  { q with frozen := true, waits := answerAll false 3 q.waits, ops := q.ops + (q.waits.filter fun w => w.ans.isNone).length }

/-- The fault record of R314, as one number of 64 bytes. -/
def faultRecord (k : CurTask) (t : Trap) (pc : W64) (g : Nat) : Nat :=
  pack 64 [k.word.toNat, pc.toNat, t.cause + t.reason % 256 * 2 ^ 8 + g % 2 ^ 15 * 2 ^ 32, t.addr.toNat, t.info.toNat,
    if k.heap then k.site * 16 + k.ix + 2 ^ 16 else k.site * 1024 + k.ix, 0, 0]

/-- The record written at FREC, and TASKFAULT made pending for the owner, a context of the given team, wherever that team stands (R314). -/
def State.taskFaultTo (s : State) (k : CurTask) (t : Trap) (pc : W64) (g frec owner team : Nat) : State :=
  let s := s.perform (pigAt k.site frec) 64 (faultRecord k t pc g)
  let tf : Trap := { cause := 0x11, addr := BitVec.ofNat 64 (k.site * 2 ^ 26 + frec), reason := if k.heap then 2 else 1, detail := k.ix }
  let give (o : Ctx) : Ctx :=
    if o.live = .off ∨ o.live = .exiting then o else { o with taskFaults := o.taskFaults ++ [tf] }
  let tm := mget { pb := 0, letter := 0, words := [], clusters := [] } s.teams team
  if tm.phase = .saved ∧ tm.parked.any fun p => p.cl == owner / 4 then
    -- a pre-empted owner takes it after restore
    { s with teams := mset s.teams team { tm with
        parked := tm.parked.map fun p => if p.cl = owner / 4 then
          { p with ctxs := p.ctxs.mapIdx fun i o => if i = owner % 4 then give o else o } else p } }
  else s.setCtx owner (give (s.ctx owner))

/-- Traps that freeze the queue or heap of a current task (R243). -/
def Trap.freezes (t : Trap) : Bool :=
  !(t.cause == 0x11 || t.cause == 0x13 || t.cause == 0x14 || (t.cause == 0x03 && t.reason == 2))

/-- The queue or heap of context g's current task is frozen by a trap (R243). -/
def State.freezeTask (s : State) (g : Nat) (t : Trap) (pc : W64) : State :=
  match (s.ctx g).task with
  | none => s
  | some k =>
    if !t.freezes then s
    else if k.heap then
      let h := (s.site k.site).heap k.ix
      let s := s.setHeap k.site k.ix { h with frozen := true, written := true, waits := answerAll false 3 h.waits }
      if h.written then s else s.taskFaultTo k t pc g h.frec h.owner (if h.ownTeam = 0 then h.team else h.ownTeam)
    else
      let q := (s.site k.site).queue k.ix
      let s := s.setQueue k.site k.ix { q.freeze with written := true }
      if q.written then s else s.taskFaultTo k t pc g q.frec q.owner (if q.ownTeam = 0 then q.team else q.ownTeam)

/-- The uncorrectable error behind a trap of context g, logged (R284): of a walk, a read, a block or its tag entry, or the spill
area. -/
def State.logTrap (s : State) (g : Nat) (t : Trap) : State :=
  let cl := g / 4
  let a := s.agentOf g
  let x := (s.ctx g).seg
  if t.cause = 0x0E then
    let k := (t.addr.toNat - x.text.toNat) / 256
    -- no word of a block outside the segment is read
    if t.addr.toNat < x.text.toNat ∨ x.nblk ≤ k then s else match s.homeOf cl a t.addr.toNat with
    | none => s
    | some pa =>
      let s := s.readAt cl pa 256
      if s.badAt pa 256 then s.logBad cl pa 256 0x0E
      else match s.homeOf cl a (x.tags + BitVec.ofNat 64 (16 * k)).toNat with
        | some ta => (s.readAt cl ta 16).logBad cl ta 16 0x0E
        | none => s
  else if t.cause = 0x0C then s.logFor cl a { cause := t.detail % 256, addr := t.addr, reason := t.detail / 256 }
  else s.logFor cl a t

/-- Taking a trap at a bundle boundary (R102): what is in flight goes to the shadow buffer, the cause, address and detail
are recorded with the address pc and the wait remainder, the level is saved and raised, a replay is suspended, and the
context goes to TRAPVEC, or exits where TRAPVEC.ADDR is 0. -/
def State.trapEntry (s : State) (g : Nat) (t : Trap) (pc : W64) (wrem : Nat := 0) : State :=
  let s := s.freezeTask g t pc
  let c := (s.ctx g).toShadow
  s.setCtx g { c with
    trapCause := t.cause, trapPc := pc, trapAddr := t.addr, trapInfo := t.info, trapWrem := wrem
    ppriv := c.priv, priv := s.trapLevel (g / 4)
    lbuf := c.lbuf.map fun l => { l with suspended := true }
    sqr := { c.sqr with susp := c.sqr.susp || c.sqr.step != 0 }
    waitLeft := none, settle := true, cstate := .fetch
    pc := c.trapVec
    live := if c.trapVec = 0 then .exiting else c.live
    exitTrap := if c.trapVec = 0 then some t else c.exitTrap }

/-- A nullifying trap of the slot being issued (R99, R100): taken at once, and the verdict tells the bundle step to
take it on the state before the bundle. -/
def State.trapNow (s : State) (t : Trap) : Out :=
  let t := { t with slot := s.issue.slot }
  let s' := (s.logTrap s.cur t).trapEntry s.cur t s.issue.bpc
  .next { s' with issue := { s'.issue with verdict := .trapped t } }

/-- A waiting instruction holds its bundle in BLOCK, leaving a mark at its engine (R226). -/
def State.holdWait (s : State) (k : Option Keep := none) : Out :=
  .next { s with issue := { s.issue with verdict := .held .block, waits := true, keep := k } }

/-- The result of a waiting instruction: it lands at the end of the cycle in which the bundle issues (R226). -/
def State.waitResult (s : State) (ds : List Reg) (ws : List Wr) : State :=
  let id := s.nextInter
  let s := s.inter ds (some ws)
  { s with issue := { s.issue with late := s.issue.late ++ [.arrive id] } }

/-- The slot holds its bundle in STALL or BLOCK (R88): nothing of the bundle takes effect. -/
def State.hold (s : State) (c : CState) : Out := .next { s with issue := { s.issue with verdict := .held c } }

/-- The buffered writes re-enter the pipeline at the count now reached (R105 step 2), as issued before whatever the handler issued
(R13, R90). -/
def Ctx.replay (c : Ctx) : Ctx :=
  if c.trapShadow then
    { c with
      pending := (c.shadow.map fun e =>
        { wr := if e.noVal then .flags else e.wr, due := c.ccount + e.k, seq := 0, fl := e.fl, toV := e.toV }) ++ c.pending
      shadow := [], trapShadow := false }
  else c

/-- The return from a trap (R105): the level and the address are restored, the shadow buffer replays where SHADOW is 1,
WREM wait cycles replace the bundle's own, and a suspended replay resumes. -/
def Ctx.eret (c : Ctx) : Ctx :=
  let c := c.replay
  { c with
    priv := c.ppriv, pc := c.trapPc, waitLeft := some c.trapWrem
    lbuf := c.lbuf.map fun l => { l with suspended := false }, sqr := { c.sqr with susp := false } }

/-! ## Timelines (R16, R17, R236) -/

def Ctx.tl (c : Ctx) (t : Nat) : Timeline := mget {} c.tls t
def State.tl (s : State) (g t : Nat) : Timeline := (s.ctx g).tl t
def State.setTl (s : State) (g t : Nat) (x : Timeline) : State :=
  let c := s.ctx g
  s.setCtx g { c with tls := mset c.tls t x }

/-- A counter advanced over the completed prefix, trying at most fuel numbers. -/
def advance (fin : List Nat) : Nat → Nat → Nat
  | 0, n => n
  | f + 1, n => if (n + 1) ∈ fin then advance fin f (n + 1) else n

/-- DONE and VIS over the prefixes completed and visible; VIS never passes DONE (R16). -/
def Timeline.settle (t : Timeline) : Timeline :=
  let d := advance t.fin t.fin.length t.done
  let v := min d (advance t.seen t.seen.length t.vis)
  { t with
    done := d, vis := v
    fin := t.fin.filter fun n => decide (d < n)
    seen := t.seen.filter fun n => decide (v < n) }

/-- An operation numbered above the one that failed is cancelled (R17). -/
def Timeline.cancelled (t : Timeline) (n : Nat) : Bool := match t.err with
  | some e => decide (e.num < n)
  | none => false

/-- n numbers taken on a timeline (R16). -/
def State.takeNums (s : State) (g t n : Nat) : State :=
  let x := s.tl g t
  s.setTl g t { x with issue := x.issue + n }

/-- Operation n has completed locally, and is visible too where vis holds (R16). -/
def State.complete (s : State) (g t n : Nat) (vis : Bool := true) : State :=
  let x := s.tl g t
  if x.cancelled n ∨ n ∈ x.failed then s
  else s.setTl g t { x with fin := n :: x.fin, seen := if vis then n :: x.seen else x.seen }.settle

/-- Operation n, complete before, is now visible at its target (R16). -/
def State.makeVis (s : State) (g t n : Nat) : State :=
  let x := s.tl g t
  s.setTl g t { x with seen := n :: x.seen }.settle

/-- Operation n has failed: the timeline is in ERROR, DONE and VIS do not pass n from now, and its record describes the
lowest-numbered failure (R17, R236). -/
def State.failOp (s : State) (g t n : Nat) (addr : W64) (code : Nat) (side : Nat := 0) : State :=
  let x := s.tl g t
  let new : TlErr := { num := n, addr := addr, code := code, side := side }
  if x.cancelled n ∨ n ∈ x.failed ∨ n ≤ x.vis then s
  else s.setTl g t { x with
    failed := n :: x.failed, fin := x.fin.filter (· != n), seen := x.seen.filter (· != n)
    err := match x.err with
      | none => some new
      | some e => some { (if n < e.num then new else e) with more := min (e.more + 1) 255 } }

/-- TLERR with a reason (Table 21). -/
def tlerrTrap (t reason : Nat) : Trap := { cause := 0x0D, reason := reason, detail := t }

/-- Taking n numbers would pass 2^64 − 1 (R16, R96). -/
def Timeline.wraps (t : Timeline) (n : Nat) : Bool := decide (2 ^ 64 - 1 < t.issue + n)

end Sys2Proof.Machine
end

