-- ==== Sys2Proof/Machine/Flags.lean ====
section
/-! DEFINITION. The status registers: FCTL, VFLAGS, CTXSTAT, TRAPCAUSE, and the flag sets of results (R29, R30, R44, R106). -/
namespace Sys2Proof.Machine

/-- FCTL.RM of the issuing context (R29). -/
def State.rm (s : State) : RMode := RMode.ofCode (fld s.me.fctl 8 2)

/-- A write to FCTL keeps RM and the five flags (R29). -/
def fctlOf (v : W64) : W64 := BitVec.ofNat 64 (fld v 8 2 * 256 + fld v 0 5)

/-- A write to VFLAGS keeps the five flags. -/
def vflagsOf (v : W64) : W64 := BitVec.ofNat 64 (fld v 0 5)

/-- CTXSTAT of context g (R30). -/
def Ctx.ctxstat (c : Ctx) (g : Nat) : W64 :=
  BitVec.ofNat 64 (bn c.sealedCtx * 256 + c.ppriv * 64 + g % 4 * 4 + c.priv)

/-- PPRIV as a write stores it: 3 stores 2, and off the monitor cluster 2 and 3 store 1 (R30). -/
def pprivOf (mon : Bool) (v : Nat) : Nat := if mon then min v 2 else min v 1

/-- TRAPCAUSE (R106); SHN is the number of entries the shadow buffer holds. -/
def Ctx.trapcause (c : Ctx) : W64 :=
  BitVec.ofNat 64 (c.trapWrem * 2 ^ 24 + c.shadow.length * 2 ^ 16 + bn c.trapShadow * 256 + c.trapCause)

/-- A write to TRAPCAUSE (R106): DISCARD empties the buffer, and SHADOW stays 0 while SHN is 0. -/
def Ctx.setTrapcause (c : Ctx) (v : W64) : Ctx :=
  let c := if fld v 9 1 = 1 then { c with shadow := [], trapShadow := false } else c
  { c with
    trapWrem := fld v 24 4, trapCause := fld v 0 8
    trapShadow := fld v 8 1 == 1 && fld v 9 1 == 0 && !c.shadow.isEmpty }

end Sys2Proof.Machine
end

