-- ==== Sys2Proof/Machine/Access.lean ====
section
/-! DEFINITION. Accesses between their issue and the moment they are performed (R127, R128, R252 to R258, R268, R270), and the return
stack, which spills and refills through memory (R98). -/
namespace Sys2Proof.Machine

/-! ## Sizes and values -/

/-- The access size in bytes of a size code (R125). -/
def szBytes (z : Nat) : Nat := 2 ^ (z % 4)

/-- The loaded bytes widened: signed for codes 0 to 3, unsigned for 4 to 6 (R125). -/
def widen (z : Nat) (v : Nat) : W64 :=
  if z < 4 then wrap 64 (sextNat v (8 * szBytes z)) else BitVec.ofNat 64 v

/-- The bytes an operation reads and writes (Table 34). -/
def AmoOp.size : AmoOp → Nat
  | .addf => 4
  | .hist => 4
  | _ => 8

/-- The new value of the location and the flags, from its old value, B and, for acas, the comparand (Table 34, R229,
R230). -/
def AmoOp.apply (op : AmoOp) (m : Nat) (b d : W64) : Nat × Flags :=
  let x : W64 := BitVec.ofNat 64 m
  match op with
  | .add => ((x + b).toNat, 0)
  | .and => ((x &&& b).toNat, 0)
  | .or => ((x ||| b).toNat, 0)
  | .xchg => (b.toNat, 0)
  | .maxs => ((maxS x b).toNat, 0)
  | .mins => ((minS x b).toNat, 0)
  | .addf => fAdd f32 .rne m (fld b 0 32)
  | .fx => ((wrap 64 (satS64 (x.toInt + b.toInt))).toNat, 0)
  | .cas => (if x = d then b.toNat else m, 0)
  | .hist => ((m + 1) % 2 ^ 32, 0)

/-- The bytes an access reads or writes. -/
def MemOp.size : MemOp → Nat
  | .load z => szBytes z
  | .store n => n
  | .amo op => op.size
  | .lane n _ => n
  | .bcst => 4
  | .addEl _ => 4

/-- Two accesses share a byte. -/
def MemReq.meets (a b : MemReq) : Bool := decide (bare a.pa < bare b.pa + b.op.size ∧ bare b.pa < bare a.pa + a.op.size)

/-! ## Lanes -/

/-- Bit i of a predicate (R11). -/
def pbit (p : W64) (i : Nat) : Bool := p.getLsbD i

/-- A vector whose active lanes are f and whose others are old. -/
def lanes (p : W64) (old : V2048) (f : Nat → W32) : V2048 := vecOf fun i => if pbit p i then f i else lane old i

/-! ## Results -/

/-- MEMERR of an access that has issued, due at its context's next bundle boundary (R103): TRAPADDR the virtual address, DETAIL from
bit 5 the address of its bundle, and its slot. -/
def State.memErr (s : State) (r : MemReq) : State :=
  let c := s.ctx r.ctx
  s.setCtx r.ctx { c with memErrs := c.memErrs ++ [{
    cause := 0x12, addr := r.va, reason := r.reason, detail := r.bpc.toNat % 2 ^ 48 * 32, slot := r.slot }] }

/-- The writes of a result that several accesses make up (R91). -/
def Inflight.whole (f : Inflight) : List Wr := f.dsts.filterMap fun r => match r with
  | .v n => some (.v n f.acc)
  | .x n => some (.x n (f.acc.setWidth 64))
  | _ => none

/-- n bytes v set from bit b on. -/
def setBits (x : V2048) (b n v : Nat) : V2048 :=
  let m : V2048 := BitVec.ofNat 2048 (2 ^ (8 * n) - 1) <<< b
  (x &&& ~~~m) ||| ((BitVec.ofNat 2048 v <<< b) &&& m)

/-- One of the accesses of a result done: what it brings, or a failure. -/
def Inflight.take (f : Inflight) (put : Option (V2048 → V2048)) (ord : Nat) (va : W64) : Inflight :=
  let f := { f with left := f.left - 1 }
  match put with
  | some g => { f with acc := g f.acc }
  | none => match f.failed with
    | some (o, _) => if ord < o then { f with failed := some (ord, va) } else f
    | none => { f with failed := some (ord, va) }

/-- An access of a result that several make up is done. With the last of them the result is known; where one failed its
destination is not written, and MEMERR names the lowest in order (R103, R161, R167). -/
def State.takePart (s : State) (r : MemReq) (put : Option (V2048 → V2048)) : State :=
  let c := s.ctx r.ctx
  match c.inflight.find? fun f => f.id == r.id with
  | none => s
  | some f =>
    let f := f.take put r.ord r.va
    if f.left ≠ 0 then s.setCtx r.ctx { c with inflight := c.inflight.map fun g => if g.id = r.id then f else g }
    else match f.failed with
      | some (_, va) => (s.dropInter r.ctx r.id).memErr { r with va := va }
      | none =>
        s.setCtx r.ctx { c with inflight := c.inflight.map fun g => if g.id = r.id then { f with val := some f.whole } else g }

/-- An uncorrectable error that one of the accesses of a result meets in [r.pa, r.pa + n), logged: once for each word, however many
of them meet it (R284). -/
def State.logPart (s : State) (r : MemReq) (n : Nat) : State :=
  let w := s.firstBadWord r.pa n
  match (s.ctx r.ctx).inflight.find? fun f => f.id == r.id with
  | none => s.logBad (r.ctx / 4) r.pa n r.reason
  | some f =>
    if f.badWords.contains w then s
    else
      let s := s.logBad (r.ctx / 4) r.pa n r.reason
      let c := s.ctx r.ctx
      s.setCtx r.ctx { c with inflight := c.inflight.map fun g => if g.id = r.id then { g with badWords := g.badWords ++ [w] } else g }

/-! ## Performing an access -/

/-- The read-modify-write at a home, one step (R228): the old value and the flags; none where an uncorrectable error leaves the
location as it stands. An L1 line is written back and dropped first. -/
def State.amoAt (s : State) (cl pa : Nat) (op : AmoOp) (b d : W64) : Option (Nat × Flags) × State :=
  let s := match s.l1Line cl pa with
    | some line => s.l1Flush cl line
    | none => s
  let s := s.readRed cl pa op.size
  if s.badAt pa op.size then (none, s.logBad cl pa op.size 1)
  else
    let old := s.load pa op.size
    let (v, fl) := op.apply old b d
    (some (old, fl), s.performRed pa op.size v (some cl))

/-- One element update of vsctadd: its flags go to VFLAGS with it; a failing word is left as it stands (R29, R166, R167). -/
def State.addElem (s : State) (r : MemReq) (float : Bool) : State :=
  let cl := r.ctx / 4
  let s := s.readAt cl r.pa 4
  if s.badAt r.pa 4 then (s.logPart r 4).takePart r none
  else
    let x := s.load r.pa 4
    let (v, fl) : Nat × Flags := if float then fAdd f32 .rne x (fld r.arg 0 32) else ((x + fld r.arg 0 32) % 2 ^ 32, 0)
    let s := s.perform r.pa 4 v
    let c := s.ctx r.ctx
    (s.setCtx r.ctx (c.orFlags fl true)).takePart r (some id)

/-- An access performed: at the L1 where it caches the home, else at the home (R127, R128, R228, R252). -/
def State.serve (s : State) (r : MemReq) : State :=
  let cl := r.ctx / 4
  match r.op with
  | .store n => s.storeVia cl r.pa n r.arg.toNat
  | .load z => match s.loadVia cl r.pa (szBytes z) with
    | (none, s) => (s.dropInter r.ctx r.id).memErr r
    | (some v, s) => s.answer r.ctx r.id [.x r.dst (widen z v)]
  | .amo op => match s.amoAt cl r.pa op r.arg r.arg2 with
    | (none, s) => (s.dropInter r.ctx r.id).memErr r
    | (some (old, fl), s) => s.answer r.ctx r.id [.x r.dst (BitVec.ofNat 64 old)] fl
  | .lane n b =>
    let s := s.readAt cl r.pa n
    if s.badAt r.pa n then (s.logPart r n).takePart r none
    else s.takePart r (some fun x => setBits x b n (s.load r.pa n))
  | .bcst =>
    let s := s.readAt cl r.pa 4
    if s.badAt r.pa 4 then (s.logPart r 4).takePart r none
    else s.takePart r (some fun x => lanes r.arg x fun _ => BitVec.ofNat 32 (s.load r.pa 4))
  | .addEl f => s.addElem r f

/-- The home is a pigeonhole bank that a cluster reaches without its L1 (R127, R271). -/
def State.atBankOf (s : State) (cl pa : Nat) : Bool := decide (spaceOf pa = 2) && (s.l1Line cl pa).isNone
/-- The same of the issuing context's cluster. -/
def State.atBank (s : State) (pa : Nat) : Bool := s.atBankOf s.clNo pa

/-- A request that has reached its pigeonhole bank waits there for its turn (R270). -/
def State.sendPig (s : State) (r : MemReq) : State :=
  let k := siteOf (r.ctx / 4)
  let x := s.site k
  s.setSite k { x with pigQueue := x.pigQueue ++ [r] }

/-- The line that an access of a home must have in the L1 and has not (R268). One of which a word fails is served by the
home (log 48). -/
def State.missing (s : State) (cl pa : Nat) : Option Nat := match s.l1Line cl pa with
  | some line => if ((s.cl cl).l1Find line).isNone && !s.badAt (s.lineHome cl line) 128 then some line else none
  | none => none

/-- A line is asked for: it takes a miss buffer, of which there are 16 (R268), with the key it is to be filled under (R356). -/
def State.askLine (s : State) (cl : Nat) (line : Option Nat) (key : Nat := 0) : State := match line with
  | none => s
  | some l =>
    let c := s.cl cl
    if c.l1Miss.contains l || decide (16 ≤ c.l1Miss.length) then s
    else (s.setCl cl { c with l1Miss := c.l1Miss ++ [l] }).wantLine cl l key

/-- Every miss buffer is busy with another line (R268). -/
def State.missFull (s : State) (cl : Nat) (line : Option Nat) : Bool := match line with
  | none => false
  | some l => !(s.cl cl).l1Miss.contains l && decide (16 ≤ (s.cl cl).l1Miss.length)

/-- The line that the access itself needs: an atomic operation needs none (R228). -/
def State.lineFor (s : State) (cl : Nat) (r : MemReq) : Option Nat := match r.op with
  | .amo _ => none
  | _ => s.missing cl r.pa

/-- An access issued by the bundle. When it is performed nothing fixes but that its context's accesses to one location keep their
order (R255): the cycle in which it reaches its memory is free (log 60), and not before that of an earlier access it meets. -/
def State.post (s : State) (r : MemReq) : State :=
  let (v, s) := s.fresh
  let c := s.me
  let r := { r with ctx := s.cur, bpc := s.issue.bpc, slot := s.issue.slot, seq := c.seq }
  let due := (c.posted.filter r.meets).foldl (fun d p => max d p.due) (s.myCl.cycle + 1 + v.toNat % Config.postBound)
  s.setMe { c with posted := c.posted ++ [{ r with due := due }] }

/-- What becomes of an access that is to be performed now: sent to its bank, performed, or kept until its line comes (R127, R268). -/
def State.perform1 (s : State) (r : MemReq) : Option State :=
  let cl := r.ctx / 4
  if s.atBankOf cl r.pa then some (s.sendPig r)
  else match s.lineFor cl r with
    | some _ => none
    | none => some (s.serve r)

/-- The accesses of a list that sel selects are performed in order; those that must wait are kept, with every later one that
meets them. -/
def State.performSome (s : State) (sel : MemReq → Bool) (kept : List MemReq) : List MemReq → State × List MemReq
  | [] => (s, kept)
  | r :: rs =>
    if !sel r || kept.any r.meets then s.performSome sel (kept ++ [r]) rs
    else match s.perform1 r with
      | some s => s.performSome sel kept rs
      | none => (s.askLine (r.ctx / 4) (s.lineFor (r.ctx / 4) r) (keyOf r.pa)).performSome sel (kept ++ [r]) rs

/-- The accesses of context g that are due by its cluster's cycle are performed (R255). -/
def State.performDue (s : State) (g : Nat) : State :=
  if (s.ctx g).posted.isEmpty then s
  else
    let now := (s.cl (g / 4)).cycle
    let (s, kept) := s.performSome (fun r => decide (r.due ≤ now)) [] (s.ctx g).posted
    let c := s.ctx g
    s.setCtx g { c with posted := kept }

/-- The accesses of context g to the homes that sel selects are performed now, in order. -/
def State.drainOwn (s : State) (g : Nat) (sel : Nat → Bool) : State :=
  let ps := (s.ctx g).posted
  if ps.isEmpty then s
  else
    let s := (ps.filter fun r => sel r.pa).foldl State.serve s
    let c := s.ctx g
    s.setCtx g { c with posted := ps.filter fun r => !sel r.pa }

/-- The local-store accesses of the issuing context are performed: an engine command that issues sees its stores (R258). -/
def State.drainLs (s : State) : State := s.drainOwn s.cur fun pa => spaceOf pa == 0

/-- The accesses of the issuing context that the L1 serves are performed: a cache operation acts after its stores (R129). -/
def State.drainL1 (s : State) : State := s.drainOwn s.cur fun pa => (s.l1Line s.clNo pa).isSome

/-- Every access of context g that needs no bank is performed now, in order. -/
def State.drainAll (s : State) (g : Nat) : State := s.drainOwn g fun pa => !s.atBankOf (g / 4) pa

/-- Pigeonhole requests of a context's bundles before the one it issues have not been performed (R131, R261). -/
def State.pigPending (s : State) (g : Nat) : Bool :=
  let c := s.ctx g
  (c.posted.any fun r => r.seq != c.seq && s.atBankOf (g / 4) r.pa) ||
    (s.site (siteOf (g / 4))).pigQueue.any fun r => decide (r.ctx = g) && r.seq != c.seq

/-- The operation is a load, whose data a fence of any scope waits for (R131). -/
def MemOp.loads : MemOp → Bool
  | .load _ => true
  | .lane _ _ => true
  | .bcst => true
  | _ => false

/-- What a fence of a scope waits for: every earlier load has returned its data, and the context's other accesses are performed, those
to pigeonhole banks at site and panel scope only (R131, R256). R256 closes with the words that a pigeonhole access is not waited for at
cluster scope, while R131 and its cluster row name every load: the loads are waited for (DESIGN CHOICE, log 89). -/
def State.fenceDone (s : State) (g scope : Nat) : Bool :=
  let pig := (s.site (siteOf (g / 4))).pigQueue.filter fun r => decide (r.ctx = g)
  ((s.ctx g).posted.all fun r => s.atBankOf (g / 4) r.pa && (scope != 0 || !r.op.loads)) && (scope != 0 || pig.all fun r => !r.op.loads) &&
    (scope == 0 || !s.pigPending g)

/-- An interlocked result of the bundle being issued that n accesses make up, over acc (R91). -/
def State.interAcc (s : State) (ds : List Reg) (acc : V2048) (n : Nat) (blk : Bool := false) : State :=
  let c := s.me
  let f : Inflight := { id := c.nextId, dsts := ds.filter fun r => !r.isFixed, seq := c.seq, acc := acc, left := n, blk := blk }
  s.setMe { c with inflight := c.inflight ++ [if n = 0 then { f with val := some f.whole } else f], nextId := c.nextId + 1 }

/-- A load that goes to a bank or misses, whose wait is BLOCK; that of any other access is STALL (Table 19). -/
def MemReq.blocks (r : MemReq) (far : Bool) : Bool := match r.op with
  | .load _ => far
  | _ => false

/-- A scalar access of the bundle being issued to a home: held in BLOCK where its miss finds every buffer busy (R268); else a
result for d, if it has one, waits for it, and it is under way. -/
def State.issueMem (s : State) (r : MemReq) (d : Option Nat) (k : State → State) : Out :=
  let line := s.lineFor s.clNo r
  if s.missFull s.clNo line then s.hold .block
  else
    let s := s.askLine s.clNo line (keyOf r.pa)
    let id := s.nextInter
    let s := match d with
      | some d => s.interAcc [.x d] 0 1 (r.blocks (s.atBank r.pa || line.isSome))
      | none => s
    .next (k (s.post { r with id := id, dst := d.getD 0 }))

/-- MEMERR of a read that an instruction makes of a block at va as its slot's own load (R103). -/
def State.blockErr (s : State) (va : W64) : State :=
  s.memErr { ctx := s.cur, pa := 0, va := va, op := .load 3, bpc := s.issue.bpc, slot := s.issue.slot }

/-- The issuing context's accesses performed, before an instruction that itself reads or writes memory. -/
def State.drainMine (s : State) : State := s.drainAll s.cur

/-! ## The return stack (R98) -/

/-- STKSPILL with a reason and the underlying cause (R101). -/
def stkTrap (reason : Nat) (t : Option Trap) : Trap :=
  match t with
  | none => { cause := 0x0C, reason := reason }
  | some u => { cause := 0x0C, addr := u.addr, reason := reason, detail := u.cause + 256 * u.reason }

/-- The spill area's address and depth. -/
def spillPtr (v : W64) : Nat := fld v 6 42 * 64
def spillDepth (v : W64) : Nat := fld v 48 16

/-- STKSPILL with another pointer and depth. -/
def spillSet (ptr depth : Nat) : W64 := BitVec.ofNat 64 (depth % 65536 * 2 ^ 48 + ptr / 64 % 2 ^ 42 * 64)

/-- The word an entry spills as: an address, or for a mark bit 63 with bits of the implementation (R310). -/
def RetEntry.word : RetEntry → W64
  | .addr a => a
  | .mark => BitVec.ofNat 64 (2 ^ 63 + Config.markBits.toNat)

def RetEntry.ofWord (w : W64) : RetEntry := if fld w 63 1 = 1 then .mark else .addr w

/-- A push or a pop of the return stack that does not come about: its trap, or a hold in BLOCK (R98, R255, R268). -/
def State.retFails (s : State) : Option Trap → Out
  | some t => s.trapNow t
  | none => s.hold .block

/-- One access of the spill area at SUPER (R98). -/
def State.spillAccess (s : State) (a : Nat) (acc : Acc) : Except Trap Nat :=
  s.addrCheck s.clNo (s.agentOf s.cur) false (BitVec.ofNat 64 a) 8 acc

/-- The entries stored from a, oldest at the lowest address. -/
def State.spillAll (s : State) (a : Nat) : List RetEntry → Except Trap State
  | [] => .ok s
  | e :: es => match s.spillAccess a .write with
    | .error t => .error t
    | .ok pa => (s.storeVia s.clNo pa 8 e.word.toNat).spillAll (a + 8) es

/-- n entries read back from a. Table 21 has no REASON for the MEMERR of such a read: 0 stands for it, so that DETAIL[15:8] of the
STKSPILL is 0 (DESIGN CHOICE, log 58). -/
def State.refillAll (s : State) (a : Nat) : Nat → Except Trap (List RetEntry × State)
  | 0 => .ok ([], s)
  | n + 1 => match s.spillAccess a .read with
    | .error t => .error t
    | .ok pa => match s.loadVia s.clNo pa 8 with
      | (none, _) => .error { cause := 0x12, addr := BitVec.ofNat 64 a }
      | (some v, s) => match s.refillAll (a + 8) n with
        | .error t => .error t
        | .ok (es, s) => .ok (RetEntry.ofWord (BitVec.ofNat 64 v) :: es, s)

/-- The 64 bytes of a spill area at a cannot be reached yet: an earlier access of the context that meets one of its words has not been
performed at its bank (R255), or a miss finds every buffer busy (R268). -/
def State.spillBusy (s : State) (a : Nat) (acc : Acc) : Bool :=
  let mine := s.me.posted ++ (s.site s.siteNo).pigQueue.filter fun r => decide (r.ctx = s.cur)
  (List.range 8).any fun i => match s.spillAccess (a + 8 * i) acc with
    | .error _ => false
    | .ok pa =>
      (s.atBank pa && mine.any fun r => r.meets { pa := pa, va := 0, op := .store 8 }) || s.missFull s.clNo (s.missing s.clNo pa)

/-- A push on the return stack, which spills the 8 oldest entries of a full one (R98). The head of the list is the
newest entry. The error is a trap, or none where the bundle is held in BLOCK until the area can be reached. -/
def State.pushRet (s : State) (e : RetEntry) : Except (Option Trap) State :=
  let c := s.me
  if c.rstack.length < 16 then .ok (s.setMe { c with rstack := e :: c.rstack })
  else if spillDepth c.stkSpill = 65535 then .error (some (stkTrap 4 none))
  else if s.spillBusy (spillPtr c.stkSpill) .write then .error none
  else match (s.drainAll s.cur).spillAll (spillPtr c.stkSpill) (c.rstack.drop 8).reverse with
    | .error t => .error (some (stkTrap 1 (some t)))
    | .ok s =>
      let c := s.me
      .ok (s.setMe { c with
        rstack := e :: c.rstack.take 8
        stkSpill := spillSet (spillPtr c.stkSpill + 64) (spillDepth c.stkSpill + 1) })

/-- A pop of the return stack, which refills an empty one (R98). The error is as pushRet's. -/
def State.popRet (s : State) : Except (Option Trap) (RetEntry × State) :=
  let c := s.me
  match c.rstack with
  | e :: es => .ok (e, s.setMe { c with rstack := es })
  | [] =>
    let a := (spillPtr c.stkSpill + 2 ^ 48 - 64) % 2 ^ 48
    if spillDepth c.stkSpill = 0 then .error (some (stkTrap 3 none))
    else if s.spillBusy a .read then .error none
    else
      match (s.drainAll s.cur).refillAll a 8 with
      | .error t => .error (some (stkTrap 2 (some t)))
      | .ok (es, s) =>
        let c := s.me
        match es.reverse with
        | [] => .error (some (stkTrap 3 none))
        | e :: es => .ok (e, s.setMe { c with
            rstack := es, stkSpill := spillSet a (spillDepth c.stkSpill - 1) })

end Sys2Proof.Machine
end

