-- ==== Sys2Proof/Machine/Operands.lean ====
section
/-! DEFINITION. The operand forms of every slot: the issue-time checks that all slots share (R99 steps 1 to 3), the reading and
popping of sources (R12 to R14), and the writing of lanes (R113, R143). -/
namespace Sys2Proof.Machine

/-! ## Queue registers as operands -/

/-- The register is a queue register: q0 to q15 as 48 to 63, vq0 to vq3 as 28 to 31 (R72). -/
def Reg.isQueue : Reg → Bool
  | .x n => decide (48 ≤ n)
  | .v n => decide (28 ≤ n)
  | _ => false

/-- Entries present in a queue register. -/
def Ctx.present (c : Ctx) : Reg → Nat
  | .x n => (c.getQ (n - 48)).ents.length
  | .v n => (c.getVQ (n - 28)).ents.length
  | _ => 0

/-- The queue register is bound (R14). -/
def Ctx.isBound (c : Ctx) : Reg → Bool
  | .x n => (c.getQ (n - 48)).bound.isSome
  | .v n => (c.getVQ (n - 28)).bound.isSome
  | _ => false

/-- The depth of a queue register (R10). -/
def Reg.depth : Reg → Nat
  | .x _ => 8
  | _ => 4

/-- Pushes of a queue register that wait in the shadow buffer; one that has lost its value pushes nothing (R104). -/
def Ctx.shadowPushes (c : Ctx) (r : Reg) : Nat := (c.shadow.filter fun e => !e.noVal && decide (e.wr.reg = some r)).length

/-- Pushes pending on a register from earlier bundles, those in the shadow buffer included (R13, R104). -/
def Ctx.pushes (c : Ctx) (r : Reg) : Nat :=
  (c.pending.filter fun p => decide (p.seq < c.seq ∧ p.wr.reg = some r)).length +
    (c.inflight.filter fun f => decide (f.seq < c.seq ∧ r ∈ f.dsts)).length + c.shadowPushes r

/-- DETAIL of QUNDER and QOVER (R101). -/
def Reg.qDetail : Reg → Nat
  | .x n => n
  | .v n => 64 + n
  | .c n => n
  | .p n => n

/-- REASON of SCOREBOARD: the file (Table 21), and DETAIL: the specifier. -/
def Reg.file : Reg → Nat
  | .x _ => 1
  | .v _ => 2
  | .c _ => 3
  | .p _ => 4
def Reg.ix : Reg → Nat
  | .x n => n
  | .v n => n
  | .c n => n
  | .p n => n

/-- A fixed-latency write of an earlier bundle to the register is in flight (R94). -/
def Ctx.isPending (c : Ctx) (r : Reg) : Bool := c.pending.any fun p => decide (p.seq < c.seq ∧ p.wr.reg = some r)

/-- An interlocked write to the register is in flight (R91). -/
def Ctx.isInflight (c : Ctx) (r : Reg) : Bool := c.inflight.any fun f => decide (r ∈ f.dsts)

/-! ## The shared issue-time checks (R99 steps 1 to 3) -/

/-- What an issue-time check may find: a trap, or a reason to hold the bundle. -/
inductive Stop where
  | trap (t : Trap)
  | hold (c : CState)
  deriving DecidableEq, Repr

/-- The first source with a fixed-latency write pending, with SBMODE.MODE = 1 (R94). -/
def State.scoreboard (s : State) (srcs : List Reg) : Option Stop :=
  if s.myCl.sbMode then
    (srcs.find? fun r => !r.isQueue && s.me.isPending r).map fun r =>
      .trap { cause := 0x0B, reason := r.file, detail := r.ix }
  else none

/-- The first pop of the slot that its queue register cannot meet: QUNDER on an unbound register, a hold on a bound
one (R13, R14). -/
def Ctx.popCheck (c : Ctx) : List Reg → List Reg → Option Stop
  | _, [] => none
  | before, r :: rs =>
    if r.isQueue && decide (c.present r ≤ before.count r) then
      some (if c.isBound r then .hold .block else .trap { cause := 0x08, reason := 1, detail := r.qDetail })
    else c.popCheck (r :: before) rs

/-- A push that a queue register cannot take (R13, R14): entries are counted after all pops of the bundle. -/
def State.pushCheck (s : State) (srcs dsts : List Reg) : Option Stop :=
  (dsts.find? fun r => r.isQueue && (s.me.isBound r ||
      decide (r.depth ≤ s.me.present r - srcs.count r - s.issue.later.count r + s.me.pushes r))).map fun r =>
    .trap { cause := 0x09, reason := if s.me.isBound r then 2 else 1, detail := r.qDetail }

/-- A peek: the head entry, a hold on an empty bound register, QUNDER on an empty unbound one (R14, R159, R168). -/
def State.peekStop (s : State) (r : Reg) : Option Stop :=
  if s.me.present r = 0 then
    some (if s.me.isBound r then .hold .block else .trap { cause := 0x08, reason := 1, detail := r.qDetail })
  else none

/-- Privilege, scoreboard, queue availability, in the order of R99; peek is the queue register that the slot peeks. -/
def State.issueCheck (s : State) (lvl : Nat) (srcs dsts : List Reg) (peek : Option Reg := none) : Option Stop :=
  if s.me.priv < lvl then some (.trap { cause := 0x03, reason := 1 })
  else (s.scoreboard srcs).or ((s.me.popCheck [] srcs).or ((peek.bind s.peekStop).or (s.pushCheck srcs dsts)))

/-- A slot that goes on to its own checks and its effect once the shared checks have passed. -/
def gate (lvl : Nat) (srcs dsts : List Reg) (s : State) (k : State → Out) (peek : Option Reg := none) : Out :=
  match s.issueCheck lvl srcs dsts peek with
  | some (.trap t) => s.trapNow t
  | some (.hold c) => s.hold c
  | none => k s

/-- The same of an engine command: the context's local-store accesses are performed before it reads any location (R258, log 65). -/
def engGate (srcs dsts : List Reg) (s : State) (k : State → Out) : Out := gate 0 srcs dsts s fun s => k s.drainLs

/-! ## Sources -/

/-- A scalar-domain source: a register, or the head of a queue register, popped (R12, R114). -/
def State.readX (s : State) (n : Nat) : W64 × State :=
  if n < 48 then (s.me.getX n, s)
  else
    let c := s.me
    let q := c.getQ (n - 48)
    match q.ents with
    | [] => (0, s)
    | e :: es => (e, s.setMe ({ c with qs := mset c.qs (n - 48) { q with ents := es } }.markDirty n))

/-- A vector source (R142). -/
def State.readV (s : State) (n : Nat) : V2048 × State :=
  if n < 28 then (s.me.getV n, s)
  else
    let c := s.me
    let q := c.getVQ (n - 28)
    match q.ents with
    | [] => (0, s)
    | e :: es => (e, s.setMe ({ c with vqs := mset c.vqs (n - 28) { q with ents := es } }.markDirty (64 + n)))

/-- The queue registers among a slot's sources popped (R12, R13). -/
def State.popAll (s : State) (srcs : List Reg) : State :=
  (srcs.filter (·.isQueue)).foldl (fun s r => match r with
    | .x n => (s.readX n).2
    | .v n => (s.readV n).2
    | _ => s) s

/-- The address register a[n] as landed (R70). -/
def State.areg (s : State) (n : Nat) : W64 := s.me.getX (32 + n)

/-! ## Lanes -/

/-- What stands in the lanes that an instruction does not write: the destination as landed, or 0 for a queue register
(R113, R143). -/
def State.oldV (s : State) (d : Nat) : V2048 := if d < 28 then s.me.getV d else 0

/-- The union of the flags of the active lanes (R44). -/
def laneFlags (p : W64) (f : Nat → Flags) : Flags :=
  (List.range 64).foldl (fun a i => if pbit p i then a ||| f i else a) 0

end Sys2Proof.Machine
end

