-- ==== Sys2Proof/Machine/Scalar.lean ====
section
/-! DEFINITION. Scalar arithmetic, logic, compares and selection: majors 0x01 to 0x0F, and rdcyc, rdid and nop of 0x00 (R114 to R124). -/
namespace Sys2Proof.Machine

/-! ## Shapes -/

/-- D := f A B, landing L cycles on (R118). -/
def bin (L : Nat) (f : W64 → W64 → W64) (d a b : BitVec 6) (s : State) : Out :=
  gate 0 [.x a.toNat, .x b.toNat] [.x d.toNat] s fun s =>
    let (x, s) := s.readX a.toNat
    let (y, s) := s.readX b.toNat
    .next (s.fix L (.x d.toNat (f x y)))

/-- D := f A, landing L cycles on. -/
def una (L : Nat) (f : W64 → W64) (d a : BitVec 6) (s : State) : Out :=
  gate 0 [.x a.toNat] [.x d.toNat] s fun s =>
    let (x, s) := s.readX a.toNat
    .next (s.fix L (.x d.toNat (f x)))

/-- D := f A B, interlocked (R91). -/
def binI (f : W64 → W64 → W64) (d a b : BitVec 6) (s : State) : Out :=
  gate 0 [.x a.toNat, .x b.toNat] [.x d.toNat] s fun s =>
    let (x, s) := s.readX a.toNat
    let (y, s) := s.readX b.toNat
    .next (s.inter [.x d.toNat] (some [.x d.toNat (f x y)]))

/-- D := f A imm, landing 1 cycle on (R120). -/
def immOp (f : W64 → W64 → W64) (d a : BitVec 6) (i : BitVec 9) (s : State) : Out :=
  una 1 (fun x => f x (wrap 64 (s.imm i))) d a s

/-- c := the test of A and B, landing 1 cycle on (R122). -/
def cmp (f : W64 → W64 → Bool) (c : BitVec 3) (a b : BitVec 6) (s : State) : Out :=
  gate 0 [.x a.toNat, .x b.toNat] [.c c.toNat] s fun s =>
    let (x, s) := s.readX a.toNat
    let (y, s) := s.readX b.toNat
    .next (s.fix 1 (.c c.toNat (f x y)))

/-- c := the test of A and imm, landing 1 cycle on (R122). -/
def cmpImm (f : W64 → W64 → Bool) (c : BitVec 3) (a : BitVec 6) (i : BitVec 9) (s : State) : Out :=
  gate 0 [.x a.toNat] [.c c.toNat] s fun s =>
    let (x, s) := s.readX a.toNat
    .next (s.fix 1 (.c c.toNat (f x (wrap 64 (s.imm i)))))

/-- c[D] := f c[A] c[B] (R123). -/
def clog (f : Bool → Bool → Bool) (d a b : BitVec 3) (s : State) : Out :=
  gate 0 [.c a.toNat, .c b.toNat] [.c d.toNat] s fun s =>
    .next (s.fix 1 (.c d.toNat (f (s.me.getC a.toNat) (s.me.getC b.toNat))))

/-! ## Functions of R37, R118 and R119 -/

/-- The absolute signed difference, exact as an unsigned word. -/
def absDiff (x y : W64) : W64 := BitVec.ofNat 64 (x.toInt - y.toInt).natAbs
/-- The shift amount B[5:0]. -/
def shAmt (y : W64) : Nat := y.toNat % 64
def clz64 (x : W64) : W64 := match highestBit x.toNat 64 with
  | none => 64
  | some i => BitVec.ofNat 64 (63 - i)
def ctz64 (x : W64) : W64 := BitVec.ofNat 64 (lowestBit x.toNat 64)
def popc64 (x : W64) : W64 := BitVec.ofNat 64 (popc x.toNat 64)
def brev64 (x : W64) : W64 := BitVec.ofNat 64 (ofBits (fun i => bit x.toNat (63 - i)) 64)
/-- The high half of the signed and of the unsigned product. -/
def mulHiS (x y : W64) : W64 := wrap 64 (x.toInt * y.toInt / 2 ^ 64)
def mulHiZ (x y : W64) : W64 := BitVec.ofNat 64 (x.toNat * y.toNat / 2 ^ 64)
/-- The product of the low 32 bits, signed. -/
def mulW (x y : W64) : W64 := wrap 64 (sextNat x.toNat 32 * sextNat y.toNat 32)
/-- Division under R37: truncated toward zero; by 0 all ones, with the dividend as the remainder. -/
def divS (x y : W64) : W64 := if y = 0 then BitVec.allOnes 64 else wrap 64 (x.toInt.tdiv y.toInt)
def divZ (x y : W64) : W64 := if y = 0 then BitVec.allOnes 64 else BitVec.ofNat 64 (x.toNat / y.toNat)
def remS (x y : W64) : W64 := if y = 0 then x else wrap 64 (x.toInt.tmod y.toInt)
def remZ (x y : W64) : W64 := if y = 0 then x else BitVec.ofNat 64 (x.toNat % y.toNat)

/-- The position and width of a bit field, the width cut at bit 63 (R119). -/
def fieldPos (b : W64) : Nat := fld b 0 6
def fieldWidth (b : W64) : Nat := min (fld b 8 7) (64 - fieldPos b)
def bfx (a b : W64) : W64 := BitVec.ofNat 64 (fld a (fieldPos b) (fieldWidth b))
def bfi (old a b : W64) : W64 :=
  let p := fieldPos b
  let w := fieldWidth b
  let o := old.toNat
  BitVec.ofNat 64 (o % 2 ^ p + fld a 0 w * 2 ^ p + o / 2 ^ (p + w) * 2 ^ (p + w))
def sext64 (a b : W64) : W64 :=
  let n := fld b 0 7
  if n = 0 ∨ 64 ≤ n then a else wrap 64 (sextNat a.toNat n)
def zext64 (a b : W64) : W64 :=
  let n := fld b 0 7
  if n = 0 ∨ 64 ≤ n then a else BitVec.ofNat 64 (fld a 0 n)

/-- The address of the bundle plus a displacement in 4-byte units (R73). -/
def State.rel (s : State) (i : Int) : W64 := s.issue.bpc + wrap 64 (4 * i)

/-! ## Majors 0x00: nop, rdcyc, rdid (R116) -/

/-- R116: nothing. -/
def execNop (s : State) : Out := .next s
/-- R116, R34: D := CYCLE as sampled at issue. -/
def execRdcyc (d : BitVec 6) (s : State) : Out :=
  gate 0 [] [.x d.toNat] s fun s => .next (s.fix 1 (.x d.toNat (BitVec.ofNat 64 s.myCl.cycle)))

/-- The identity value of R35 for each selector. -/
def State.identity (s : State) (n : Nat) : W64 :=
  let t := s.myCl.ti
  BitVec.ofNat 64 (match n with
    | 0 => s.cur % 4
    | 1 => s.clNo % 128
    | 2 => s.siteNo
    | 3 => t.gangIx
    | 4 => t.gangSize
    | 5 => t.rbase + t.gang * t.gangSize + t.gangIx
    | 6 => t.ranks.length
    | _ => popc s.mySite.clen.toNat 84)

/-- R116, R35: D := the identity value of selector n. -/
def execRdid (d n : BitVec 6) (s : State) : Out :=
  gate 0 [] [.x d.toNat] s fun s => .next (s.fix 1 (.x d.toNat (s.identity n.toNat)))

/-! ## Majors 0x01 to 0x04 (R118, R119) -/

def execAdd (d a b : BitVec 6) (s : State) : Out := bin 1 (· + ·) d a b s
def execSub (d a b : BitVec 6) (s : State) : Out := bin 1 (· - ·) d a b s
def execAnd (d a b : BitVec 6) (s : State) : Out := bin 1 (· &&& ·) d a b s
def execOr (d a b : BitVec 6) (s : State) : Out := bin 1 (· ||| ·) d a b s
def execXor (d a b : BitVec 6) (s : State) : Out := bin 1 (· ^^^ ·) d a b s
def execAndn (d a b : BitVec 6) (s : State) : Out := bin 1 (fun x y => x &&& ~~~y) d a b s
def execOrn (d a b : BitVec 6) (s : State) : Out := bin 1 (fun x y => x ||| ~~~y) d a b s
def execAbd (d a b : BitVec 6) (s : State) : Out := bin 1 absDiff d a b s
def execShl (d a b : BitVec 6) (s : State) : Out := bin 1 (fun x y => x <<< shAmt y) d a b s
def execShr (d a b : BitVec 6) (s : State) : Out := bin 1 (fun x y => x >>> shAmt y) d a b s
def execSar (d a b : BitVec 6) (s : State) : Out := bin 1 (fun x y => x.sshiftRight (shAmt y)) d a b s
def execRol (d a b : BitVec 6) (s : State) : Out := bin 1 (fun x y => x.rotateLeft (shAmt y)) d a b s
def execClz (d a : BitVec 6) (s : State) : Out := una 1 clz64 d a s
def execCtz (d a : BitVec 6) (s : State) : Out := una 1 ctz64 d a s
def execPopc (d a : BitVec 6) (s : State) : Out := una 1 popc64 d a s
def execBrev (d a : BitVec 6) (s : State) : Out := una 1 brev64 d a s
def execMul (d a b : BitVec 6) (s : State) : Out := bin 3 (· * ·) d a b s
def execMulhs (d a b : BitVec 6) (s : State) : Out := bin 4 mulHiS d a b s
def execMulhz (d a b : BitVec 6) (s : State) : Out := bin 4 mulHiZ d a b s
def execDivs (d a b : BitVec 6) (s : State) : Out := binI divS d a b s
def execDivz (d a b : BitVec 6) (s : State) : Out := binI divZ d a b s
def execRems (d a b : BitVec 6) (s : State) : Out := binI remS d a b s
def execRemz (d a b : BitVec 6) (s : State) : Out := binI remZ d a b s
def execMulw (d a b : BitVec 6) (s : State) : Out := bin 3 mulW d a b s
def execMins (d a b : BitVec 6) (s : State) : Out := bin 1 minS d a b s
def execMaxs (d a b : BitVec 6) (s : State) : Out := bin 1 maxS d a b s
def execMinz (d a b : BitVec 6) (s : State) : Out := bin 1 minZ d a b s
def execMaxz (d a b : BitVec 6) (s : State) : Out := bin 1 maxZ d a b s
def execBfx (d a b : BitVec 6) (s : State) : Out := bin 1 bfx d a b s
/-- R119: the destination is a third source, as landed at issue. -/
def execBfi (d a b : BitVec 6) (s : State) : Out :=
  gate 0 [.x d.toNat, .x a.toNat, .x b.toNat] [.x d.toNat] s fun s =>
    let old := s.me.getX d.toNat
    let (x, s) := s.readX a.toNat
    let (y, s) := s.readX b.toNat
    .next (s.fix 1 (.x d.toNat (bfi old x y)))
def execSext (d a b : BitVec 6) (s : State) : Out := bin 1 sext64 d a b s
def execZext (d a b : BitVec 6) (s : State) : Out := bin 1 zext64 d a b s

/-! ## Majors 0x05 to 0x07 (R122 to R124) -/

def execCeq (c : BitVec 3) (a b : BitVec 6) (s : State) : Out := cmp (fun x y => x == y) c a b s
def execCne (c : BitVec 3) (a b : BitVec 6) (s : State) : Out := cmp (fun x y => x != y) c a b s
def execClts (c : BitVec 3) (a b : BitVec 6) (s : State) : Out := cmp (fun x y => x.slt y) c a b s
def execCles (c : BitVec 3) (a b : BitVec 6) (s : State) : Out := cmp (fun x y => x.sle y) c a b s
def execCltz (c : BitVec 3) (a b : BitVec 6) (s : State) : Out := cmp (fun x y => x.ult y) c a b s
def execClez (c : BitVec 3) (a b : BitVec 6) (s : State) : Out := cmp (fun x y => x.ule y) c a b s
def execCtst (c : BitVec 3) (a b : BitVec 6) (s : State) : Out := cmp (fun x y => x &&& y != 0) c a b s
def execCand (d a b : BitVec 3) (s : State) : Out := clog (· && ·) d a b s
def execCor (d a b : BitVec 3) (s : State) : Out := clog (· || ·) d a b s
def execCxor (d a b : BitVec 3) (s : State) : Out := clog (· ^^ ·) d a b s
def execCandn (d a b : BitVec 3) (s : State) : Out := clog (fun x y => x && !y) d a b s
/-- R123: c[D] := (A ≠ 0). -/
def execCmov (d : BitVec 3) (a : BitVec 6) (s : State) : Out :=
  gate 0 [.x a.toNat] [.c d.toNat] s fun s =>
    let (x, s) := s.readX a.toNat
    .next (s.fix 1 (.c d.toNat (x != 0)))
/-- R123: D := 1 if c[A] is true, else 0. -/
def execCget (d : BitVec 6) (a : BitVec 3) (s : State) : Out :=
  gate 0 [.c a.toNat] [.x d.toNat] s fun s => .next (s.fix 1 (.x d.toNat (b64 (s.me.getC a.toNat))))
/-- R124: D := c ? A : B, both read. -/
def execSel (d a b : BitVec 6) (c : BitVec 3) (s : State) : Out :=
  gate 0 [.x a.toNat, .x b.toNat, .c c.toNat] [.x d.toNat] s fun s =>
    let (x, s) := s.readX a.toNat
    let (y, s) := s.readX b.toNat
    .next (s.fix 1 (.x d.toNat (if s.me.getC c.toNat then x else y)))

/-! ## Majors 0x08 to 0x0F (R120 to R122) -/

def execAddi (d a : BitVec 6) (i : BitVec 9) (s : State) : Out := immOp (· + ·) d a i s
def execAndi (d a : BitVec 6) (i : BitVec 9) (s : State) : Out := immOp (· &&& ·) d a i s
def execOri (d a : BitVec 6) (i : BitVec 9) (s : State) : Out := immOp (· ||| ·) d a i s
def execXori (d a : BitVec 6) (i : BitVec 9) (s : State) : Out := immOp (· ^^^ ·) d a i s
def execShli (d a k : BitVec 6) (s : State) : Out := una 1 (fun x => x <<< k.toNat) d a s
def execShri (d a k : BitVec 6) (s : State) : Out := una 1 (fun x => x >>> k.toNat) d a s
def execSari (d a k : BitVec 6) (s : State) : Out := una 1 (fun x => x.sshiftRight k.toNat) d a s
def execRoli (d a k : BitVec 6) (s : State) : Out := una 1 (fun x => x.rotateLeft k.toNat) d a s
def execCeqi (c : BitVec 3) (a : BitVec 6) (i : BitVec 9) (s : State) : Out := cmpImm (fun x y => x == y) c a i s
def execCnei (c : BitVec 3) (a : BitVec 6) (i : BitVec 9) (s : State) : Out := cmpImm (fun x y => x != y) c a i s
def execCltsi (c : BitVec 3) (a : BitVec 6) (i : BitVec 9) (s : State) : Out := cmpImm (fun x y => x.slt y) c a i s
def execClesi (c : BitVec 3) (a : BitVec 6) (i : BitVec 9) (s : State) : Out := cmpImm (fun x y => x.sle y) c a i s
def execCltzi (c : BitVec 3) (a : BitVec 6) (i : BitVec 9) (s : State) : Out := cmpImm (fun x y => x.ult y) c a i s
def execClezi (c : BitVec 3) (a : BitVec 6) (i : BitVec 9) (s : State) : Out := cmpImm (fun x y => x.ule y) c a i s
def execCgtsi (c : BitVec 3) (a : BitVec 6) (i : BitVec 9) (s : State) : Out := cmpImm (fun x y => y.slt x) c a i s
def execCgtzi (c : BitVec 3) (a : BitVec 6) (i : BitVec 9) (s : State) : Out := cmpImm (fun x y => y.ult x) c a i s
/-- R121: D := imm. -/
def execMovi (d : BitVec 6) (i : BitVec 15) (s : State) : Out :=
  gate 0 [] [.x d.toNat] s fun s => .next (s.fix 1 (.x d.toNat (wrap 64 (s.imm i))))
/-- R121: D := the bundle's address + imm × 4. -/
def execAdr (d : BitVec 6) (i : BitVec 15) (s : State) : Out :=
  gate 0 [] [.x d.toNat] s fun s => .next (s.fix 1 (.x d.toNat (s.rel (s.imm i))))

end Sys2Proof.Machine
end

