-- ==== Sys2Proof/Machine/LoadStore.lean ====
section
/-! DEFINITION. Scalar loads, stores, cache maintenance and fences: majors 0x10 to 0x13 (R125 to R132). -/
namespace Sys2Proof.Machine

/-- A load of size code z from va into D, its address checked (R126, R127): D waits for the access. -/
def State.loadTo (s : State) (z : Nat) (va : W64) (d : Nat) (k : State → State) : Out :=
  match s.access va (szBytes z) .read with
  | .error t => s.trapNow t
  | .ok pa => (s.noteTlb s.clNo (s.agentOf s.cur) false va.toNat).issueMem { pa := pa, va := va, op := .load z } (some d) k

/-- The step of a post-increment: a[r] := a[r] + n, landing 1 cycle on (R70, R89). -/
def State.bump (s : State) (u : BitVec 1) (r : Nat) (base : W64) (n : Int) : State :=
  if u = 1#1 then s.fix 1 (.x (32 + r) (base + wrap 64 n)) else s

/-- The registers a post-increment writes. -/
def bumpDst (u : BitVec 1) (r : Nat) : List Reg := if u = 1#1 then [.x (32 + r)] else []

/-- The address of an F-M access (R70). -/
def fmAddr (u : BitVec 1) (base : W64) (n : Int) : W64 := if u = 1#1 then base else base + wrap 64 n

/-- R125 to R127: ld. -/
def execLd (d : BitVec 6) (r : BitVec 4) (u : BitVec 1) (z : BitVec 3) (o : BitVec 7) (s : State) : Out :=
  gate 0 [.x (32 + r.toNat)] ([.x d.toNat] ++ bumpDst u r.toNat) s fun s =>
    let base := s.areg r.toNat
    let n := s.imm o * szBytes z.toNat
    s.loadTo z.toNat (fmAddr u base n) d.toNat fun s => s.bump u r.toNat base n

/-- R125 to R128: st. The source is read, or popped, before the base. -/
def execSt (d : BitVec 6) (r : BitVec 4) (u : BitVec 1) (z : BitVec 3) (o : BitVec 7) (s : State) : Out :=
  gate 0 [.x d.toNat, .x (32 + r.toNat)] (bumpDst u r.toNat) s fun s =>
    let (v, s) := s.readX d.toNat
    let base := s.areg r.toNat
    let n := s.imm o * szBytes z.toNat
    let va := fmAddr u base n
    match s.access va (szBytes z.toNat) .write with
    | .error t => s.trapNow t
    | .ok pa =>
      (s.noteTlb s.clNo (s.agentOf s.cur) false va.toNat).issueMem { pa := pa, va := va, op := .store (szBytes z.toNat), arg := v } none
        fun s => s.bump u r.toNat base n

/-- R125: ldx, at Wrap(A + B × size, 64). -/
def execLdx (d a b : BitVec 6) (z : BitVec 3) (s : State) : Out :=
  gate 0 [.x a.toNat, .x b.toNat] [.x d.toNat] s fun s =>
    let (x, s) := s.readX a.toNat
    let (y, s) := s.readX b.toNat
    s.loadTo z.toNat (x + BitVec.ofNat 64 (y.toNat * szBytes z.toNat)) d.toNat id

/-! ## Cache maintenance (R129) -/

/-- A range form: A and B read, then, the context's earlier stores performed, f on every line of the L1 that the range affects. -/
def rangeForm (f : State → Nat × Bool → State) (a b : BitVec 6) (s : State) : Out :=
  gate 0 [.x a.toNat, .x b.toNat] [] s fun s =>
    let (x, s) := s.readX a.toNat
    let (y, s) := s.readX b.toNat
    let s := s.drainL1
    .next ((s.linesOf s.clNo (s.agentOf s.cur) x.toNat y.toNat).foldl f s)

/-- A line written back and kept valid, clean. -/
def State.l1Clean (s : State) (cl line : Nat) : State :=
  match (s.cl cl).l1Find line with
  | none => s
  | some l =>
    let s := s.writeBack cl l
    let c := s.cl cl
    s.setCl cl { c with l1 := c.l1.map fun m => if m.line = line then { m with dirty := 0 } else m }

/-- R129: dirty lines of the range are written back and stay valid. -/
def execDclean (a b : BitVec 6) (s : State) : Out := rangeForm (fun s l => s.l1Clean s.clNo l.1) a b s
/-- R129: lines wholly in the range are dropped with their dirty data; lines partly in it are written back first. -/
def execDinv (a b : BitVec 6) (s : State) : Out :=
  rangeForm (fun s l => if l.2 then s.l1Drop s.clNo l.1 else s.l1Flush s.clNo l.1) a b s
/-- R129: lines of the range are written back and dropped. -/
def execDflush (a b : BitVec 6) (s : State) : Out := rangeForm (fun s l => s.l1Flush s.clNo l.1) a b s

/-- R130: every copy of the range in the instruction cache and the fetch buffer is discarded; a replay keeps its own. -/
def execIsync (a b : BitVec 6) (s : State) : Out :=
  gate 0 [.x a.toNat, .x b.toNat] [] s fun s =>
    let (x, s) := s.readX a.toNat
    let (y, s) := s.readX b.toNat
    let lo := x.toNat
    let hi := min (x.toNat + y.toNat) (2 ^ 48)
    let hit (blk : Nat) : Bool := decide (lo < hi ∧ blk * 256 < hi ∧ lo < blk * 256 + 256)
    let cl := s.myCl
    let s := s.setMyCl { cl with icache := cl.icache.filter fun e => !hit e.blk }
    let c := s.me
    .next (s.setMe { c with
      fetchBuf := c.fetchBuf.filter fun e => !hit e.1, fetchHalf := c.fetchHalf.filter fun e => !hit e.1 })

/-- R131, R256: after its bundle the context stays in BLOCK until the scope's accesses are performed. -/
def execFence (a : BitVec 6) (s : State) : Out :=
  gate 0 [] [] s fun s =>
    let c := s.me
    .next (s.setMe { c with fence := some (max a.toNat (c.fence.getD 0)) })

/-- R132: a hint. The line of a mapped slice address that the L1 does not hold takes a free miss buffer. A page that the context may not
read brings nothing (DESIGN CHOICE, log 91). -/
def execPref (a : BitVec 6) (s : State) : Out :=
  gate 0 [.x a.toNat] [] s fun s =>
    let (x, s) := s.readX a.toNat
    if x.toNat < lsTop then .next s
    else match s.translate s.clNo (s.agentOf s.cur) false (s.userOf s.cur) x .read with
      | .error _ => .next s
      | .ok pa => match s.l1Line s.clNo pa with
        | none => .next s
        | some line =>
          .next (if (s.myCl.l1Find line).isSome then s else s.askLine s.clNo (some line) (keyOf pa))

end Sys2Proof.Machine
end

