-- ==== Sys2Proof/Machine/Amo.lean ====
section
/-! DEFINITION. Atomic memory operations: majors 0x38 and 0x39 FN 0 and 1, and their requests at the pigeonhole banks (R227 to R230,
R270). -/
namespace Sys2Proof.Machine

/-- An atomic operation at va: its address checks (R227), and where it is performed (R228). -/
def amoDo (op : AmoOp) (va : W64) (b d : W64) (dst : Nat) (s : State) : Out :=
  match s.access va op.size .amo with
  | .error t => s.trapNow t
  | .ok pa =>
    (s.noteTlb s.clNo (s.agentOf s.cur) false va.toNat).issueMem { pa := pa, va := va, op := .amo op, arg := b, arg2 := d } (some dst) id

/-- The AMO form: A the address, B the operand (R227). -/
def amo (op : AmoOp) (d a b : BitVec 6) (s : State) : Out :=
  gate 0 [.x a.toNat, .x b.toNat] [.x d.toNat] s fun s =>
    let (x, s) := s.readX a.toNat
    let (y, s) := s.readX b.toNat
    amoDo op x y 0 d.toNat s

/-- R227: aadd. -/
def execAadd (d a b : BitVec 6) (s : State) : Out := amo .add d a b s
/-- R227: aand. -/
def execAand (d a b : BitVec 6) (s : State) : Out := amo .and d a b s
/-- R227: aor. -/
def execAor (d a b : BitVec 6) (s : State) : Out := amo .or d a b s
/-- R227: axchg. -/
def execAxchg (d a b : BitVec 6) (s : State) : Out := amo .xchg d a b s
/-- R227: amaxs. -/
def execAmaxs (d a b : BitVec 6) (s : State) : Out := amo .maxs d a b s
/-- R227: amins. -/
def execAmins (d a b : BitVec 6) (s : State) : Out := amo .mins d a b s
/-- R227: aaddf. -/
def execAaddf (d a b : BitVec 6) (s : State) : Out := amo .addf d a b s
/-- R227: afx. -/
def execAfx (d a b : BitVec 6) (s : State) : Out := amo .fx d a b s

/-- R229: acas. The comparand is D as landed at issue. -/
def execAcas (d a b : BitVec 6) (s : State) : Out :=
  gate 0 [.x d.toNat, .x a.toNat, .x b.toNat] [.x d.toNat] s fun s =>
    let cmp := s.me.getX d.toNat
    let (x, s) := s.readX a.toNat
    let (y, s) := s.readX b.toNat
    amoDo .cas x y cmp d.toNat s

/-- R230: ahist, on the bin at Wrap(A + 4 × B[31:0], 64). -/
def execAhist (d a b : BitVec 6) (s : State) : Out :=
  gate 0 [.x a.toNat, .x b.toNat] [.x d.toNat] s fun s =>
    let (x, s) := s.readX a.toNat
    let (y, s) := s.readX b.toNat
    amoDo .hist (x + BitVec.ofNat 64 (4 * fld y 0 32)) 0 0 d.toNat s

/-! ## The pigeonhole banks (R270) -/

/-- The bank of a pigeonhole offset (R270). -/
def pigBank (pa : Nat) : Nat := offOf pa / 64 % 256

/-- R270: a bank serves the request that reached it first. -/
def execPigeonholeBankAccess (site bank : Nat) (s : State) : Out :=
  let x := s.site site
  match x.pigQueue.find? fun r => pigBank r.pa == bank with
  | none => .next s
  | some r => .next ((s.setSite site { x with pigQueue := x.pigQueue.erase r }).serve r)

end Sys2Proof.Machine
end

