-- ==== Sys2Proof/Machine/Fetch.lean ====
section
/-! DEFINITION. Fetching a bundle: opening a block into the fetch buffer, and finding the bundle's slots (R19, R59, R62, R63, R133, R360). -/
namespace Sys2Proof.Machine

/-- The code key of slot k of a site (R346, R360). -/
def State.codeKey (s : State) (site k : Nat) : BitVec 256 := (mget {} (s.site site).slots k).codeKey

/-- The nonce of block i of a segment (R358): SEGID, i and VERSION, 32 bits each. -/
def blockNonce (segid i version : Nat) : BitVec 96 :=
  BitVec.ofNat 96 (segid % 2 ^ 32 * 2 ^ 64 + i % 2 ^ 32 * 2 ^ 32 + version % 2 ^ 32)

/-- AUTH of a block (R99, Table 21). -/
def authTrap (blk : Nat) : Trap := { cause := 0x0E, addr := BitVec.ofNat 64 (blk * 256) }

/-- The home of block number blk (address div 256) of context g's segment, through the scalar TLB; a fetch from the local-store window is
refused (R19, R268, R360). A translation that fails reports the bundle's address (R101). The order of these tests, PROT and XLATE of
the block before AUTH, and AUTH for a tag entry that cannot be read, is the model's (DESIGN CHOICE, log 75). -/
def State.blockHome (s : State) (g blk : Nat) : Except Trap Nat :=
  let c := s.ctx g
  let va : W64 := if c.pc.toNat / 256 = blk then c.pc else BitVec.ofNat 64 (blk * 256)
  if blk * 256 < lsTop then .error (protTrap va .exec)
  else match s.translate (g / 4) (s.agentOf g) false (s.userOf g) (BitVec.ofNat 64 (blk * 256)) .exec with
    | .error t => .error { t with addr := va }
    | .ok pa =>
      if blk * 256 < c.seg.text.toNat ∨ c.seg.nblk ≤ (blk * 256 - c.seg.text.toNat) / 256 then .error (authTrap blk) else .ok pa

/-- The address of block blk's tag entry (R358). -/
def State.tagAddr (s : State) (g blk : Nat) : W64 :=
  let x := (s.ctx g).seg
  x.tags + BitVec.ofNat 64 (16 * ((blk * 256 - x.text.toNat) / 256))

/-- The instruction cache's copy of a block. -/
def State.icFind (s : State) (g blk : Nat) : Option ICLine := (s.cl (g / 4)).icache.find? fun l => decide (l.blk = blk)

/-- The words of a block that context g has read already (R363). -/
def Ctx.halfOf (c : Ctx) (blk : Nat) : Option (BitVec 2048) := (c.fetchHalf.filter fun e => e.1 == blk).map (·.2)

/-- The stored words and tag entry of a block: from the instruction cache, else read from memory, the words before where they have been
read already (R268, R360, R363). -/
def State.readBlock (s : State) (g blk : Nat) : Except Trap ICLine :=
  match s.blockHome g blk with
  | .error t => .error t
  | .ok pa => match s.icFind g blk with
    | some l => .ok l
    | none => match s.translate (g / 4) (s.agentOf g) false false (s.tagAddr g blk) .read with
      | .error _ => .error (authTrap blk)
      | .ok ta =>
        let half := (s.ctx g).halfOf blk
        if (half.isNone && s.badAt pa 256) || s.badAt ta 16 then .error (authTrap blk)
        else .ok { blk := blk, text := half.getD (BitVec.ofNat 2048 (s.load pa 256)), tag := BitVec.ofNat 128 (s.load ta 16) }

/-- The words of a block read from memory, its tag entry still to be read (R281, R360, R363). -/
def State.readText (s : State) (g blk : Nat) : Except Trap State :=
  match s.blockHome g blk with
  | .error t => .error t
  | .ok pa =>
    if s.badAt pa 256 then .error (authTrap blk)
    else
      let s := (s.noteTlb (g / 4) (s.agentOf g) false (blk * 256)).readAt (g / 4) pa 256
      .ok (s.setCtx g { s.ctx g with fetchHalf := some (blk, BitVec.ofNat 2048 (s.load pa 256)) })

/-- What reading a block leaves behind: its translations, and where the instruction cache does not hold it the homes read, the words'
unless they were read before (R268, R269, R278, R281, R283, R287). -/
def State.fetchReads (s : State) (g blk : Nat) : State :=
  let cl := g / 4
  let a := s.agentOf g
  let z := s.noteTlb cl a false (blk * 256)
  if (s.icFind g blk).isSome then z
  else
    let z := match s.blockHome g blk with
      | .ok pa => if ((s.ctx g).halfOf blk).isSome then z else z.readAt cl pa 256
      | .error _ => z
    let z := z.noteTlb cl a false (s.tagAddr g blk).toNat
    match s.translate cl a false false (s.tagAddr g blk) .read with
    | .ok ta => z.readAt cl ta 16
    | .error _ => z

/-- A block opened: decrypted and its tag checked under the code key of the segment's slot (R360). -/
def State.openBlock (s : State) (g blk : Nat) : Except Trap (ICLine × BitVec 2048) :=
  match s.readBlock g blk with
  | .error t => .error t
  | .ok l =>
    let seg := (s.ctx g).seg
    let i := (blk * 256 - seg.text.toNat) / 256
    match Config.gcmOpen (s.codeKey (siteOf (g / 4)) seg.slot) (blockNonce seg.segid i (bits l.tag.toNat 64 32)) l.text
        (BitVec.ofNat 64 l.tag.toNat) with
    | none => .error (authTrap blk)
    | some p => .ok (l, p)

/-- The fetch buffer of context g made to hold block blk; a block it holds is reused (R360). -/
def State.fetchBlock (s : State) (g blk : Nat) : Except Trap (BitVec 2048 × State) :=
  match (s.ctx g).fetchBuf with
  | some (b, p) => if b = blk then .ok (p, s) else go
  | none => go
where
  go : Except Trap (BitVec 2048 × State) :=
    match s.openBlock g blk with
    | .error t => .error t
    | .ok (l, p) =>
      let s := s.fetchReads g blk
      let cl := s.cl (g / 4)
      let s := s.setCl (g / 4) { cl with icache := (l :: cl.icache.filter fun e => !decide (e.blk = blk)).take 2048 }
      let c := s.ctx g
      .ok (p, s.setCtx g { c with fetchBuf := some (blk, p), fetchHalf := none })

/-- Word i of a block. -/
def blockWord (p : BitVec 2048) (i : Nat) : Nat := bits p.toNat (32 * i) 32

/-- A structural fault of a bundle, with its reason code of R68. -/
inductive StructFault where
  | stopEarly | noStop | block
  deriving DecidableEq, Repr

def StructFault.code : StructFault → Nat
  | .stopEarly => 1
  | .noStop => 2
  | .block => 3

/-- The slots of the bundle at word position off of a block, from slot k on with n more to try (R62, R63). Eight slots without a stop
bit that end at the block's end fit both reasons of R68: NOSTOP is reported (DESIGN CHOICE, log 74). -/
def slotsFrom (p : BitVec 2048) (off k : Nat) : Nat → Except StructFault (List Nat)
  | 0 => .error .noStop
  | n + 1 =>
    if 64 ≤ off + k then .error .block
    else
      let w := blockWord p (off + k)
      if bit w 31 then (if k < 3 then .error .stopEarly else .ok [w])
      else match slotsFrom p off (k + 1) n with
        | .error e => .error e
        | .ok ws => .ok (w :: ws)

/-- The slots of the bundle at an address whose block is p. -/
def slotsAt (p : BitVec 2048) (pc : W64) : Except StructFault (List Nat) := slotsFrom p (fld pc 2 6) 0 8

/-- The wait count of the bundle at pc, as far as it can be fetched; 0 otherwise (R102 step 3). -/
def State.peekWait (s : State) (g : Nat) (pc : W64) : Nat :=
  match s.fetchBlock g (pc.toNat / 256) with
  | .error _ => 0
  | .ok (p, _) => bits (blockWord p (fld pc 2 6)) 27 4

end Sys2Proof.Machine
end

