-- ==== Sys2Proof/Machine/Kb.lean ====
section
/-! DEFINITION. KB-n block floating point: scales, packing and unpacking (R51 to R55). -/
namespace Sys2Proof.Machine

/-- The scale of fields E and F in units of 2^-300 (R51), for E from 1 to 254. -/
def kbUnits (e f : Nat) : Nat := (65536 + f) * 2 ^ (e + 157)

/-- A finite magnitude m × 2^e in units of 2^-300; the formats packed reach no lower than 2^-149. -/
def magUnits (m : Nat) (e : Int) : Nat := m * 2 ^ (e + 300).toNat

/-- The least scale of R51 not below amax / q, amax in units of 2^-300; the largest scale where none reaches it (R55). -/
def kbScale (amax q : Nat) : Nat × Nat :=
  match (List.range 254).find? fun k => decide (amax ≤ kbUnits (k + 1) 65535 * q) with
  | none => (254, 65535)
  | some k =>
    let e := k + 1
    let u := 2 ^ (e + 157) * q
    -- the least significand s with s × u ≥ amax
    (e, (amax + u - 1) / u - 65536)

/-- n / d rounded to an integer, to nearest with ties to even. -/
def divNE (n d : Nat) : Nat :=
  let q := n / d
  let r := n % d
  if 2 * r > d ∨ (2 * r = d ∧ q % 2 = 1) then q + 1 else q

/-- A packed block: its 24-bit scale word, its mantissas as n-bit codes, and its flags (R51, R55). -/
structure KbBlock where
  scale : Nat
  mant : List Nat
  fl : Flags
  deriving DecidableEq, Repr

/-- Packing of a block of exact values to KB-n (R55). -/
def kbPack (n : Nat) (xs : List FVal) : KbBlock :=
  let isBad (x : FVal) : Bool := match x with
    | .fin _ _ _ => false
    | _ => true
  let mag (x : FVal) : Nat := match x with
    | .fin _ m e => magUnits m e
    | _ => 0
  let neg (x : FVal) : Bool := match x with
    | .fin s _ _ => s
    | _ => false
  if xs.any isBad then { scale := 255 * 65536, mant := xs.map fun _ => 0, fl := Flags.nv }
  else
    let amax := (xs.map mag).foldl max 0
    if amax = 0 then { scale := 0, mant := xs.map fun _ => 0, fl := 0 }
    else
      let q := 2 ^ (n - 1) - 1
      let (e, f) := kbScale amax q
      let d := kbUnits e f
      let m (x : FVal) : Nat := min (divNE (mag x) d) q
      { scale := e * 65536 + f
        mant := xs.map fun x => if neg x ∧ m x ≠ 0 then 2 ^ n - m x else m x
        fl := (if xs.any fun x => decide (m x * d ≠ mag x) then Flags.nx else 0) |||
          (if xs.any fun x => decide (mag x ≠ 0 ∧ m x = 0) then Flags.uf else 0) }

/-- The value of a scale word as f32: exact, a zero block +0, a NaN block the canonical NaN (R51, R158). -/
def kbScaleVal (w : Nat) : FVal :=
  let e := bits w 16 8
  if e = 0 then .fin false 0 0
  else if e = 255 then .nan false
  else .fin false (65536 + bits w 0 16) ((e : Int) - 143)

/-- Element of a block from its scale word and n-bit mantissa code: the exact value (R52). -/
def kbElem (n scale code : Nat) : FVal :=
  let m := sextNat code n
  match kbScaleVal scale with
  | .fin _ sm se => if sm = 0 ∨ m = 0 then .fin false 0 0 else .fin (decide (m < 0)) (m.natAbs * sm) se
  | v => v

/-- An element unpacked to f32; a NaN block raises no flag (R54). -/
def kbUnpack (n scale code : Nat) : Nat × Flags := roundVal f32 .rne (kbElem n scale code)

end Sys2Proof.Machine
end

