-- ==== Sys2Proof/Machine/Rec.lean ====
section
/-! DEFINITION. Tensor records (R22 to R25) and the memory accesses of engines (R286, R289). -/
namespace Sys2Proof.Machine

/-! ## The record's fields (Table 5) -/

def rw (r : List W64) (i : Nat) : W64 := r.getD i 0
def recValid (r : List W64) : Bool := fld (rw r 0) 63 1 == 1
def recKbn (r : List W64) : Nat := fld (rw r 0) 54 4
def recNdim (r : List W64) : Nat := fld (rw r 0) 52 2 + 1
def recFmt (r : List W64) : Nat := fld (rw r 0) 48 4
def recBase (r : List W64) : Nat := fld (rw r 0) 0 48
def recSbase (r : List W64) : Nat := fld (rw r 1) 0 48
def recSpace (r : List W64) : Nat := fld (rw r 1) 48 1
/-- The rights of word 1, by bit number: RD 49, W 50, RING 51, MCAST 52, REMOTE 53. -/
def recRight (r : List W64) (b : Nat) : Bool := fld (rw r 1) b 1 == 1
def rRd : Nat := 49
def rW : Nat := 50
def rRing : Nat := 51
def rMcast : Nat := 52
def rRemote : Nat := 53

/-- SIZE and STRIDE of dimension i; dimensions at or above NDIM + 1 have size 1 and stride 0. -/
def recSize (r : List W64) (i : Nat) : Nat :=
  if recNdim r ≤ i then 1 else fld (rw r (2 + i / 2)) (32 * (i % 2)) 32
def recStride (r : List W64) (i : Nat) : Int := if recNdim r ≤ i then 0 else (rw r (4 + i)).toInt

/-- Bytes of an element of FMT 0 to 3. -/
def fmtSize : Nat → Nat
  | 0 => 4
  | 1 => 2
  | 2 => 2
  | _ => 4

/-- The float format of FMT 0 to 2; s32 has none. -/
def fmtOf : Nat → Option FFmt
  | 0 => some f32
  | 1 => some bf16
  | 2 => some f16
  | _ => none

def isKb (r : List W64) : Bool := recFmt r == 4

/-- The block offset of a row of a KB-n record (R23). -/
def recBlk (r : List W64) (i1 i2 i3 : Nat) : Int := i1 * recStride r 1 + i2 * recStride r 2 + i3 * recStride r 3

/-- The address of an element of a record that is not KB-n (R23). -/
def recAddr (r : List W64) (i0 i1 i2 i3 : Nat) : Int :=
  recBase r + i0 * recStride r 0 + i1 * recStride r 1 + i2 * recStride r 2 + i3 * recStride r 3

/-- The least and greatest value of the sum of index × stride over dimensions lo to 3. -/
def recSpan (r : List W64) (lo : Nat) : Int × Int :=
  ((List.range 4).filter fun i => decide (lo ≤ i)).foldl
    (fun (a : Int × Int) i =>
      let x := ((recSize r i : Int) - 1) * recStride r i
      (a.1 + min 0 x, a.2 + max 0 x)) (0, 0)

/-- Test 2 of R24. -/
def recTest2 (r : List W64) : Bool := recValid r && fld (rw r 0) 58 5 == 0 && fld (rw r 1) 54 10 == 0

/-- Test 3 of R24. -/
def recTest3 (r : List W64) : Bool :=
  if isKb r then decide (2 ≤ recKbn r ∧ recKbn r ≤ 8) && recSize r 0 % 32 == 0 && recStride r 0 == 0
  else decide (recFmt r < 4) && recKbn r == 0 && recSbase r == 0 && recStride r 0 % (fmtSize (recFmt r) : Int) == 0

/-- Every address of a plane lies in the record's space (test 4 of R24). -/
def inSpace (r : List W64) (lo hi : Int) : Bool :=
  if recSpace r = 0 then decide (0 ≤ lo ∧ hi ≤ (lsTop : Int)) else decide ((lsTop : Int) ≤ lo)

/-- Test 4 of R24. A record of which some SIZE is 0 has no address; the spec does not say what the test then checks: only BASE is
(DESIGN CHOICE, log 62). -/
def recTest4 (r : List W64) : Bool :=
  if (List.range 4).any fun i => recSize r i == 0 then inSpace r (recBase r) (recBase r)
  else if isKb r then
    let (lo, hi) := recSpan r 1
    let n : Int := 4 * recKbn r
    let nb : Int := recSize r 0 / 32
    inSpace r (recBase r + n * lo) (recBase r + n * (hi + nb)) && inSpace r (recSbase r + 3 * lo) (recSbase r + 3 * (hi + nb))
  else
    let (lo, hi) := recSpan r 0
    inSpace r (recBase r + lo) (recBase r + hi + fmtSize (recFmt r))

/-- RECORD with a test number and a handle (R24, R101). -/
def recTrap (test handle : Nat) : Trap := { cause := 0x0F, reason := test, detail := handle }

/-- The record of handle h: from the record cache, else read from the table at SUPER through the MMU (R24, R25). -/
def State.fetchRec (s : State) (h : Nat) : Except Trap (List W64 × State) :=
  let c := s.myCl
  if c.recLim ≤ h then .error (recTrap 1 h)
  else match mget [] c.recCache h with
    | r :: rs => .ok (r :: rs, s)
    | [] =>
      let va : W64 := BitVec.ofNat 64 (c.recBase.toNat + 64 * h)
      match s.addrCheck s.clNo (s.agentOf s.cur) false va 8 .read with
      | .error t => .error t
      | .ok pa =>
        if s.badAt pa 64 then
          .error { cause := 0x12, addr := va, reason := 5, detail := s.issue.bpc.toNat % 2 ^ 48 * 32 }
        else
          let s := (s.noteTlb s.clNo (s.agentOf s.cur) false va.toNat).readAt s.clNo pa 64
          let r := tab (fun i => BitVec.ofNat 64 (s.load (pa + 8 * i) 8)) 8
          let c := s.myCl
          .ok (r, s.setMyCl { c with recCache := mset c.recCache h r })

/-- The record of a handle under tests 1 to 4 of R24, then the rights of test 5. -/
def State.getRec (s : State) (h : Nat) (rights : List Nat) : Except Trap (List W64 × State) :=
  match s.fetchRec h with
  | .error t => .error t
  | .ok (r, s) =>
    if !recTest2 r then .error (recTrap 2 h)
    else if !recTest3 r then .error (recTrap 3 h)
    else if !recTest4 r then .error (recTrap 4 h)
    else if !rights.all (recRight r) then .error (recTrap 5 h)
    else .ok (r, s)

/-! ## Engine accesses -/

/-- The leaf by which an operation has translated a page, where it has (R287). -/
def State.opLeaf (s : State) (cl : Nat) (op : Op) (va : Nat) : Option (Nat × W64) :=
  ((s.cl cl).opTlb.find? fun e => e.1 == op.ctx && e.2.1 == op.tl && e.2.2.1 == op.num &&
    decide (e.2.2.2.vpn = va / 2 ^ pageBits e.2.2.2.level)).map fun e => (e.2.2.2.level, e.2.2.2.pte)

/-- One access of an engine operation: the home, or the code of Table 33 and the faulting address (R189, R289, R354). A page that the
operation has translated keeps its translation (R238, R287). The local-store bounds were checked at issue (R24). -/
def State.engAccess (s : State) (cl : Nat) (op : Op) (va : Nat) (acc : Acc) : Except (Nat × W64) Nat :=
  if va < lsTop then .ok (lsAt cl va)
  else
    let v : W64 := BitVec.ofNat 64 va
    match (match s.opLeaf cl op va with
      | some (l, e) => s.checkLeaf cl op.agent op.user v acc l e
      | none => s.translate cl op.agent true op.user v acc) with
    | .ok pa => .ok pa
    | .error t => .error (if t.cause = 0x05 ∧ t.detail = 1 then 3 else 5, v)

/-- The operation's translation of the page of va noted: in the engine TLB, and with the operation (R287). -/
def State.engNote (s : State) (cl : Nat) (op : Op) (va : Nat) : State :=
  if va < lsTop ∨ 2 ^ 48 ≤ va ∨ (s.opLeaf cl op va).isSome then s
  else
    let s := s.noteTlb cl op.agent true va
    match s.leafFor cl op.agent true va with
    | .error _ => s
    | .ok (l, e) =>
      let c := s.cl cl
      s.setCl cl { c with opTlb := (op.ctx, op.tl, op.num, { level := l, vpn := va / 2 ^ pageBits l, pte := e }) :: c.opTlb }

/-- The parts of [va, va + n) by page: address and length. -/
def pageParts (va n : Nat) : List (Nat × Nat) :=
  if n = 0 then [] else (unitsOf 32768 va n).map fun p => (max va (32768 * p), min (va + n) (32768 * (p + 1)) - max va (32768 * p))

/-- What a read of an engine gives: the value, or the code and address of the failure; and the state after it. -/
abbrev Rd (α : Type) : Type := Except (Nat × W64) α × State

/-- A read, then another. -/
def Rd.andThen {α β : Type} (r : Rd α) (k : α → State → Rd β) : Rd β := match r with
  | (.error e, s) => (.error e, s)
  | (.ok v, s) => k v s

/-- Reads in order, up to the first that fails. -/
def readAll {ι α : Type} (f : ι → State → Rd α) : List ι → State → Rd (List α)
  | [], s => (.ok [], s)
  | x :: xs, s => (f x s).andThen fun v s => (readAll f xs s).andThen fun vs s => (.ok (v :: vs), s)

/-- The virtual address of the first byte of [pa, pa + n), which stands at va, whose word fails. -/
def State.badVa (s : State) (va pa n : Nat) : Nat := va + (max pa (s.firstBadWord pa n) - pa)

/-- An engine's read of n bytes of one page. -/
def State.engReadPart (s : State) (cl : Nat) (op : Op) (va n : Nat) : Rd Nat :=
  match s.engAccess cl op va .read with
  | .error e => (.error e, s.engNote cl op va)
  | .ok pa =>
    let s := (s.engNote cl op va).readAt cl pa n
    (if s.badAt pa n then .error (6, BitVec.ofNat 64 (s.badVa va pa n)) else .ok (s.load pa n), s)

/-- An engine's read of n bytes, page by page. -/
def State.engRead (s : State) (cl : Nat) (op : Op) (va n : Nat) : Rd Nat :=
  (readAll (fun p s => s.engReadPart cl op p.1 p.2) (pageParts va n) s).andThen fun vs s =>
    (.ok (((pageParts va n).zip vs).foldl (fun x p => x + p.2 * 2 ^ (8 * (p.1.1 - va))) 0), s)

/-- Writes of engines in order: address, bytes, value. Each stops at the first that fails, those performed before it standing
(R289). -/
def State.engParts (s : State) (cl : Nat) (op : Op) : List (Nat × Nat × Nat) → State × Option (Nat × W64)
  | [] => (s, none)
  | (va, n, v) :: ws => match s.engAccess cl op va .write with
    | .error e => (s.engNote cl op va, some e)
    | .ok pa => ((s.engNote cl op va).perform pa n v).engParts cl op ws

/-- The writes of one write, page by page. -/
def partsOf (w : Nat × Nat × Nat) : List (Nat × Nat × Nat) := (pageParts w.1 w.2.1).map fun p => (p.1, p.2, bits w.2.2 (8 * (p.1 - w.1)) (8 * p.2))

/-- A write of n bytes cut at the aligned 4-byte granules that are its atomic units (R257). -/
def granules (a n v : Nat) : List (Nat × Nat × Nat) :=
  if n = 0 then [] else (unitsOf 4 a n).map fun p =>
    (max a (4 * p), min (a + n) (4 * p + 4) - max a (4 * p), bits v (8 * (max a (4 * p) - a)) (8 * (min (a + n) (4 * p + 4) - max a (4 * p))))

/-- Writes in order: address, bytes, value. -/
def State.engWriteAll (s : State) (cl : Nat) (op : Op) (ws : List (Nat × Nat × Nat)) : State × Option (Nat × W64) :=
  s.engParts cl op (ws.flatMap partsOf)

/-- An engine's write of n bytes. -/
def State.engWrite (s : State) (cl : Nat) (op : Op) (va n v : Nat) : State × Option (Nat × W64) := s.engWriteAll cl op [(va, n, v)]

/-- A read of element (i0, i1, i2, i3) of a record that is not KB-n, as stored. -/
def State.readElem (s : State) (cl : Nat) (op : Op) (r : List W64) (i0 i1 i2 i3 : Nat) : Rd Nat :=
  s.engRead cl op (recAddr r i0 i1 i2 i3).toNat (fmtSize (recFmt r))

/-- Block b of row (i1, i2, i3) of a KB-n record: its mantissas as one number, and its scale (R23, R53). -/
def State.readBlk (s : State) (cl : Nat) (op : Op) (r : List W64) (b i1 i2 i3 : Nat) : Rd (Nat × Nat) :=
  let k := recBlk r i1 i2 i3 + b
  let n := recKbn r
  (s.engRead cl op (recBase r + 4 * n * k).toNat (4 * n)).andThen fun m s =>
    (s.engRead cl op (recSbase r + 3 * k).toNat 3).andThen fun sc s => (.ok (m, sc), s)

/-- The operation of the issuing context on timeline t, to be numbered when it takes its number. -/
def State.newOp (s : State) (t : Nat) : Op :=
  { ctx := s.cur, tl := t, num := (s.tl s.cur t).issue + 1, user := s.userOf s.cur, agent := s.agentOf s.cur }

/-- The operation has been cancelled by an ERROR of its timeline (R17), one that tlerr has cleared since included (R236). -/
def State.opDead (s : State) (op : Op) : Bool :=
  (s.tl op.ctx op.tl).cancelled op.num || (op.num != 0 && decide (op.num ≤ (s.tl op.ctx op.tl).vis))

/-- The operation's translations are in use no more. -/
def State.dropOpTlb (s : State) (op : Op) : State :=
  let c := s.cl (op.ctx / 4)
  if c.opTlb.isEmpty then s
  else s.setCl (op.ctx / 4) { c with opTlb := c.opTlb.filter fun e => !(e.1 == op.ctx && e.2.1 == op.tl && e.2.2.1 == op.num) }

/-- Completion, local and visible at once (R177). -/
def State.opDone (s : State) (op : Op) : State := (s.dropOpTlb op).complete op.ctx op.tl op.num

/-- Failure of an operation (R177, R189). -/
def State.opFail (s : State) (op : Op) (e : Nat × W64) (side : Nat := 0) : State :=
  let s := if e.1 = 6 ∧ side = 0 then (match s.engAccess (op.ctx / 4) op e.2.toNat .read with
    | .ok pa => s.logErr (op.ctx / 4) pa
    | .error _ => s)
    else if e.1 = 5 ∧ side = 0 ∧ fld e.2 48 16 = 0 ∧ (tlbFind (s.cl (op.ctx / 4)).engTlb e.2.toNat).isNone then
      s.logWalk (op.ctx / 4) op.agent e.2.toNat
    else s
  (s.dropOpTlb op).failOp op.ctx op.tl op.num e.2 e.1 side

/-- Failure of an operation by an uncorrectable error of an operand slot or an accumulator, logged. ADDR is the byte's offset in that
memory (R177, R284; log 61). -/
def State.opFailAt (s : State) (op : Op) (pa : Nat) : State :=
  ((s.logErr (op.ctx / 4) pa).dropOpTlb op).failOp op.ctx op.tl op.num (BitVec.ofNat 64 (offOf pa)) 6

/-- Flags of a matrix, ring or vector operation set in its context's VFLAGS (R29). -/
def State.opFlags (s : State) (op : Op) (fl : Flags) : State := s.setCtx op.ctx ((s.ctx op.ctx).orFlags fl true)

/-- LSBOUND of an LS record whose touched span leaves the bounds (R24). -/
def lsSpanTrap (c : Cluster) (lo hi : Int) : Option Trap :=
  if 0 ≤ lo ∧ c.lsOk lo.toNat (hi - lo).toNat then none
  else some (lsboundTrap (BitVec.ofInt 64 (if 0 ≤ lo ∧ c.lsOk lo.toNat 1 then max lo (c.lsLim * 131072 : Nat) else lo)))

end Sys2Proof.Machine
end

