-- ==== Sys2Proof/Machine/VecArith.lean ====
section
/-! DEFINITION. Vector arithmetic, logic, special functions, compares, predicates and conversions: majors 0x1C to 0x22 and 0x25
(R142 to R150, R156). -/
namespace Sys2Proof.Machine

/-! ## Shapes -/

/-- vd := f over the active lanes, the others as old, landing L cycles on, flags to VFLAGS (R29, R113, R142). -/
def State.landV (s : State) (L d : Nat) (p : W64) (old : V2048) (f : Nat → W32 × Flags) : Out :=
  .next (s.fix L (.v d (lanes p old fun i => (f i).1)) (laneFlags p fun i => (f i).2) true)

/-- vd[i] := f va[i] vb[i]. -/
def vbin (L : Nat) (f : W32 → W32 → W32 × Flags) (d a b : BitVec 5) (p : BitVec 3) (s : State) : Out :=
  gate 0 [.v a.toNat, .v b.toNat, .p p.toNat] [.v d.toNat] s fun s =>
    let old := s.oldV d.toNat
    let (x, s) := s.readV a.toNat
    let (y, s) := s.readV b.toNat
    s.landV L d.toNat (s.me.getP p.toNat) old fun i => f (lane x i) (lane y i)

/-- vd[i] := f va[i]. -/
def vuna (L : Nat) (f : W32 → W32 × Flags) (d a : BitVec 5) (p : BitVec 3) (s : State) : Out :=
  gate 0 [.v a.toNat, .p p.toNat] [.v d.toNat] s fun s =>
    let old := s.oldV d.toNat
    let (x, s) := s.readV a.toNat
    s.landV L d.toNat (s.me.getP p.toNat) old fun i => f (lane x i)

/-- vd[i] := f vd[i] va[i] vb[i] (R143). -/
def vtri (L : Nat) (f : W32 → W32 → W32 → W32 × Flags) (d a b : BitVec 5) (p : BitVec 3) (s : State) : Out :=
  gate 0 [.v d.toNat, .v a.toNat, .v b.toNat, .p p.toNat] [.v d.toNat] s fun s =>
    let old := s.oldV d.toNat
    let (x, s) := s.readV a.toNat
    let (y, s) := s.readV b.toNat
    s.landV L d.toNat (s.me.getP p.toNat) old fun i => f (lane old i) (lane x i) (lane y i)

/-- pd[i] := the test of va[i] and vb[i] in the active lanes (R149). -/
def vcmp (f : W32 → W32 → Bool × Flags) (d : BitVec 3) (a b : BitVec 5) (p : BitVec 3) (s : State) : Out :=
  gate 0 [.v a.toNat, .v b.toNat, .p p.toNat] [.p d.toNat] s fun s =>
    let (x, s) := s.readV a.toNat
    let (y, s) := s.readV b.toNat
    let act := s.me.getP p.toNat
    let old := s.me.getP d.toNat
    let r := ofBits (fun i => if pbit act i then (f (lane x i) (lane y i)).1 else pbit old i) 64
    .next (s.fix 2 (.p d.toNat (BitVec.ofNat 64 r)) (laneFlags act fun i => (f (lane x i) (lane y i)).2) true)

/-- pd := f pa pb (R150). -/
def plog (f : W64 → W64 → W64) (d a b : BitVec 3) (s : State) : Out :=
  gate 0 [.p a.toNat, .p b.toNat] [.p d.toNat] s fun s =>
    .next (s.fix 2 (.p d.toNat (f (s.me.getP a.toNat) (s.me.getP b.toNat))))

/-! ## Lane functions -/

/-- An f32 operation on a lane, rounding RNE. -/
def l32 (r : Nat × Flags) : W32 × Flags := (BitVec.ofNat 32 r.1, r.2)
/-- The low and the high 16-bit element of a lane (R11). -/
def lo16 (x : W32) : Nat := x.toNat % 2 ^ 16
def hi16 (x : W32) : Nat := x.toNat / 2 ^ 16
/-- Two 16-bit results packed into a lane. -/
def pair16 (l h : Nat × Flags) : W32 × Flags := (BitVec.ofNat 32 (l.1 % 2 ^ 16 + h.1 * 2 ^ 16), l.2 ||| h.2)
/-- A lane result without flags. -/
def plain (x : W32) : W32 × Flags := (x, 0)

def op32 (f : FFmt → RMode → Nat → Nat → Nat × Flags) (x y : W32) : W32 × Flags := l32 (f f32 .rne x.toNat y.toNat)
def opB16 (f : FFmt → RMode → Nat → Nat → Nat × Flags) (x y : W32) : W32 × Flags :=
  pair16 (f bf16 .rne (lo16 x) (lo16 y)) (f bf16 .rne (hi16 x) (hi16 y))
def tri32 (f : FFmt → RMode → Nat → Nat → Nat → Nat × Flags) (o x y : W32) : W32 × Flags :=
  l32 (f f32 .rne x.toNat y.toNat o.toNat)
def triB16 (f : FFmt → RMode → Nat → Nat → Nat → Nat × Flags) (o x y : W32) : W32 × Flags :=
  pair16 (f bf16 .rne (lo16 x) (lo16 y) (lo16 o)) (f bf16 .rne (hi16 x) (hi16 y) (hi16 o))

/-! ## 0x1C, 0x1D: VARITH.f32 and VARITH.bf16 (R145) -/

def execVaddF32 (d a b : BitVec 5) (p : BitVec 3) (s : State) : Out := vbin 4 (op32 fAdd) d a b p s
def execVsubF32 (d a b : BitVec 5) (p : BitVec 3) (s : State) : Out := vbin 4 (op32 fSub) d a b p s
def execVmulF32 (d a b : BitVec 5) (p : BitVec 3) (s : State) : Out := vbin 4 (op32 fMul) d a b p s
def execVfmaF32 (d a b : BitVec 5) (p : BitVec 3) (s : State) : Out := vtri 4 (tri32 fFma) d a b p s
def execVminF32 (d a b : BitVec 5) (p : BitVec 3) (s : State) : Out := vbin 4 (op32 fun t _ => fMinMax t false) d a b p s
def execVmaxF32 (d a b : BitVec 5) (p : BitVec 3) (s : State) : Out := vbin 4 (op32 fun t _ => fMinMax t true) d a b p s
def execVfmsF32 (d a b : BitVec 5) (p : BitVec 3) (s : State) : Out := vtri 4 (tri32 fFms) d a b p s
def execVabsF32 (d a : BitVec 5) (p : BitVec 3) (s : State) : Out :=
  vuna 4 (fun x => plain (BitVec.ofNat 32 (fAbs f32 x.toNat))) d a p s
def execVaddBf16 (d a b : BitVec 5) (p : BitVec 3) (s : State) : Out := vbin 4 (opB16 fAdd) d a b p s
def execVsubBf16 (d a b : BitVec 5) (p : BitVec 3) (s : State) : Out := vbin 4 (opB16 fSub) d a b p s
def execVmulBf16 (d a b : BitVec 5) (p : BitVec 3) (s : State) : Out := vbin 4 (opB16 fMul) d a b p s
def execVfmaBf16 (d a b : BitVec 5) (p : BitVec 3) (s : State) : Out := vtri 4 (triB16 fFma) d a b p s
def execVminBf16 (d a b : BitVec 5) (p : BitVec 3) (s : State) : Out := vbin 4 (opB16 fun t _ => fMinMax t false) d a b p s
def execVmaxBf16 (d a b : BitVec 5) (p : BitVec 3) (s : State) : Out := vbin 4 (opB16 fun t _ => fMinMax t true) d a b p s
def execVfmsBf16 (d a b : BitVec 5) (p : BitVec 3) (s : State) : Out := vtri 4 (triB16 fFms) d a b p s
def execVabsBf16 (d a : BitVec 5) (p : BitVec 3) (s : State) : Out :=
  vuna 4 (fun x => pair16 (fAbs bf16 (lo16 x), 0) (fAbs bf16 (hi16 x), 0)) d a p s

/-! ## 0x1E: VARITH.s32 (R146) -/

def int2 (f : W32 → W32 → W32) (x y : W32) : W32 × Flags := plain (f x y)
def execVaddS32 (d a b : BitVec 5) (p : BitVec 3) (s : State) : Out := vbin 2 (int2 (· + ·)) d a b p s
def execVsubS32 (d a b : BitVec 5) (p : BitVec 3) (s : State) : Out := vbin 2 (int2 (· - ·)) d a b p s
def execVmulS32 (d a b : BitVec 5) (p : BitVec 3) (s : State) : Out := vbin 2 (int2 (· * ·)) d a b p s
def execVmacS32 (d a b : BitVec 5) (p : BitVec 3) (s : State) : Out := vtri 2 (fun o x y => plain (o + x * y)) d a b p s
def execVminsS32 (d a b : BitVec 5) (p : BitVec 3) (s : State) : Out := vbin 2 (int2 fun x y => if x.sle y then x else y) d a b p s
def execVmaxsS32 (d a b : BitVec 5) (p : BitVec 3) (s : State) : Out := vbin 2 (int2 fun x y => if x.sle y then y else x) d a b p s
def execVminzS32 (d a b : BitVec 5) (p : BitVec 3) (s : State) : Out := vbin 2 (int2 fun x y => if x.ule y then x else y) d a b p s
def execVmaxzS32 (d a b : BitVec 5) (p : BitVec 3) (s : State) : Out := vbin 2 (int2 fun x y => if x.ule y then y else x) d a b p s

/-! ## 0x1F: VLOGIC (R147) -/

def execVand (d a b : BitVec 5) (p : BitVec 3) (s : State) : Out := vbin 2 (int2 (· &&& ·)) d a b p s
def execVor (d a b : BitVec 5) (p : BitVec 3) (s : State) : Out := vbin 2 (int2 (· ||| ·)) d a b p s
def execVxor (d a b : BitVec 5) (p : BitVec 3) (s : State) : Out := vbin 2 (int2 (· ^^^ ·)) d a b p s
def execVandn (d a b : BitVec 5) (p : BitVec 3) (s : State) : Out := vbin 2 (int2 fun x y => x &&& ~~~y) d a b p s
def execVshl (d a b : BitVec 5) (p : BitVec 3) (s : State) : Out := vbin 2 (int2 fun x y => x <<< (y.toNat % 32)) d a b p s
def execVshr (d a b : BitVec 5) (p : BitVec 3) (s : State) : Out := vbin 2 (int2 fun x y => x >>> (y.toNat % 32)) d a b p s
def execVsar (d a b : BitVec 5) (p : BitVec 3) (s : State) : Out := vbin 2 (int2 fun x y => x.sshiftRight (y.toNat % 32)) d a b p s
/-- R147: P selects between the two sources, and every lane is written. -/
def execVsel (d a b : BitVec 5) (p : BitVec 3) (s : State) : Out :=
  gate 0 [.v a.toNat, .v b.toNat, .p p.toNat] [.v d.toNat] s fun s =>
    let (x, s) := s.readV a.toNat
    let (y, s) := s.readV b.toNat
    .next (s.fix 2 (.v d.toNat (lanes (s.me.getP p.toNat) y fun i => lane x i)))

/-! ## 0x20: VSPECIAL.f32 (R148, R46, R47) -/

def fun32 (f : Nat → Nat × Flags) (x : W32) : W32 × Flags := l32 (f x.toNat)
def execVrcp (d a : BitVec 5) (p : BitVec 3) (s : State) : Out := vuna 8 (fun32 fRcp) d a p s
def execVrsq (d a : BitVec 5) (p : BitVec 3) (s : State) : Out := vuna 8 (fun32 fRsq) d a p s
def execVsqrt (d a : BitVec 5) (p : BitVec 3) (s : State) : Out := vuna 8 (fun32 (fSqrt f32 .rne)) d a p s
def execVex2 (d a : BitVec 5) (p : BitVec 3) (s : State) : Out := vuna 8 (fun32 fEx2) d a p s
def execVlg2 (d a : BitVec 5) (p : BitVec 3) (s : State) : Out := vuna 8 (fun32 fLg2) d a p s
def execVdiv (d a b : BitVec 5) (p : BitVec 3) (s : State) : Out := vbin 8 (op32 fDiv) d a b p s
def execVfloor (d a : BitVec 5) (p : BitVec 3) (s : State) : Out := vuna 8 (fun32 (fIntegral .rd)) d a p s
def execVround (d a : BitVec 5) (p : BitVec 3) (s : State) : Out := vuna 8 (fun32 (fIntegral .rne)) d a p s

/-! ## 0x21: VCMP (R149) -/

def cmp32 (k : FCmp) (x y : W32) : Bool × Flags := fCmp f32 k x.toNat y.toNat
def execVceqF32 (d : BitVec 3) (a b : BitVec 5) (p : BitVec 3) (s : State) : Out := vcmp (cmp32 .eq) d a b p s
def execVcltF32 (d : BitVec 3) (a b : BitVec 5) (p : BitVec 3) (s : State) : Out := vcmp (cmp32 .lt) d a b p s
def execVcleF32 (d : BitVec 3) (a b : BitVec 5) (p : BitVec 3) (s : State) : Out := vcmp (cmp32 .le) d a b p s
def execVcunF32 (d : BitVec 3) (a b : BitVec 5) (p : BitVec 3) (s : State) : Out := vcmp (cmp32 .un) d a b p s
def execVceqS32 (d : BitVec 3) (a b : BitVec 5) (p : BitVec 3) (s : State) : Out := vcmp (fun x y => (x == y, 0)) d a b p s
def execVcltS32 (d : BitVec 3) (a b : BitVec 5) (p : BitVec 3) (s : State) : Out := vcmp (fun x y => (x.slt y, 0)) d a b p s
def execVcleS32 (d : BitVec 3) (a b : BitVec 5) (p : BitVec 3) (s : State) : Out := vcmp (fun x y => (x.sle y, 0)) d a b p s
def execVcltzS32 (d : BitVec 3) (a b : BitVec 5) (p : BitVec 3) (s : State) : Out := vcmp (fun x y => (x.ult y, 0)) d a b p s

/-! ## 0x22: VPRED (R150) -/

def execPand (d a b : BitVec 3) (s : State) : Out := plog (· &&& ·) d a b s
def execPor (d a b : BitVec 3) (s : State) : Out := plog (· ||| ·) d a b s
def execPxor (d a b : BitVec 3) (s : State) : Out := plog (· ^^^ ·) d a b s
def execPandn (d a b : BitVec 3) (s : State) : Out := plog (fun x y => x &&& ~~~y) d a b s
def execPnot (d a : BitVec 3) (s : State) : Out :=
  gate 0 [.p a.toNat] [.p d.toNat] s fun s => .next (s.fix 2 (.p d.toNat (~~~(s.me.getP a.toNat))))
/-- R150: c[D] := (pa AND p[P]) ≠ 0. -/
def execPany (d a p : BitVec 3) (s : State) : Out :=
  gate 0 [.p a.toNat, .p p.toNat] [.c d.toNat] s fun s =>
    .next (s.fix 2 (.c d.toNat (s.me.getP a.toNat &&& s.me.getP p.toNat != 0)))
/-- R150: c[D] := (pa AND p[P]) == p[P]. -/
def execPall (d a p : BitVec 3) (s : State) : Out :=
  gate 0 [.p a.toNat, .p p.toNat] [.c d.toNat] s fun s =>
    .next (s.fix 2 (.c d.toNat (s.me.getP a.toNat &&& s.me.getP p.toNat == s.me.getP p.toNat)))
/-- R150: sd := the number of 1 bits of pa AND p[P]. -/
def execPcnt (d : BitVec 5) (a p : BitVec 3) (s : State) : Out :=
  gate 0 [.p a.toNat, .p p.toNat] [.x d.toNat] s fun s =>
    .next (s.fix 2 (.x d.toNat (BitVec.ofNat 64 (popc (s.me.getP a.toNat &&& s.me.getP p.toNat).toNat 64))))

/-! ## 0x25: VCVT (R156) -/

def execVcvtF32S32 (d a : BitVec 5) (p : BitVec 3) (s : State) : Out := vuna 3 (fun x => l32 (fOfInt f32 .rne x.toInt)) d a p s
def execVcvtS32F32 (d a : BitVec 5) (p : BitVec 3) (s : State) : Out :=
  vuna 3 (fun x => let (v, fl) := fToInt f32 .rne 32 x.toNat; (wrap 32 v, fl)) d a p s
/-- Two f32 lanes narrowed into the halves of one (R156, R45). -/
def narrow2 (t : FFmt) (x y : W32) : W32 × Flags := pair16 (fCvt f32 t .rne x.toNat) (fCvt f32 t .rne y.toNat)
def execVcvtBf16F32 (d a b : BitVec 5) (p : BitVec 3) (s : State) : Out := vbin 3 (narrow2 bf16) d a b p s
def execVcvtF32Bf16l (d a : BitVec 5) (p : BitVec 3) (s : State) : Out := vuna 3 (fun x => l32 (fCvt bf16 f32 .rne (lo16 x))) d a p s
def execVcvtF32Bf16h (d a : BitVec 5) (p : BitVec 3) (s : State) : Out := vuna 3 (fun x => l32 (fCvt bf16 f32 .rne (hi16 x))) d a p s
def execVcvtF16F32 (d a b : BitVec 5) (p : BitVec 3) (s : State) : Out := vbin 3 (narrow2 f16) d a b p s
def execVcvtF32F16l (d a : BitVec 5) (p : BitVec 3) (s : State) : Out := vuna 3 (fun x => l32 (fCvt f16 f32 .rne (lo16 x))) d a p s
def execVcvtF32F16h (d a : BitVec 5) (p : BitVec 3) (s : State) : Out := vuna 3 (fun x => l32 (fCvt f16 f32 .rne (hi16 x))) d a p s

end Sys2Proof.Machine
end

