-- ==== Sys2Proof/Machine/VecMove.lean ====
section
/-! DEFINITION. Vector reductions, scans and selection, permutes, KB-n conversion, transfers and the queue operations: majors
0x23, 0x24, 0x26, 0x27 and 0x2B (R151 to R159, R168, R169). -/
namespace Sys2Proof.Machine

/-! ## 0x23: VREDUCE (R48 to R50, R151 to R154) -/

/-- One level of the reduction tree of R48: adjacent pairs added, with the union of the flags. -/
def treeLevel : List Nat → List Nat × Flags
  | a :: b :: rest =>
    let (r, fl) := fAdd f32 .rne a b
    let (rs, fs) := treeLevel rest
    (r :: rs, fl ||| fs)
  | xs => (xs, 0)

/-- n levels of the tree. -/
def treeSum : Nat → List Nat → Nat × Flags
  | 0, xs => (xs.headD 0, 0)
  | n + 1, xs =>
    let (ys, fl) := treeLevel xs
    let (r, fs) := treeSum n ys
    (r, fl ||| fs)

/-- The f32 word −0, the identity of RNE addition (R48). -/
def negZero : Nat := 0x80000000

/-- vrsum.f32 over the lanes of x active in p. -/
def sumF32 (p : W64) (x : V2048) : Nat × Flags := treeSum 6 (tab (fun i => if pbit p i then (lane x i).toNat else negZero) 64)

/-- The max or min of R42 over the active lanes; the canonical NaN without a flag where there is none (R50). -/
def minMaxF32 (takeMax : Bool) (p : W64) (x : V2048) : Nat × Flags :=
  match ((List.range 64).filter (pbit p)).map fun i => (lane x i).toNat with
  | [] => (f32.nan, 0)
  | v :: vs =>
    -- a lone NaN still becomes canonical, and a signalling one sets NV
    let first := if (unpack f32 v).isNan then (f32.nan, nvOf [unpack f32 v]) else (v, 0)
    vs.foldl (fun (a : Nat × Flags) w => let (r, fl) := fMinMax f32 takeMax a.1 w; (r, a.2 ||| fl)) first

def sumS32 (p : W64) (x : V2048) : Nat := sumTo (fun i => if pbit p i then (lane x i).toNat else 0) 64 % 2 ^ 32

/-- A reduction: one result written to every active lane; with no active lane nothing changes (R151). -/
def vred (f : W64 → V2048 → Nat × Flags) (d a : BitVec 5) (p : BitVec 3) (s : State) : Out :=
  gate 0 [.v a.toNat, .p p.toNat] [.v d.toNat] s fun s =>
    let old := s.oldV d.toNat
    let (x, s) := s.readV a.toNat
    let act := s.me.getP p.toNat
    let (r, fl) := f act x
    .next (s.fix 6 (.v d.toNat (lanes act old fun _ => BitVec.ofNat 32 r)) (if act = 0 then 0 else fl) true)

def execVrsumF32 (d a : BitVec 5) (p : BitVec 3) (s : State) : Out := vred sumF32 d a p s
def execVrmaxF32 (d a : BitVec 5) (p : BitVec 3) (s : State) : Out := vred (minMaxF32 true) d a p s
def execVrminF32 (d a : BitVec 5) (p : BitVec 3) (s : State) : Out := vred (minMaxF32 false) d a p s
def execVrsumS32 (d a : BitVec 5) (p : BitVec 3) (s : State) : Out := vred (fun p x => (sumS32 p x, 0)) d a p s

/-- The running values of a scan from lane i on, the value so far in acc (R49, R50). -/
def scanFrom (f : Nat → Nat → Nat × Flags) (acc : Nat) : List Nat → List Nat × Flags
  | [] => ([], 0)
  | x :: xs =>
    let (r, fl) := f acc x
    let (rs, fs) := scanFrom f r xs
    (r :: rs, fl ||| fs)

/-- A scan: active lane i receives the value after step i; inactive lanes contribute zero (R152). -/
def vscan (f : Nat → Nat → Nat × Flags) (idn : Nat) (d a : BitVec 5) (p : BitVec 3) (s : State) : Out :=
  gate 0 [.v a.toNat, .p p.toNat] [.v d.toNat] s fun s =>
    let old := s.oldV d.toNat
    let (x, s) := s.readV a.toNat
    let act := s.me.getP p.toNat
    let (rs, fl) := scanFrom f idn (tab (fun i => if pbit act i then (lane x i).toNat else idn) 64)
    .next (s.fix 6 (.v d.toNat (lanes act old fun i => BitVec.ofNat 32 (rs.getD i 0))) fl true)

def execVscanF32 (d a : BitVec 5) (p : BitVec 3) (s : State) : Out := vscan (fAdd f32 .rne) negZero d a p s
def execVscanS32 (d a : BitVec 5) (p : BitVec 3) (s : State) : Out := vscan (fun x y => ((x + y) % 2 ^ 32, 0)) 0 d a p s

/-- The order of f32 words that are no NaN, −0 below +0 (R153). -/
def orderKey (x : Nat) : Int := if bit x 31 then -((x % 2 ^ 31 : Nat) : Int) - 1 else (x % 2 ^ 31 : Nat)

/-- Insertion of a candidate lane into a list in descending order, after those that equal it. -/
def insertDesc (x : Nat × Nat) : List (Nat × Nat) → List (Nat × Nat)
  | [] => [x]
  | y :: ys => if orderKey x.1 ≤ orderKey y.1 then y :: insertDesc x ys else x :: y :: ys

/-- The candidate lanes of R153 in order: value and lane index. -/
def topOrder (p : W64) (x : V2048) : List (Nat × Nat) :=
  (((List.range 64).filter fun i => pbit p i && !(unpack f32 (lane x i).toNat).isNan).map
    fun i => ((lane x i).toNat, i)).foldl (fun l c => insertDesc c l) []

/-- NV where an active lane holds a signalling NaN (R153, R154). -/
def snanFlag (p : W64) (x : V2048) : Flags :=
  if (List.range 64).any fun i => pbit p i && (unpack f32 (lane x i).toNat).isSnan then Flags.nv else 0

/-- R153: vtopk. Lanes 0 to k − 1 and 8 to 8 + k − 1 are written whatever P holds. -/
def execVtopk (d a k : BitVec 5) (p : BitVec 3) (s : State) : Out :=
  gate 0 [.v d.toNat, .v a.toNat, .p p.toNat] [.v d.toNat] s fun s =>
    let old := s.oldV d.toNat
    let (x, s) := s.readV a.toNat
    let act := s.me.getP p.toNat
    let l := topOrder act x
    let f (i : Nat) : W32 :=
      if i < k.toNat then (match l[i]? with
        | some c => BitVec.ofNat 32 c.1
        | none => 0xFF800000#32)
      else if 8 ≤ i ∧ i < 8 + k.toNat then (match l[i - 8]? with
        | some c => BitVec.ofNat 32 c.2
        | none => 0xFFFFFFFF#32)
      else lane old i
    .next (s.fix 8 (.v d.toNat (vecOf f)) (snanFlag act x) true)

/-- R154: vargmax. -/
def execVargmax (d a : BitVec 5) (p : BitVec 3) (s : State) : Out :=
  gate 0 [.v a.toNat, .p p.toNat] [.v d.toNat] s fun s =>
    let old := s.oldV d.toNat
    let (x, s) := s.readV a.toNat
    let act := s.me.getP p.toNat
    let (v, i) : W32 × W32 := match (topOrder act x).head? with
      | some c => (BitVec.ofNat 32 c.1, BitVec.ofNat 32 c.2)
      | none => (0x7FC00000#32, 0xFFFFFFFF#32)
    .next (s.fix 6 (.v d.toNat (vecOf fun j => if j = 0 then v else if j = 1 then i else lane old j)) (snanFlag act x) true)

/-! ## 0x24: VPERM (R155) -/

/-- Active lane i of vd receives f va vb i. -/
def vperm2 (f : V2048 → V2048 → Nat → W32) (d a b : BitVec 5) (p : BitVec 3) (s : State) : Out :=
  gate 0 [.v a.toNat, .v b.toNat, .p p.toNat] [.v d.toNat] s fun s =>
    let old := s.oldV d.toNat
    let (x, s) := s.readV a.toNat
    let (y, s) := s.readV b.toNat
    .next (s.fix 3 (.v d.toNat (lanes (s.me.getP p.toNat) old (f x y))))

/-- A lane index: bits [5:0] (R155). -/
def laneIx (x : W32) : Nat := x.toNat % 64
def execVbcast (d a b : BitVec 5) (p : BitVec 3) (s : State) : Out := vperm2 (fun x y _ => lane x (laneIx (lane y 0))) d a b p s
def execVperm (d a b : BitVec 5) (p : BitVec 3) (s : State) : Out := vperm2 (fun x y i => lane x (laneIx (lane y i))) d a b p s
def execVrot (d a b : BitVec 5) (p : BitVec 3) (s : State) : Out :=
  vperm2 (fun x y i => lane x ((i + laneIx (lane y 0)) % 64)) d a b p s
def execVslide (d a b : BitVec 5) (p : BitVec 3) (s : State) : Out :=
  vperm2 (fun x y i => if i ≤ 62 then lane x (i + 1) else lane y 0) d a b p s
def execVzip (d a b : BitVec 5) (p : BitVec 3) (s : State) : Out :=
  vperm2 (fun x y i => if i % 2 = 0 then lane x (i / 2) else lane y (i / 2)) d a b p s
def execVunzip (d a b : BitVec 5) (p : BitVec 3) (s : State) : Out :=
  vperm2 (fun x y i => if i ≤ 31 then lane x (2 * i) else lane y (2 * i - 64)) d a b p s

/-- The selected lane numbers of a predicate, in rising order. -/
def selected (p : W64) : List Nat := (List.range 64).filter (pbit p)

/-- R155: vcompress. Lanes from the number of selected lanes on keep their values. -/
def execVcompress (d a : BitVec 5) (p : BitVec 3) (s : State) : Out :=
  gate 0 [.v a.toNat, .p p.toNat] [.v d.toNat] s fun s =>
    let old := s.oldV d.toNat
    let (x, s) := s.readV a.toNat
    let sel := selected (s.me.getP p.toNat)
    .next (s.fix 3 (.v d.toNat (vecOf fun j => match sel[j]? with
      | some i => lane x i
      | none => lane old j)))

/-- R155: vexpand. Lanes not selected keep their values. -/
def execVexpand (d a : BitVec 5) (p : BitVec 3) (s : State) : Out :=
  gate 0 [.v a.toNat, .p p.toNat] [.v d.toNat] s fun s =>
    let old := s.oldV d.toNat
    let (x, s) := s.readV a.toNat
    let act := s.me.getP p.toNat
    .next (s.fix 3 (.v d.toNat (lanes act old fun i => lane x (popc act.toNat i))))

/-! ## 0x26: VKB (R157, R158) -/

/-- Block b of a vector as exact values. -/
def blockVals (x : V2048) (b : Nat) : List FVal := tab (fun i => unpack f32 (lane x (32 * b + i)).toNat) 32

/-- R157: vkbpack. -/
def execVkbpack (d a n : BitVec 5) (s : State) : Out :=
  gate 0 [.v a.toNat] [.v d.toNat] s fun s =>
    let (x, s) := s.readV a.toNat
    let k := n.toNat
    let b0 := kbPack k (blockVals x 0)
    let b1 := kbPack k (blockVals x 1)
    let v := pack k b0.mant + pack k b1.mant * 2 ^ (32 * k) + b0.scale * 2 ^ (32 * 62) + b1.scale * 2 ^ (32 * 63)
    .next (s.fix 6 (.v d.toNat (BitVec.ofNat 2048 v)) (b0.fl ||| b1.fl) true)

/-- The element of a packed vector that stands for lane i, unpacked (R157, R158). -/
def unpackLane (n : Nat) (x : V2048) (i : Nat) : Nat × Flags :=
  kbUnpack n (bits x.toNat (32 * (62 + i / 32)) 24) (bits x.toNat (32 * n * (i / 32) + n * (i % 32)) n)

/-- R158: vkbunpack. -/
def execVkbunpack (d a n : BitVec 5) (s : State) : Out :=
  gate 0 [.v a.toNat] [.v d.toNat] s fun s =>
    let (x, s) := s.readV a.toNat
    let all := BitVec.allOnes 64
    s.landV 3 d.toNat all 0 fun i => l32 (unpackLane n.toNat x i)

/-- R158: vkbscale. Only NV may be set. -/
def execVkbscale (d a n : BitVec 5) (s : State) : Out :=
  gate 0 [.v a.toNat] [.v d.toNat] s fun s =>
    let (x, s) := s.readV a.toNat
    let b0 := kbPack n.toNat (blockVals x 0)
    let b1 := kbPack n.toNat (blockVals x 1)
    let v (b : KbBlock) : W32 := BitVec.ofNat 32 (roundVal f32 .rne (kbScaleVal b.scale)).1
    .next (s.fix 6 (.v d.toNat (vecOf fun i => if i < 32 then v b0 else v b1)) ((b0.fl ||| b1.fl) &&& Flags.nv) true)

/-! ## 0x27: VXFER (R159) -/

def execVmov (d a : BitVec 5) (p : BitVec 3) (s : State) : Out := vuna 2 plain d a p s
/-- R159: vfill, from the low half of s0 to s31. -/
def execVfill (d a : BitVec 5) (p : BitVec 3) (s : State) : Out :=
  gate 0 [.x a.toNat, .p p.toNat] [.v d.toNat] s fun s =>
    let x := (s.me.getX a.toNat).setWidth 32
    .next (s.fix 2 (.v d.toNat (lanes (s.me.getP p.toNat) (s.oldV d.toNat) fun _ => x)))
/-- R159: vins, into the lane that sb names, if it is active. -/
def execVins (d a b : BitVec 5) (p : BitVec 3) (s : State) : Out :=
  gate 0 [.v d.toNat, .x a.toNat, .x b.toNat, .p p.toNat] [.v d.toNat] s fun s =>
    let old := s.oldV d.toNat
    let j := (s.me.getX b.toNat).toNat % 64
    let x := (s.me.getX a.toNat).setWidth 32
    let act := s.me.getP p.toNat
    .next (s.fix 2 (.v d.toNat (vecOf fun i => if i = j ∧ pbit act i then x else lane old i)))
/-- R159: vext. -/
def execVext (d a b : BitVec 5) (s : State) : Out :=
  gate 0 [.v a.toNat, .x b.toNat] [.x d.toNat] s fun s =>
    let (x, s) := s.readV a.toNat
    .next (s.fix 3 (.x d.toNat ((lane x ((s.me.getX b.toNat).toNat % 64)).setWidth 64)))

/-- A slot that goes on once a further check has passed. -/
def andThen (c : Option Stop) (s : State) (k : State → Out) : Out :=
  match c with
  | some (.trap t) => s.trapNow t
  | some (.hold h) => s.hold h
  | none => k s

/-- R159: vqpk. Nothing is popped. -/
def execVqpk (d : BitVec 5) (q : BitVec 2) (p : BitVec 3) (s : State) : Out :=
  gate 0 [.p p.toNat] [.v d.toNat] s (peek := some (.v (28 + q.toNat))) fun s =>
    let x := (s.me.getVQ q.toNat).ents.headD 0
    .next (s.fix 2 (.v d.toNat (lanes (s.me.getP p.toNat) (s.oldV d.toNat) fun i => lane x i)))
/-- R159: vqcnt. Beside pops of the register in its bundle, it counts what the lower slots have left (DEDUCED, log 59). -/
def execVqcnt (d : BitVec 5) (q : BitVec 2) (s : State) : Out :=
  gate 0 [] [.x d.toNat] s fun s => .next (s.fix 2 (.x d.toNat (BitVec.ofNat 64 (s.me.present (.v (28 + q.toNat))))))

/-- The clear of a queue register: QOVER with REASON 2 where it is bound (R159, R168). -/
def clearStop (s : State) (r : Reg) : Option Stop :=
  if s.me.isBound r then some (.trap { cause := 0x09, reason := 2, detail := r.qDetail }) else none

/-- R159: vqclr. It empties the register before the slots after it pop (DEDUCED, log 59). -/
def execVqclr (q : BitVec 2) (s : State) : Out :=
  gate 0 [] [] s fun s =>
    andThen (clearStop s (.v (28 + q.toNat))) s fun s =>
      let c := s.me
      .next (s.setMe ({ c with vqs := mset c.vqs q.toNat { c.getVQ q.toNat with ents := [] } }.markDirty (92 + q.toNat)))
/-- R159: vlaneid. -/
def execVlaneid (d : BitVec 5) (p : BitVec 3) (s : State) : Out :=
  gate 0 [.p p.toNat] [.v d.toNat] s fun s =>
    .next (s.fix 2 (.v d.toNat (lanes (s.me.getP p.toNat) (s.oldV d.toNat) fun i => BitVec.ofNat 32 i)))

/-! ## 0x2B: QOPS (R168, R169) -/

/-- R168: qpk. -/
def execQpk (d : BitVec 6) (q : BitVec 4) (s : State) : Out :=
  gate 0 [] [.x d.toNat] s (peek := some (.x (48 + q.toNat))) fun s =>
    .next (s.fix 1 (.x d.toNat ((s.me.getQ q.toNat).ents.headD 0)))
/-- R168: qcnt. -/
def execQcnt (d : BitVec 6) (q : BitVec 4) (s : State) : Out :=
  gate 0 [] [.x d.toNat] s fun s => .next (s.fix 1 (.x d.toNat (BitVec.ofNat 64 (s.me.present (.x (48 + q.toNat))))))
/-- R168: qclr. -/
def execQclr (q : BitVec 4) (s : State) : Out :=
  gate 0 [] [] s fun s =>
    andThen (clearStop s (.x (48 + q.toNat))) s fun s =>
      let c := s.me
      .next (s.setMe ({ c with qs := mset c.qs q.toNat { c.getQ q.toNat with ents := [] } }.markDirty (48 + q.toNat)))

/-- Every row of a dispatch placed at a rank has been applied or rejected (R220). -/
def State.rowsSettled (s : State) (d : DispatchRec) (rank : Nat) : Bool :=
  decide (d.ops.length = d.count) &&
    d.ops.all fun e => !(s.cl (e.2.ctx / 4)).accs.any fun a => decide (a.op = e.2) && a.rank == rank

/-- A word put before the first entry that comes after it by region, then slot (R220). -/
def insertEntry (w : W64) : List W64 → List W64
  | [] => [w]
  | x :: xs => if fld w 0 28 ≤ fld x 0 28 then w :: x :: xs else x :: insertEntry w xs

/-- The open delivery stream sid of context g: its dispatch, the member's rank and the entries still to come (R220). It counts as open once
every row of the dispatch for the member has been settled and one was applied; before, the spec does not say whether qbind finds it
(DESIGN CHOICE, log 96). -/
def State.streamOf (s : State) (g sid : Nat) : Option (DispatchRec × Nat × List W64) :=
  s.dispatches.findSome? fun d =>
    if d.id ≠ sid then none
    else (d.streams.find? fun e => e.2 == g).bind fun e =>
      let ws := (d.entries.filter fun x => x.1 == e.1).map (·.2)
      if s.rowsSettled d e.1 && !ws.isEmpty then some (d, e.1, ws.foldl (fun l w => insertEntry w l) []) else none

/-- The stream is open (R169, R220). -/
def State.streamOpen (s : State) (g sid : Nat) : Bool := (s.streamOf g sid).isSome

/-- The binding of a scalar queue register changed. -/
def State.setBound (s : State) (g q : Nat) (b : Option Stream) : State :=
  let c := s.ctx g
  s.setCtx g { c with qs := mset c.qs q { c.getQ q with bound := b } }

/-- R169: qbind. B[11:0] numbers a delivery stream addressed to the context; the first failing test in the order
NOSTREAM, TAKEN, BOUND, NOTEMPTY is the status. -/
def execQbind (d : BitVec 6) (q : BitVec 4) (b : BitVec 6) (s : State) : Out :=
  gate 0 [.x b.toNat] [.x d.toNat] s fun s =>
    let (y, s) := s.readX b.toNat
    let sid := fld y 0 12
    let c := s.me
    let taken := c.qs.any fun e => e.1 != q.toNat && decide (e.2.bound = some (.delivery sid))
    let st :=
      if !s.streamOpen s.cur sid then 1
      else if taken then 2
      else if (c.getQ q.toNat).bound.isSome then 4
      else if (c.getQ q.toNat).ents ≠ [] ∨ c.pushes (.x (48 + q.toNat)) ≠ 0 then 3
      else 0
    let s := if st = 0 then s.setBound s.cur q.toNat (some (.delivery sid)) else s
    .next (s.fix 1 (.x d.toNat (BitVec.ofNat 64 st)))
/-- R169: qunbind. Entries present stay as unbound entries. -/
def execQunbind (d : BitVec 6) (q : BitVec 4) (s : State) : Out :=
  gate 0 [] [.x d.toNat] s fun s =>
    let was := (s.me.getQ q.toNat).bound.isSome
    let s := if was then s.setBound s.cur q.toNat none else s
    .next (s.fix 1 (.x d.toNat (if was then 0 else 1)))

end Sys2Proof.Machine
end

