-- ==== Sys2Proof/Machine/VecMem.lean ====
section
/-! DEFINITION. Vector loads, stores, gathers and scatters: majors 0x28 to 0x2A (R160 to R167). -/
namespace Sys2Proof.Machine

/-! ## Rings as the vector unit sees them (R163, R192) -/

/-- The active ring of number r. -/
def Ctx.ring (c : Ctx) (r : Nat) : Option Ring := (c.rings.find? fun e => e.1 == r).map (·.2)

/-- The local-store address of absolute row a of a ring (R192). -/
def Ring.rowAt (g : Ring) (a : Nat) : Nat := (g.lsb + a % g.depth * g.len) * 256

/-- Absolute row a has landed; the rows of an OUT ring are there from the start (R163, R193). -/
def Ring.hasLanded (g : Ring) (a : Nat) : Bool := g.mode == 1 || decide (a < g.landed) || g.extra.contains a

/-! ## Addresses and checks (R160, R161) -/

/-- ALIGN, then LSBOUND, over the elements of one access in order (R161). -/
def State.vecCheck (s : State) (unit : Nat) (badStride : Bool) (vas : List W64) : Option Trap :=
  let al := if badStride then vas.head? else vas.find? fun va => decide (va.toNat % unit ≠ 0)
  match al with
  | some va => some (alignTrap va unit)
  | none => (vas.find? fun va => !s.myCl.lsOk va.toNat unit).map lsboundTrap

/-- The active lanes of a predicate. -/
def activeLanes (p : W64) : List Nat := (List.range 64).filter (pbit p)

/-- What an F-VM access in mode m addresses: its lanes, the address of lane i, and whether a mode-1 stride is not a
multiple of 4; or why it stops (R160, R163). -/
structure VAcc where
  lanes : List Nat
  at_ : Nat → W64
  badStride : Bool := false
  wait : Bool := false
  /-- The base register's next value with PI = 1. -/
  base' : W64

/-- The access that a mode-3 form makes (R163). Of a vst that fails tests 6 and 5 of RECORD, R163 does not say which is reported: 6 is
(DESIGN CHOICE, log 77). -/
def State.ringAcc (s : State) (store : Bool) (r : Nat) (u : BitVec 1) (act : List Nat) (off : Int) : Except Trap VAcc :=
  let a := s.areg r
  let row := ((if u = 1#1 then (fld a 0 16 : Int) else fld a 0 16 + off) % 2 ^ 16).toNat
  match s.me.ring (fld a 24 4) with
  | none => .error (recTrap 1 0xFFFF)
  | some g =>
    if g.depth ≤ row ∨ g.len ≤ fld a 16 8 then .error (recTrap 6 g.handle)
    else if store && !recRight g.tr rW then .error (recTrap 5 g.handle)
    else
      let b := g.rowAt (g.first + row) + fld a 16 8 * 256
      .ok {
        lanes := act, at_ := fun i => BitVec.ofNat 64 (b + 4 * i)
        wait := !store && !g.hasLanded (g.first + row)
        base' := BitVec.ofNat 64 (a.toNat / 2 ^ 16 * 2 ^ 16 + ((fld a 0 16 + off) % 2 ^ 16).toNat) }

/-- The access of an F-VM form in modes 0 to 3. A vst.bcst whose lane 0 is inactive accesses nothing, and the address of the other lanes is
not checked: R160 accesses lane 0 only, R161 checks active lanes (DESIGN CHOICE, log 97). -/
def State.vAcc (s : State) (store : Bool) (r : BitVec 4) (u : BitVec 1) (p : W64) (m : BitVec 2) (off : Int) : Except Trap VAcc :=
  let act := activeLanes p
  let a := s.areg r.toNat
  let scale : Int := if m = 0 then 256 else 4
  let next := a + wrap 64 (off * scale)
  let b := if u = 1#1 then a else next
  match m.toNat with
  | 0 => .ok { lanes := act, at_ := fun i => b + BitVec.ofNat 64 (4 * i), base' := next }
  | 1 =>
    let st := s.areg ((r.toNat + 1) % 16)
    .ok { lanes := act, at_ := fun i => b + BitVec.ofNat 64 (i * st.toNat), badStride := decide (st.toNat % 4 ≠ 0), base' := next }
  | 2 => .ok { lanes := if store then act.filter (· == 0) else act, at_ := fun _ => b, base' := next }
  | _ => s.ringAcc store r.toNat u act off

/-- The base register stepped (R160). -/
def State.vBump (s : State) (u : BitVec 1) (r : BitVec 4) (v : W64) : State :=
  if u = 1#1 then s.fix 1 (.x (32 + r.toNat) v) else s

/-- The sources of an F-VM form that name its address. -/
def vmSrcs (r : BitVec 4) (m : BitVec 2) (p : BitVec 3) : List Reg :=
  [.x (32 + r.toNat)] ++ (if m = 1#2 then [.x (32 + (r.toNat + 1) % 16)] else []) ++ [.p p.toNat]

/-- One local-store access of the bundle for each of a list, in its order. -/
def State.postAll (s : State) (rs : List MemReq) : State := rs.foldl State.post s

/-- The local-store accesses of one vector instruction, one for each element: its address, operation and operand. They make up the
result id, and each has its place in the order of elements; reason is that of a MEMERR (R161 to R167). -/
def elemReqs (cl id reason : Nat) (es : List (W64 × MemOp × W64)) : List MemReq :=
  es.mapIdx fun k e => { pa := lsAt cl e.1.toNat, va := e.1, op := e.2.1, arg := e.2.2, id := id, ord := k, reason := reason }

/-- A vector read of the local store into v, over what its inactive lanes hold (R91, R160, R165). -/
def State.vecRead (s : State) (v reason : Nat) (es : List (W64 × MemOp × W64)) : State :=
  let id := s.nextInter
  (s.interAcc [.v v] (s.oldV v) es.length).postAll (elemReqs s.clNo id reason es)

/-- A vector write to the local store: it has no result. -/
def State.vecWrite (s : State) (es : List (W64 × MemOp × W64)) : State := s.postAll (elemReqs s.clNo 0 0 es)

/-- R160 to R163: vld. The data land as one interlocked write. With mode 2 one read serves every active lane. -/
def execVld (v : BitVec 5) (r : BitVec 4) (u : BitVec 1) (p : BitVec 3) (m : BitVec 2) (o : BitVec 6) (s : State) : Out :=
  gate 0 (vmSrcs r m p) ([.v v.toNat] ++ bumpDst u r.toNat) s fun s =>
    let act := s.me.getP p.toNat
    match s.vAcc false r u act m (s.imm o) with
    | .error t => s.trapNow t
    | .ok a =>
      let vas := a.lanes.map a.at_
      match s.vecCheck 4 a.badStride vas with
      | some t => s.trapNow t
      | none =>
        if a.wait then s.hold .block
        else
          let es := if m = 2#2 then (vas.head?.map fun va => (va, MemOp.bcst, act)).toList
            else a.lanes.map fun i => (a.at_ i, .lane 4 (32 * i), 0)
          .next ((s.vecRead v.toNat 2 es).vBump u r a.base')

/-- R160 to R163: vst. -/
def execVst (v : BitVec 5) (r : BitVec 4) (u : BitVec 1) (p : BitVec 3) (m : BitVec 2) (o : BitVec 6) (s : State) : Out :=
  gate 0 ([.v v.toNat] ++ vmSrcs r m p) (bumpDst u r.toNat) s fun s =>
    let (x, s) := s.readV v.toNat
    match s.vAcc true r u (s.me.getP p.toNat) m (s.imm o) with
    | .error t => s.trapNow t
    | .ok a =>
      match s.vecCheck 4 a.badStride (a.lanes.map a.at_) with
      | some t => s.trapNow t
      | none => .next ((s.vecWrite (a.lanes.map fun i => (a.at_ i, .store 4, (lane x i).setWidth 64))).vBump u r a.base')

/-! ## Gathers and scatters (R165 to R167) -/

/-- The elements of a gather or scatter in lane order: lane, half, and address. -/
def elems (half : Bool) (base : W64) (ix : V2048) (p : W64) : List (Nat × Nat × W64) :=
  (activeLanes p).flatMap fun i =>
    let w := lane ix i
    if half then [(i, 0, base + BitVec.ofNat 64 (2 * (w.toNat % 2 ^ 16))), (i, 1, base + BitVec.ofNat 64 (2 * (w.toNat / 2 ^ 16)))]
    else [(i, 0, base + wrap 64 (4 * w.toInt))]

/-- A gather of 32-bit or 16-bit elements. -/
def gather (half : Bool) (d : BitVec 5) (a : BitVec 4) (b : BitVec 5) (p : BitVec 3) (s : State) : Out :=
  gate 0 [.x (32 + a.toNat), .v b.toNat, .p p.toNat] [.v d.toNat] s fun s =>
    let (ix, s) := s.readV b.toNat
    let act := s.me.getP p.toNat
    let es := elems half (s.areg a.toNat) ix act
    let vas := es.map (·.2.2)
    let n := if half then 2 else 4
    match s.vecCheck n false vas with
    | some t => s.trapNow t
    | none => .next (s.vecRead d.toNat 3 (es.map fun e => (e.2.2, .lane n (32 * e.1 + 16 * e.2.1), 0)))

/-- A scatter: elements stored in lane order, so the last to one address remains (R166). -/
def scatter (half : Bool) (d : BitVec 5) (a : BitVec 4) (b : BitVec 5) (p : BitVec 3) (s : State) : Out :=
  gate 0 [.v d.toNat, .x (32 + a.toNat), .v b.toNat, .p p.toNat] [] s fun s =>
    let (x, s) := s.readV d.toNat
    let (ix, s) := s.readV b.toNat
    let es := elems half (s.areg a.toNat) ix (s.me.getP p.toNat)
    let n := if half then 2 else 4
    match s.vecCheck n false (es.map (·.2.2)) with
    | some t => s.trapNow t
    | none => .next (s.vecWrite (es.map fun e => (e.2.2, .store n, (lane x e.1).setWidth 64 >>> (16 * e.2.1))))

/-- vsctadd: its elements make up one result without a register, so that a failure is reported once (R166, R167). -/
def scatterAdd (float : Bool) (d : BitVec 5) (a : BitVec 4) (b : BitVec 5) (p : BitVec 3) (s : State) : Out :=
  gate 0 [.v d.toNat, .x (32 + a.toNat), .v b.toNat, .p p.toNat] [] s fun s =>
    let (x, s) := s.readV d.toNat
    let (ix, s) := s.readV b.toNat
    let es := elems false (s.areg a.toNat) ix (s.me.getP p.toNat)
    match s.vecCheck 4 false (es.map (·.2.2)) with
    | some t => s.trapNow t
    | none =>
      let id := s.nextInter
      .next ((s.interAcc [] 0 es.length).postAll
        (elemReqs s.clNo id 4 (es.map fun e => (e.2.2, .addEl float, (lane x e.1).setWidth 64))))

def execVgth32 (d : BitVec 5) (a : BitVec 4) (b : BitVec 5) (p : BitVec 3) (s : State) : Out := gather false d a b p s
def execVsct32 (d : BitVec 5) (a : BitVec 4) (b : BitVec 5) (p : BitVec 3) (s : State) : Out := scatter false d a b p s
def execVgth16 (d : BitVec 5) (a : BitVec 4) (b : BitVec 5) (p : BitVec 3) (s : State) : Out := gather true d a b p s
def execVsct16 (d : BitVec 5) (a : BitVec 4) (b : BitVec 5) (p : BitVec 3) (s : State) : Out := scatter true d a b p s
def execVsctaddF32 (d : BitVec 5) (a : BitVec 4) (b : BitVec 5) (p : BitVec 3) (s : State) : Out :=
  scatterAdd true d a b p s
def execVsctaddS32 (d : BitVec 5) (a : BitVec 4) (b : BitVec 5) (p : BitVec 3) (s : State) : Out :=
  scatterAdd false d a b p s

end Sys2Proof.Machine
end

