-- ==== Sys2Proof/Machine/Matrix.lean ====
section
/-! DEFINITION. The matrix engines and the operand store: majors 0x2C to 0x2F but ofill's rows, and the steps of the engines and of the
loader (R56 to R58, R96, R170 to R187). -/
namespace Sys2Proof.Machine

/-! ## Ownership (R18, R179) -/

/-- The file of owners of a kind: 0 operand slots, 1 accumulators, 2 engine configurations. -/
def Cluster.owners (c : Cluster) : Nat → Map Nat
  | 0 => c.obOwn
  | 1 => c.accOwn
  | _ => c.mfmtOwn

def Cluster.setOwners (c : Cluster) (k : Nat) (m : Map Nat) : Cluster :=
  match k with
  | 0 => { c with obOwn := m }
  | 1 => { c with accOwn := m }
  | _ => { c with mfmtOwn := m }

/-- The owner of resource i of a kind, as 1 + the context's index; 0 for none. -/
def Cluster.ownerOf (c : Cluster) (k i : Nat) : Nat := mget 0 (c.owners k) i

/-- The issuing context holds resource i of a kind. -/
def State.holds (s : State) (k i : Nat) : Bool := s.myCl.ownerOf k i == s.cur % 4 + 1

/-- OPSLOT with its reason (Table 21). -/
def opslotTrap (reason ix : Nat) : Trap := { cause := 0x15, reason := reason, detail := ix }

/-- OPSLOT where an accumulator is not held. -/
def State.needAcc (s : State) (k : Nat) : Option Stop :=
  if s.holds 1 k then none else some (.trap (opslotTrap 1 k))

/-- OPSLOT where an operand slot is not held. -/
def State.needSlot (s : State) (k : Nat) : Option Stop :=
  if s.holds 0 k then none else some (.trap (opslotTrap 2 k))

/-- The last index of a kind (R179). -/
def kindLast : Nat → Nat
  | 0 => 31
  | 1 => 7
  | _ => 1

/-- The range a descriptor names, or none where it is no range (R179). -/
def claimRange (y : W64) : Option (Nat × List Nat) :=
  let k := fld y 8 2
  let lo := fld y 0 5
  let n := fld y 16 5 + 1
  if k = 3 ∨ kindLast k < lo + n - 1 then none else some (k, List.range' lo n)

/-- R179: oclaim. -/
def execOclaim (x y : BitVec 6) (s : State) : Out :=
  gate 0 [.x y.toNat] [.x x.toNat] s fun s =>
    let (d, s) := s.readX y.toNat
    match claimRange d with
    | none => .next (s.fix 1 (.x x.toNat 2))
    | some (k, is) =>
      let c := s.myCl
      let me := s.cur % 4 + 1
      if is.any fun i => c.ownerOf k i != 0 && c.ownerOf k i != me then .next (s.fix 1 (.x x.toNat 1))
      else .next ((s.setMyCl (c.setOwners k (is.foldl (fun m i => mset m i me) (c.owners k)))).fix 1 (.x x.toNat 0))

/-- R179: orelease. -/
def execOrelease (x y : BitVec 6) (s : State) : Out :=
  gate 0 [.x y.toNat] [.x x.toNat] s fun s =>
    let (d, s) := s.readX y.toNat
    match claimRange d with
    | none => .next (s.fix 1 (.x x.toNat 2))
    | some (k, is) =>
      let c := s.myCl
      let mine := is.filter (s.holds k)
      .next ((s.setMyCl (c.setOwners k (mine.foldl (fun m i => mset m i 0) (c.owners k)))).fix 1
        (.x x.toNat (if mine.length = is.length then 0 else 3)))

/-! ## Engines by number -/

def Cluster.engine (c : Cluster) (e : Nat) : Engine := mget {} c.engines e
def Cluster.setEngine (c : Cluster) (e : Nat) (x : Engine) : Cluster := { c with engines := mset c.engines e x }
def State.setEngine (s : State) (cl e : Nat) (x : Engine) : State := s.setCl cl ((s.cl cl).setEngine e x)

/-- A stamp of cluster issue order (R170). -/
def State.takeStamp (s : State) (cl : Nat) : Nat × State :=
  let c := s.cl cl
  (c.stamp, s.setCl cl { c with stamp := c.stamp + 1 })

/-- The engine queue has no free entry (R170). -/
def State.queueFull (s : State) (e : Nat) : Option Stop :=
  if 8 ≤ (s.myCl.engine e).queue.length then some (.hold .block) else none

/-- A command entered in an engine's queue. -/
def State.enqueueEng (s : State) (e : Nat) (op : Op) (act : EngDo) : State :=
  let (st, s) := s.takeStamp s.clNo
  let x := s.myCl.engine e
  s.setEngine s.clNo e { x with queue := x.queue ++ [{ op := op, stamp := st, act := act, born := s.myCl.cycle }] }

/-- TLERR where taking n numbers would wrap (R16). -/
def State.tlRoom (s : State) (t n : Nat) : Option Stop :=
  if (s.tl s.cur t).wraps n then some (.trap (tlerrTrap t 2)) else none

/-- n numbers taken on timeline t, then k on the operation, unless an ERROR of the timeline cancels it at once (R17,
R177). -/
def State.withOp (s : State) (t n : Nat) (k : State → Op → State) : State :=
  let op := s.newOp t
  let s := s.takeNums s.cur t n
  if s.opDead op then s else k s op

/-- An operation of the issuing context that takes no number: interlocked reads and row writes. -/
def State.plainOp (s : State) : Op := { ctx := s.cur, tl := 8, num := 0, user := s.userOf s.cur, agent := s.agentOf s.cur }

/-! ## Accumulators (R18, R185, R186) -/

/-- The home of element (i, j) of accumulator k. -/
def accElem (cl k i j : Nat) : Nat := accAt cl (k * 16384 + (64 * i + j) * 4)

/-- Row i of an accumulator, lane j holding element (i, j). -/
def State.accRow (s : State) (cl k i : Nat) : V2048 := BitVec.ofNat 2048 (s.load (accElem cl k i 0) 256)

def State.setAccRow (s : State) (cl k i : Nat) (v : V2048) : State := s.store (accElem cl k i 0) 256 v.toNat

/-- The first byte of a list of ranges, each a home and a length, whose word fails (R284). -/
def State.firstBadOf (s : State) (rs : List (Nat × Nat)) : Option Nat :=
  if s.bad.isEmpty then none
  else (rs.find? fun r => s.badAt r.1 r.2).map fun r => max r.1 (s.firstBadWord r.1 r.2)

/-- The correctable errors of a list of ranges corrected (R283). -/
def State.correctAll (s : State) (cl : Nat) (rs : List (Nat × Nat)) : State :=
  if s.soft.isEmpty then s else rs.foldl (fun s r => s.correct cl r.1 r.2) s

/-- 256 bytes of a memory as a read that no timeline follows delivers them: the spec gives no value for the bytes of a word that
fails, and they are free; the error is logged (R284; log 63). -/
def State.takeBytes (s : State) (cl a : Nat) : V2048 × State :=
  let s := s.readAt cl a 256
  if !s.badAt a 256 then (BitVec.ofNat 2048 (s.load a 256), s)
  else
    let w (j : Nat) : Nat := if s.badAt (a + 8 * j) 8 then (Config.freeWord (s.free + j)).toNat else s.load (a + 8 * j) 8
    (BitVec.ofNat 2048 (pack 64 (tab w 32)), { s.logBad cl a 256 with free := s.free + 32 })

/-- A row of an accumulator as mrdv and mrdq take it. -/
def State.takeRow (s : State) (cl k i : Nat) : V2048 × State := s.takeBytes cl (accElem cl k i 0)

/-- The command captures a format pair: an mma that issued in the given cycle or later (R173). -/
def EngCmd.capture (q : EngCmd) (now na nb : Nat) : EngCmd := match q.act with
  | .mma ac mode _ _ reps rpt => if now ≤ q.born then { q with act := .mma ac mode na nb reps rpt } else q
  | _ => q

/-- A format pair set by a context of a cluster lands, in the cluster cycle in which its count reaches t + 1: an mma that another context has
issued in that cycle has the new pair too (R173). -/
def State.landFmt (s : State) (cl : Nat) (f : Nat × Nat × Nat × Nat) : State :=
  let c := s.cl cl
  let x := c.engine f.1
  s.setEngine cl f.1 { x with na := f.2.1, nb := f.2.2.1, queue := x.queue.map fun q => q.capture c.cycle f.2.1 f.2.2.1 }

/-- Every format pair that context g has set lands (R173). -/
def State.landFmts (s : State) (g : Nat) : State :=
  let c := s.ctx g
  if c.fmts.isEmpty then s else c.fmts.foldl (fun s f => s.landFmt (g / 4) f) (s.setCtx g { c with fmts := [] })

/-- R173, R183: mfmt, landing at t + 1. -/
def execMfmt (e : BitVec 1) (y : BitVec 6) (s : State) : Out :=
  gate 0 [.x y.toNat] [] s fun s =>
    let (v, s) := s.readX y.toNat
    andThen (if s.holds 2 e.toNat then none else some (.trap (opslotTrap 3 e.toNat))) s fun s =>
      let cap (n : Nat) : Nat := max 2 (min 8 n)
      .next { s with issue := { s.issue with late := s.issue.late ++ [.mfmt e.toNat (cap (fld v 4 4)) (cap (fld v 0 4))] } }

/-- R183: mstat, sampled at issue. -/
def execMstat (x : BitVec 6) (e : BitVec 1) (s : State) : Out :=
  gate 0 [] [.x x.toNat] s fun s =>
    let g := s.myCl.engine e.toNat
    let own := s.myCl.ownerOf 2 e.toNat
    let busy := match g.run with
      | some r => r.cur.isSome
      | none => false
    let v := g.queue.length + g.na * 2 ^ 4 + g.nb * 2 ^ 8 + bn busy * 2 ^ 18 +
      min 2 g.drains.length * 2 ^ 19 + (own - 1) * 2 ^ 21 + bn (own != 0) * 2 ^ 23
    .next (s.inter [.x x.toNat] (some [.x x.toNat (BitVec.ofNat 64 v)]))

/-- R185: mzero. -/
def execMzero (t k : BitVec 3) (s : State) : Out :=
  gate 0 [] [] s fun s =>
    andThen (s.needAcc k.toNat) s fun s =>
    andThen (s.tlRoom t.toNat 1) s fun s =>
    andThen (s.queueFull (k.toNat / 4)) s fun s =>
      .next (s.withOp t.toNat 1 fun s op => s.enqueueEng (k.toNat / 4) op (.mzero k.toNat))

/-- QOVER where a vector queue register cannot be bound: bound, or not empty (R185, R197). -/
def State.bindStop (s : State) (q : Nat) : Option Stop :=
  let r : Reg := .v (28 + q)
  if s.me.isBound r then some (.trap { cause := 0x09, reason := 2, detail := r.qDetail })
  else if s.me.present r ≠ 0 ∨ s.me.pushes r ≠ 0 then some (.trap { cause := 0x09, reason := 1, detail := r.qDetail })
  else none

/-- The binding of a vector queue register of context g. -/
def State.setVBound (s : State) (g q : Nat) (b : Option Stream) : State :=
  let c := s.ctx g
  s.setCtx g { c with vqs := mset c.vqs q { c.getVQ q with bound := b } }

/-- R185: mdrain. The register is bound from issue; its rows come once the copy is made (log 10). -/
def execMdrain (t : BitVec 3) (q : BitVec 2) (k : BitVec 3) (s : State) : Out :=
  gate 0 [] [] s fun s =>
    andThen (s.bindStop q.toNat) s fun s =>
    andThen (s.needAcc k.toNat) s fun s =>
    andThen (s.tlRoom t.toNat 1) s fun s =>
    andThen (s.queueFull (k.toNat / 4)) s fun s =>
      .next (s.withOp t.toNat 1 fun s op =>
        (s.setVBound s.cur q.toNat (some (.drain (k.toNat / 4)))).enqueueEng (k.toNat / 4) op (.mdrain k.toNat q.toNat))

/-- A row read, with or without zeroing (R186). -/
def rowRead (clear : Bool) (k : BitVec 3) (d : BitVec 5) (y : BitVec 6) (s : State) : Out :=
  gate 0 [.x y.toNat] [.v d.toNat] s fun s =>
    let (r, s) := s.readX y.toNat
    andThen (s.needAcc k.toNat) s fun s =>
    andThen (s.queueFull (k.toNat / 4)) s fun s =>
      let id := s.nextInter
      let s := s.inter [.v d.toNat] none
      .next (s.enqueueEng (k.toNat / 4) s.plainOp (.mrd k.toNat (fld r 0 6) id d.toNat clear))

/-- R186: mrdv. -/
def execMrdv (k : BitVec 3) (d : BitVec 5) (y : BitVec 6) (s : State) : Out := rowRead false k d y s
/-- R186: mrdq, which zeroes the row too. -/
def execMrdq (k : BitVec 3) (d : BitVec 5) (y : BitVec 6) (s : State) : Out := rowRead true k d y s

/-- R186: mwrv. -/
def execMwrv (k : BitVec 3) (a : BitVec 5) (y : BitVec 6) (s : State) : Out :=
  gate 0 [.v a.toNat, .x y.toNat] [] s fun s =>
    let (v, s) := s.readV a.toNat
    let (r, s) := s.readX y.toNat
    andThen (s.needAcc k.toNat) s fun s =>
    andThen (s.queueFull (k.toNat / 4)) s fun s =>
      .next (s.enqueueEng (k.toNat / 4) s.plainOp (.mwrv k.toNat (fld r 0 6) v))

/-! ## Tile words and records (R24, R181, R187) -/

def tHandle (y : W64) : Nat := fld y 0 16
def tO0 (y : W64) : Nat := fld y 16 16
def tO1 (y : W64) : Nat := fld y 32 16
def tI2 (y : W64) : Nat := fld y 48 8
def tI3 (y : W64) : Nat := fld y 56 8

/-- The record of a handle under R24, with further conditions at tests 3 and 6. -/
def State.useRec (s : State) (h : Nat) (rights : List Nat) (t3 t6 : List W64 → Bool) : Except Trap (List W64 × State) :=
  match s.fetchRec h with
  | .error t => .error t
  | .ok (r, s) =>
    if !recTest2 r then .error (recTrap 2 h)
    else if !recTest3 r || !t3 r then .error (recTrap 3 h)
    else if !recTest4 r then .error (recTrap 4 h)
    else if !rights.all (recRight r) then .error (recTrap 5 h)
    else if !t6 r then .error (recTrap 6 h)
    else .ok (r, s)

/-- Bytes [lo, hi) that the elements (a0 to b0 − 1, a1 to b1 − 1, i2, i3) of a record that is not KB-n touch. -/
def elemSpan (r : List W64) (a0 b0 a1 b1 i2 i3 : Nat) : Int × Int :=
  let p (i j : Nat) : Int := recAddr r i j i2 i3
  let l := [p a0 a1, p (b0 - 1) a1, p a0 (b1 - 1), p (b0 - 1) (b1 - 1)]
  (l.foldl min (p a0 a1), l.foldl max (p a0 a1) + fmtSize (recFmt r))

/-- Bytes of the mantissa and scale planes that blocks b0 to b1 − 1 of rows a1 to c1 − 1 touch. -/
def blkSpan (r : List W64) (b0 b1 a1 c1 i2 i3 : Nat) : (Int × Int) × (Int × Int) :=
  let k0 := recBlk r a1 i2 i3
  let k1 := recBlk r (c1 - 1) i2 i3
  let lo := min k0 k1 + b0
  let hi := max k0 k1 + b1
  let n : Int := 4 * recKbn r
  ((recBase r + n * lo, recBase r + n * hi), (recSbase r + 3 * lo, recSbase r + 3 * hi))

/-- LSBOUND of an LS record over the elements touched (R24). -/
def State.spanStop (s : State) (r : List W64) (a0 b0 a1 b1 i2 i3 : Nat) : Option Stop :=
  if recSpace r = 1 ∨ b0 ≤ a0 ∨ b1 ≤ a1 then none
  else
    let t := if isKb r then
        let (m, c) := blkSpan r (a0 / 32) ((b0 + 31) / 32) a1 b1 i2 i3
        (lsSpanTrap s.myCl m.1 m.2).or (lsSpanTrap s.myCl c.1 c.2)
      else
        let m := elemSpan r a0 b0 a1 b1 i2 i3
        lsSpanTrap s.myCl m.1 m.2
    t.map .trap

/-- Columns and rows of an accumulator store that lie within the record (R187). -/
def mstCols (r : List W64) (y : W64) : Nat := min 64 (recSize r 0 - tO0 y)
def mstRows (r : List W64) (y : W64) : Nat := min 64 (recSize r 1 - tO1 y)

/-- An accumulator store: its checks, and its command (R187). -/
def mst (kind : MstKind) (fmt : Nat) (t k : BitVec 3) (y : BitVec 6) (s : State) : Out :=
  engGate [.x y.toNat] [] s fun s =>
    let (v, s) := s.readX y.toNat
    andThen (s.needAcc k.toNat) s fun s =>
    let t6 (r : List W64) : Bool :=
      (fmt != 4 || tO0 v % 32 == 0) &&
      (mstCols r v == 0 || mstRows r v == 0 || (decide (tI2 v < recSize r 2) && decide (tI3 v < recSize r 3)))
    match s.useRec (tHandle v) [rW] (fun r => recFmt r == fmt) t6 with
    | .error tr => s.trapNow tr
    | .ok (r, s) =>
      andThen (s.tlRoom t.toNat 1) s fun s =>
      andThen (s.spanStop r (tO0 v) (tO0 v + mstCols r v) (tO1 v) (tO1 v + mstRows r v) (tI2 v) (tI3 v)) s fun s =>
      andThen (s.queueFull (k.toNat / 4)) s fun s =>
        .next (s.withOp t.toNat 1 fun s op => s.enqueueEng (k.toNat / 4) op (.mst kind k.toNat v r))

/-- R187: mst.f32. -/
def execMstF32 (t k : BitVec 3) (y : BitVec 6) (s : State) : Out := mst .f32 0 t k y s
/-- R187: mst.bf16. -/
def execMstBf16 (t k : BitVec 3) (y : BitVec 6) (s : State) : Out := mst .bf16 1 t k y s
/-- R187: mst.kb. -/
def execMstKb (t k : BitVec 3) (y : BitVec 6) (s : State) : Out := mst .kb 4 t k y s

/-! ## mma (R96, R184) -/

/-- The address registers of an mma repetition: ARX and ARY stepped, others as at issue (R96). -/
def State.repReg (s : State) (r : Nat) (j : Nat) : Nat :=
  match s.issue.rpt with
  | some (_, x, y, i1, i2) =>
    if r = x then ((s.areg r) + wrap 64 (j * i1)).toNat else if r = y then ((s.areg r) + wrap 64 (j * i2)).toNat else (s.areg r).toNat
  | none => (s.areg r).toNat

/-- The slots of every repetition of the bundle's mma. -/
def State.mmaReps (s : State) (a b : Nat) : List (Nat × Nat) :=
  let n := match s.issue.rpt with
    | some (n, _) => n
    | none => 1
  tab (fun j => (s.repReg a j % 32, s.repReg b j % 32)) n

/-- The command is an rpt mma of context g, with more than n repetitions to complete. -/
def EngCmd.moreReps (c : EngCmd) (g n : Nat) : Bool :=
  c.op.ctx == g && (match c.act with
    | .mma _ _ _ _ reps rpt => rpt && decide (n < reps.length)
    | _ => false)

/-- A later mma of the context waits until the engine has accepted the last repetition of an earlier one (R96). -/
def State.rptStall (s : State) (e : Nat) : Option Stop :=
  let x := s.myCl.engine e
  let waits := x.queue.any (·.moreReps s.cur 0) || (match x.run with
    | some r => r.cmd.moreReps s.cur (if r.cur.isSome then 1 else 0)
    | none => false)
  if waits then some (.hold .stall) else none

/-- R184: mma. -/
def execMma (t k : BitVec 3) (a b : BitVec 4) (m : BitVec 3) (s : State) : Out :=
  gate 0 [.x (32 + a.toNat), .x (32 + b.toNat)] [] s fun s =>
    let e := k.toNat / 4
    let reps := s.mmaReps a.toNat b.toNat
    andThen (s.needAcc k.toNat) s fun s =>
    andThen ((reps.flatMap fun r => [r.1, r.2]).findSome? s.needSlot) s fun s =>
    andThen (s.tlRoom t.toNat reps.length) s fun s =>
    andThen (s.rptStall e) s fun s =>
    andThen (s.queueFull e) s fun s =>
      let x := s.myCl.engine e
      .next (s.withOp t.toNat reps.length fun s op =>
        s.enqueueEng e op (.mma k.toNat m.toNat x.na x.nb reps s.issue.rpt.isSome))

/-- Mantissa k of block q of an operand slot read at width n (R53, R171). -/
def obMant (blk n k : Nat) : Int := sextNat (bits blk (n * k) n) n

/-- Term b of an output (R56): none where absent or zero, NaN where a scale is, else its sign, significand and exponent. -/
inductive MTerm where
  | zero
  | nan
  | val (m : Int) (e : Int)
  deriving DecidableEq, Repr

/-- One block term from its two mantissa blocks, scales and the unmasked elements (R56). -/
def mmaTerm (na nb ba bb sa sb : Nat) (ks : List Nat) : MTerm :=
  if ks.isEmpty then .zero
  else
    let ea := bits sa 16 8
    let eb := bits sb 16 8
    if ea = 255 ∨ eb = 255 then .nan
    else if ea = 0 ∨ eb = 0 then .zero
    else
      let p : Int := (ks.map fun k => obMant ba na k * obMant bb nb k).foldl (· + ·) 0
      if p = 0 then .zero
      else .val (p * ((65536 + bits sa 0 16) * (65536 + bits sb 0 16) : Nat)) ((ea : Int) + eb - 286)

/-- The sum of R57 within its 72-bit window: the exact sum of the truncated addends, its exponent, and whether a bit was
dropped. -/
def windowSum (xs : List (Int × Int)) : Int × Int × Bool :=
  let tops := xs.map fun x => x.2 + ((Nat.log2 x.1.natAbs : Nat) : Int)
  let l := tops.foldl max (tops.headD 0) - 71
  let cut (x : Int × Int) : Int × Bool :=
    let d := x.2 - l
    if 0 ≤ d then (x.1 * 2 ^ d.toNat, false)
    else
      let q := x.1.natAbs / 2 ^ (-d).toNat
      (if x.1 < 0 then -(q : Int) else q, q * 2 ^ (-d).toNat != x.1.natAbs)
  let ys := xs.map cut
  ((ys.map (·.1)).foldl (· + ·) 0, l, ys.any (·.2))

/-- The exact sum of addends m × 2^e is not zero, and tiny in f32 (R41). -/
def sumTiny (xs : List (Int × Int)) : Bool :=
  let l := (xs.map (·.2)).foldl min ((xs.map (·.2)).headD 0)
  let v : Int := (xs.map fun x => x.1 * 2 ^ (x.2 - l).toNat).foldl (· + ·) 0
  v != 0 && tinyFin f32 .rne (decide (v < 0)) v.natAbs l

/-- The result of R57 for one output from its terms and the accumulator's word (none in overwrite mode). UF is Table 9's: the exact
sum, not the truncated one, is tiny, and a truncation or the rounding made the result inexact. -/
def mmaOut (ts : List MTerm) (acc : Option Nat) : Nat × Flags :=
  let a := acc.map (unpack f32)
  let accNan := match a with
    | some x => x.isNan
    | none => false
  if ts.any (fun t => t == .nan) || accNan then (f32.nan, 0)
  else match a, acc with
    | some (.inf _), some w => (w, 0)
    | a, _ =>
      let xs := ts.filterMap fun t => match t with
        | .val m e => some (m, e)
        | _ => none
      let xs := match a with
        | some (.fin sg m e) => if m = 0 then xs else (if sg then -(m : Int) else (m : Int), e) :: xs
        | _ => xs
      if xs.isEmpty then (match a with
        | some (.fin true _ _) => (0x80000000, 0)
        | _ => (0, 0))
      else
        let (v, l, lost) := windowSum xs
        let (r, fl) : Nat × Flags := if v = 0 then (0, 0) else roundVal f32 .rne (.fin (decide (v < 0)) v.natAbs l)
        let fl := (fl &&& ~~~Flags.uf) ||| (if lost then Flags.nx else 0)
        (r, if fl &&& Flags.nx ≠ 0 ∧ sumTiny xs then fl ||| Flags.uf else fl)

/-- Bytes of an operand slot. -/
def obSlot (cl s q : Nat) : Nat := obAt cl (s * 17920 + 32 * q)
def obScale (cl s q : Nat) : Nat := obAt cl (s * 17920 + 16384 + 3 * q)

/-- One MMA: the 64 × 64 result, row by row, with the union of its flags (R56 to R58, R184). -/
def State.mmaResult (s : State) (cl ac mode na nb sa sb : Nat) : List V2048 × Flags :=
  let c := s.cl cl
  let ma := mget {} c.obMeta sa
  let mb := mget {} c.obMeta sb
  let ks (i j b : Nat) : List Nat :=
    if mode = 2 then (if i < ma.vr ∧ j < mb.vr then (List.range 32).filter fun k => decide (32 * b + k < min ma.vk mb.vk) else [])
    else List.range 32
  let out (i j : Nat) : Nat × Flags :=
    let ts := tab (fun b =>
      mmaTerm na nb (s.load (obSlot cl sa (8 * i + b)) 32) (s.load (obSlot cl sb (8 * j + b)) 32)
        (s.load (obScale cl sa (8 * i + b)) 3) (s.load (obScale cl sb (8 * j + b)) 3) (ks i j b)) 8
    mmaOut ts (if mode = 1 then none else some (s.load (accElem cl ac i j) 4))
  let rows := tab (fun i => tab (out i) 64) 64
  (rows.map fun r => BitVec.ofNat 2048 (pack 32 (r.map (·.1))), (rows.flatMap fun r => r.map (·.2)).foldl (· ||| ·) 0)

/-- The bytes that an MMA reads: the blocks of both slots at the widths used, their scales, and the accumulator unless it is
overwritten. -/
def mmaReads (cl ac mode na nb sa sb : Nat) : List (Nat × Nat) :=
  let slot (k n : Nat) : List (Nat × Nat) := (tab (fun q => (obSlot cl k q, 4 * n)) 512) ++ [(obScale cl k 0, 1536)]
  slot sa na ++ slot sb nb ++ (if mode = 1 then [] else [(accElem cl ac 0 0, 16384)])

/-! ## The engine's steps -/

/-- The command executes to its end, or begins and is kept as what the engine runs. Its entry in the queue frees as it starts: the spec
does not say whether at the start or at the end, so that the command an engine runs is not among the 8 (DESIGN CHOICE, log 93). The copy
of an mdrain whose context has ended is made and its buffer freed at once (R117, R185). -/
def State.startCmd (s : State) (cl e : Nat) (c : EngCmd) (x : Engine) : State :=
  let drop (s : State) : State := s.setEngine cl e { (s.cl cl).engine e with queue := x.queue.drop 1 }
  if s.opDead c.op then
    let s := drop s
    match c.act with
    | .mdrain _ q => s.setVBound c.op.ctx q none
    | _ => s
  else match c.act with
    | .mzero k => ((drop s).zeroMem (accAt cl (k * 16384)) 16384).opDone c.op
    | .mdrain k q =>
      if 2 ≤ x.drains.length then s
      else
        let s := (drop s).correctAll cl [(accAt cl (k * 16384), 16384)]
        let y := (s.cl cl).engine e
        match s.firstBadOf [(accAt cl (k * 16384), 16384)] with
        | some pa => (s.setVBound c.op.ctx q none).opFailAt c.op pa
        | none =>
          let new : List Drain := if (s.ctx c.op.ctx).live = .exiting ∨ (s.ctx c.op.ctx).live = .off then []
            else [{ ctx := c.op.ctx, vq := q, rows := tab (s.accRow cl k) 64 }]
          (s.setEngine cl e { y with drains := y.drains ++ new }).opDone c.op
    | .mrd k r id vd clear =>
      let (v, s) := (drop s).takeRow cl k r
      let s := s.answer c.op.ctx id [.v vd v]
      if clear then s.setAccRow cl k r 0 else s
    | .mwrv k r v => (drop s).setAccRow cl k r v
    | .mst _ _ _ _ =>
      let s := drop s
      s.setEngine cl e { (s.cl cl).engine e with run := some { cmd := c } }
    | .mma _ _ _ _ reps rpt =>
      let s := drop s
      let cur := if rpt then none else reps.head?.map fun r => (r.1, r.2, c.stamp)
      s.setEngine cl e { (s.cl cl).engine e with run := some { cmd := c, cur := cur } }

/-- R170: the idle engine takes the head of its queue. -/
def execEngineCommandStart (cl e : Nat) (s : State) : Out :=
  let x := (s.cl cl).engine e
  match x.run, x.queue with
  | none, c :: _ => .next (s.startCmd cl e c x)
  | _, _ => .next s

/-- R96, R176: the engine accepts the next repetition, which counts as entering now. -/
def execMmaRepetitionAccept (cl e : Nat) (s : State) : Out :=
  let x := (s.cl cl).engine e
  match x.run with
  | some r =>
    match r.cur, r.cmd.act with
    | none, .mma _ _ _ _ (p :: _) _ =>
      let (st, s) := s.takeStamp cl
      .next (s.setEngine cl e { (s.cl cl).engine e with run := some { r with cur := some (p.1, p.2, st) } })
    | _, _ => .next s
  | none => .next s

/-- A load into slot k that entered before a stamp is outstanding (R176). -/
def Cluster.loadBefore (c : Cluster) (k stamp : Nat) : Bool := c.loader.any fun l => l.slot == k && decide (l.stamp < stamp)

/-- R57, R58, R184: the accepted repetition completes: result, flags and its number; the command ends with its last. -/
def execMmaCompletion (cl e : Nat) (s : State) : Out :=
  let x := (s.cl cl).engine e
  match x.run with
  | some r =>
    match r.cur, r.cmd.act with
    | some (sa, sb, st), .mma ac mode na nb reps rpt =>
      if (s.cl cl).loadBefore sa st || (s.cl cl).loadBefore sb st then .next s
      else
        let op := r.cmd.op
        let s := if s.opDead op then s else
          let reads := mmaReads cl ac mode na nb sa sb
          let s := s.correctAll cl reads
          match s.firstBadOf reads with
          | some pa => s.opFailAt op pa
          | none =>
            let (rows, fl) := s.mmaResult cl ac mode na nb sa sb
            let s := (rows.zipIdx).foldl (fun s v => s.setAccRow cl ac v.2 v.1) s
            (s.opFlags op fl).opDone op
        let rest := reps.drop 1
        let run := if rest.isEmpty then none
          else some { r with cmd := { r.cmd with op := { op with num := op.num + 1 }, act := .mma ac mode na nb rest rpt }, cur := none }
        .next (s.setEngine cl e { (s.cl cl).engine e with run := run })
    | _, _ => .next s
  | none => .next s

/-- The writes of an accumulator store, in row order: address, bytes, value; with the flags (R187). Each is a unit of Table 37: an
element, or an aligned 4-byte granule of a plane (R257). -/
def State.mstWrites (s : State) (cl : Nat) (kind : MstKind) (ac : Nat) (y : W64) (r : List W64) : List (Nat × Nat × Nat) × Flags :=
  let el (i j : Nat) : Nat := s.load (accElem cl ac i j) 4
  let cols := mstCols r y
  let ad (i j : Nat) : Nat := (recAddr r (tO0 y + j) (tO1 y + i) (tI2 y) (tI3 y)).toNat
  let row (i : Nat) : List (Nat × Nat × Nat) × Flags :=
    match kind with
    | .f32 => (tab (fun j => (ad i j, 4, el i j)) cols, 0)
    | .bf16 =>
      let xs := tab (fun j => fCvt f32 bf16 .rne (el i j)) cols
      (xs.zipIdx.map fun x => (ad i x.2, 2, x.1.1), (xs.map (·.2)).foldl (· ||| ·) 0)
    | .kb =>
      let n := recKbn r
      let bs := tab (fun b => kbPack n (tab (fun j => unpack f32 (el i (32 * b + j))) 32)) (cols / 32)
      let k : Int := recBlk r (tO1 y + i) (tI2 y) (tI3 y) + (tO0 y / 32 : Nat)
      (granules (recBase r + 4 * n * k).toNat (4 * n * bs.length) (pack (32 * n) (bs.map fun b => pack n b.mant)) ++
        granules (recSbase r + 3 * k).toNat (3 * bs.length) (pack 24 (bs.map fun b => b.scale)), (bs.map fun b => b.fl).foldl (· ||| ·) 0)
  let rows := tab row (mstRows r y)
  (rows.flatMap (·.1), (rows.map (·.2)).foldl (· ||| ·) 0)

/-- The bytes of the accumulator that a store reads. -/
def mstReads (cl ac : Nat) (y : W64) (r : List W64) : List (Nat × Nat) := tab (fun i => (accElem cl ac i 0, 4 * mstCols r y)) (mstRows r y)

/-- Of a list of writes, those that the free values from n on select, or the others. -/
def freeHalf {α : Type} (n : Nat) (sel : Bool) (ws : List α) : List α :=
  (ws.zipIdx.filter fun w => (Config.freeWord (n + w.2 / 64)).getLsbD (w.2 % 64) == sel).map (·.1)

/-- The bytes of n, by mask, whose aligned 4-byte granule the free values from k on select, or the others (R257, R259). -/
def freeBytes (k n : Nat) (sel : Bool) : Nat := ofBits (fun i => (Config.freeWord (k + i / 256)).getLsbD (i / 4 % 64) == sel) n

/-- R187, R259: the store writes memory and completes, or fails at the first access that does. What it writes before that step, and
what in it, is free for each granule. -/
def execMstCompletion (cl e : Nat) (s : State) : Out :=
  let x := (s.cl cl).engine e
  match x.run with
  | some r =>
    match r.cmd.act with
    | .mst kind ac y rc =>
      let op := r.cmd.op
      let idle (s : State) : State := s.setEngine cl e { (s.cl cl).engine e with run := none }
      let s := s.correctAll cl (mstReads cl ac y rc)
      if s.opDead op then .next (idle s)
      else match s.firstBadOf (mstReads cl ac y rc) with
      | some pa => .next ((idle s).opFailAt op pa)
      | none =>
        let (ws, fl) := s.mstWrites cl kind ac y rc
        match r.half with
        | none => match s.engWriteAll cl op ws with
          | (s, some err) => .next ((idle s).opFail op err)
          | (_, none) =>
            let n := s.free
            let (s, _) := { s with free := n + ws.length / 64 + 1 }.engWriteAll cl op (freeHalf n true ws)
            .next (s.setEngine cl e { (s.cl cl).engine e with run := some { r with half := some n } })
        | some n => match s.engWriteAll cl op (freeHalf n false ws) with
          | (s, some err) => .next ((idle s).opFail op err)
          | (s, none) => .next (((idle s).opFlags op fl).opDone op)
    | _ => .next s
  | none => .next s

/-- The register of a drain buffer has room, and its context runs (R14, R15). -/
def State.drainRoom (s : State) (d : Drain) : Bool := decide (((s.ctx d.ctx).getVQ d.vq).ents.length < 4) && (s.ctx d.ctx).live == .run

/-- Drain buffer k of an engine pushes its next row; after the last the register is unbound and the buffer free. -/
def State.deliverDrain (s : State) (cl e k : Nat) : State :=
  let x := (s.cl cl).engine e
  match x.drains[k]? with
  | some d =>
    match d.rows with
    | [] => s
    | v :: vs =>
      if !s.drainRoom d then s
      else
        let s := s.setCtx d.ctx ((s.ctx d.ctx).land (.v (28 + d.vq) v))
        if vs.isEmpty then (s.setVBound d.ctx d.vq none).setEngine cl e { x with drains := x.drains.eraseIdx k }
        else s.setEngine cl e { x with drains := setAt x.drains k { d with rows := vs } }
  | none => s

/-- R185: the first drain buffer whose register has room pushes its next row. -/
def execDrainRowDelivery (cl e : Nat) (s : State) : Out :=
  match ((s.cl cl).engine e).drains.findIdx? s.drainRoom with
  | none => .next s
  | some k => .next (s.deliverDrain cl e k)

/-! ## Loads of operand slots (R176, R181) -/

/-- The load word (R181). -/
def lwSlot (x : W64) : Nat := fld x 0 5
def lwN (x : W64) : Nat := fld x 8 4
def lwVr (x : W64) : Nat := min 64 (fld x 12 7)
def lwVk (x : W64) : Nat := min 256 (fld x 20 9)

/-- A load entered with the loader (R176). -/
def State.enqueueLoad (s : State) (op : Op) (x : W64) (n : Nat) (src : LoadFrom) : State :=
  let (st, s) := s.takeStamp s.clNo
  let c := s.myCl
  s.setMyCl { c with loader := c.loader ++ [{ op := op, stamp := st, slot := lwSlot x, vr := lwVr x, vk := lwVk x, n := n, src := src }] }

/-- R181: oload. -/
def execOload (t : BitVec 3) (x y : BitVec 6) (s : State) : Out :=
  engGate [.x x.toNat, .x y.toNat] [] s fun s =>
    let (lw, s) := s.readX x.toNat
    let (tw, s) := s.readX y.toNat
    andThen (s.needSlot (lwSlot lw)) s fun s =>
    let t3 (r : List W64) : Bool := recFmt r == 4 || (recFmt r != 3 && decide (2 ≤ lwN lw ∧ lwN lw ≤ 8))
    let vk' (r : List W64) : Nat := if isKb r then (lwVk lw + 31) / 32 * 32 else lwVk lw
    let t6 (r : List W64) : Bool :=
      (!isKb r || tO0 tw % 32 == 0) && (lwVr lw == 0 || lwVk lw == 0 ||
        (decide (tO0 tw + vk' r ≤ recSize r 0) && decide (tO1 tw + lwVr lw ≤ recSize r 1) &&
          decide (tI2 tw < recSize r 2) && decide (tI3 tw < recSize r 3)))
    match s.useRec (tHandle tw) [rRd] t3 t6 with
    | .error tr => s.trapNow tr
    | .ok (r, s) =>
      andThen (s.tlRoom t.toNat 1) s fun s =>
      andThen (s.spanStop r (tO0 tw) (tO0 tw + (if lwVr lw = 0 then 0 else vk' r)) (tO1 tw) (tO1 tw + lwVr lw) (tI2 tw) (tI3 tw)) s fun s =>
        .next (s.withOp t.toNat 1 fun s op => s.enqueueLoad op lw (if isKb r then recKbn r else lwN lw) (.tile tw r))

/-- A block for an operand slot: mantissa bytes, scale word, flags. -/
abbrev OBlk := Nat × Nat × Flags

/-- Mantissas of a stored block with those from element m on set to 0. -/
def cutMant (n m v : Nat) : Nat := v % 2 ^ (n * min m 32)

/-- Block b of slot row r from a record (R181). -/
def State.loadBlk (s : State) (cl : Nat) (l : LoadCmd) (y : W64) (rc : List W64) (r b : Nat) : Rd OBlk :=
  if l.vr ≤ r ∨ l.vk ≤ 32 * b then (.ok (0, 0, 0), s)
  else if isKb rc then
    (s.readBlk cl l.op rc (tO0 y / 32 + b) (tO1 y + r) (tI2 y) (tI3 y)).andThen fun p s =>
      (.ok (cutMant l.n (l.vk - 32 * b) p.1, p.2, 0), s)
  else
    let want := min 32 (l.vk - 32 * b)
    (readAll (fun k s => s.readElem cl l.op rc (tO0 y + 32 * b + k) (tO1 y + r) (tI2 y) (tI3 y)) (List.range want) s).andThen fun xs s =>
      let f := (fmtOf (recFmt rc)).getD f32
      let p := kbPack l.n (tab (fun k => if k < want then unpack f (xs.getD k 0) else .fin false 0 0) 32)
      (.ok (pack l.n p.mant, p.scale, p.fl), s)

/-- Slot bytes and metadata zeroed (R177). -/
def State.zeroSlot (s : State) (cl k : Nat) : State :=
  let s := s.zeroMem (obAt cl (k * 17920)) 17920
  let c := s.cl cl
  s.setCl cl { c with obMeta := mset c.obMeta k {} }

/-- Blocks written into an operand slot, with its metadata (R171, R181). -/
def State.fillSlot (s : State) (cl : Nat) (l : LoadCmd) (bs : List OBlk) : State :=
  let s := bs.zipIdx.foldl (fun s b => (s.store (obSlot cl l.slot b.2) 32 b.1.1).store (obScale cl l.slot b.2) 3 b.1.2.1) (s.zeroMem (obAt cl (l.slot * 17920)) 17920)
  let c := s.cl cl
  s.setCl cl { c with obMeta := mset c.obMeta l.slot { vr := l.vr, vk := l.vk, ln := l.n } }

/-- The load may write its slot: no earlier load of the slot, and no mma that entered before it, is outstanding (R176). -/
def Cluster.loadReady (c : Cluster) (l : LoadCmd) : Bool :=
  !c.loadBefore l.slot l.stamp &&
  !(c.engines.any fun e =>
    (e.2.queue.any fun q => decide (q.stamp < l.stamp) && (match q.act with
      | .mma _ _ _ _ reps false => reps.any fun p => p.1 == l.slot || p.2 == l.slot
      | _ => false)) ||
    (match e.2.run with
      | some r => (match r.cur with
        | some (sa, sb, st) => decide (st < l.stamp) && (sa == l.slot || sb == l.slot)
        | none => false)
      | none => false))

/-- The word that ostat returns for a slot; begun says whether a load issued after it has (R180). -/
def Cluster.ostatWord (c : Cluster) (k : Nat) (begun : Bool) : W64 :=
  let m := mget {} c.obMeta k
  let own := c.ownerOf 0 k
  BitVec.ofNat 64 (m.vr + m.vk * 2 ^ 8 + m.ln * 2 ^ 20 + bn begun * 2 ^ 24 + bn (own != 0) * 2 ^ 25 + (own - 1) * 2 ^ 26)

/-- R180: ostat. The sample waits for the loads issued before it; none issued later can have begun then. -/
def execOstat (x y : BitVec 6) (s : State) : Out :=
  gate 0 [.x y.toNat] [.x x.toNat] s fun s =>
    let (v, s) := s.readX y.toNat
    let k := fld v 0 5
    let c := s.myCl
    if c.loadBefore k c.stamp then
      let id := s.nextInter
      let s := s.inter [.x x.toNat] none
      .next (s.setMyCl { c with ostats := c.ostats ++ [{ ctx := s.cur, id := id, dst := x.toNat, slot := k, stamp := c.stamp }] })
    else .next (s.inter [.x x.toNat] (some [.x x.toNat (c.ostatWord k false)]))

/-- Every ostat whose earlier loads are done is answered. Whether a later load that the loader holds has begun by then is free (R180;
log 64). -/
def State.serveOstats (s : State) (cl : Nat) : State :=
  let c := s.cl cl
  let ready := c.ostats.filter fun o => !c.loadBefore o.slot o.stamp
  let s := s.setCl cl { c with ostats := c.ostats.filter fun o => c.loadBefore o.slot o.stamp }
  ready.foldl (fun s o =>
    let later := c.loader.any fun l => l.slot == o.slot && decide (o.stamp ≤ l.stamp)
    let (v, s) := if later then s.fresh else (0, s)
    s.answer o.ctx o.id [.x o.dst (c.ostatWord o.slot (later && fld v 0 1 == 1))]) s

/-- The end of a load: the loader forgets it, and it completes, fails, or has been cancelled. -/
def State.endLoad (s : State) (cl : Nat) (l : LoadCmd) (r : Except (Nat × W64) (List OBlk)) : State :=
  let c := s.cl cl
  let s := s.setCl cl { c with loader := c.loader.filter fun m => !decide (m.stamp = l.stamp) }
  let s := if s.opDead l.op then s else match r with
    | .error e => (s.zeroSlot cl l.slot).opFail l.op e
    | .ok bs => ((s.fillSlot cl l bs).opFlags l.op ((bs.map fun b => b.2.2).foldl (· ||| ·) 0)).opDone l.op
  s.serveOstats cl

/-- R181: the k-th load under way, an oload, reads its record and writes its slot. -/
def execOloadCompletion (cl k : Nat) (s : State) : Out :=
  match (s.cl cl).loader[k]? with
  | none => .next s
  | some l =>
    match l.src with
    | .ring _ _ _ => .next s
    | .tile y rc =>
      if !(s.cl cl).loadReady l then .next s
      else
        let (r, s) := readAll (fun q s => s.loadBlk cl l y rc (q / 8) (q % 8)) (List.range 512) s
        .next (s.endLoad cl l r)

end Sys2Proof.Machine
end

