-- ==== Sys2Proof/Machine/Net.lean ====
section
/-! DEFINITION. The fabric's topology and its messages: ranks and gangs, ways between sites, sending, mailbags, the order of arrival
(R35, R302, R319 to R328, R342). -/
namespace Sys2Proof.Machine

/-! ## Ranks (R35) -/

/-- The cluster of a team rank, from the rank table of cluster cl. -/
def State.rankCl (s : State) (cl r : Nat) : Option Nat := (s.cl cl).ti.ranks[r]?

/-- The team size. -/
def State.teamSize (s : State) (cl : Nat) : Nat := (s.cl cl).ti.ranks.length

/-- The rank of a cluster in its team. -/
def TeamInfo.rank (t : TeamInfo) : Nat := t.rbase + t.gang * t.gangSize + t.gangIx

/-- The cluster of gang index i of the gang of cluster cl. -/
def State.gangCl (s : State) (cl i : Nat) : Option Nat :=
  let t := (s.cl cl).ti
  if i < t.gangSize then s.rankCl cl (t.rbase + t.gang * t.gangSize + i) else none

/-! ## Topology (R319) -/

/-- The number of the link from site p to site q: 0 to 6 along the row in rising column, 7 to 13 along the column in rising
row (log 13); none where they share neither or are the same. -/
def linkTo (p q : Nat) : Option Nat :=
  if p = q then none
  else if p / 8 = q / 8 then some (if q % 8 < p % 8 then q % 8 else q % 8 - 1)
  else if p % 8 = q % 8 then some (7 + (if q / 8 < p / 8 then q / 8 else q / 8 - 1))
  else none

def State.link (s : State) (p k : Nat) : Link := mget {} (s.site p).links k

/-- The direct link between two sites is up (R324). -/
def State.linkUp (s : State) (p q : Nat) : Bool := match linkTo p q with
  | none => false
  | some k => (s.link p k).width != 3

/-- The next site and hop class of a packet at p for q that holds class k of its set (R322, R323): the direct link of
the row, then of the column; where that is down, through the lowest-numbered die of the line whose two links are up. -/
def State.nextHop (s : State) (p q k : Nat) : Option (Nat × Nat) :=
  let row := decide (p % 8 ≠ q % 8)
  let t := if row then p / 8 * 8 + q % 8 else q
  let c0 := if row then 0 else 2
  if s.linkUp p t then some (t, if k ≤ c0 then c0 + 1 else c0 + 2)
  else if c0 < k then none
  else
    let line := (List.range 8).map fun i => if row then p / 8 * 8 + i else i * 8 + p % 8
    (line.find? fun i => s.linkUp p i && s.linkUp i t).map fun i => (i, c0 + 1)

/-! ## Other panels (R321, R342) -/

/-- The panel of a cluster number as rank tables hold it: none for this panel. A cluster of panel k is written as
8192 × (k + 1) and its number there (log 14). -/
def panelOf (cl : Nat) : Option Nat := if cl < 8192 then none else some (cl / 8192 - 1)

/-- The site that carries an Iczer port (R321). -/
def portSite (p : Nat) : Nat :=
  [0, 0, 1, 2, 3, 4, 5, 6, 7, 7, 8, 15, 16, 23, 24, 31, 32, 39, 40, 47, 48, 55, 56, 56, 57, 58, 59, 60, 61, 62, 63, 63].getD p 0

def State.port (s : State) (p : Nat) : IczPort := mget {} s.ports p
def State.setPort (s : State) (p : Nat) (x : IczPort) : State := { s with ports := mset s.ports p x }

/-- A port that carries packets. -/
def IczPort.live (x : IczPort) : Bool := x.state == 2 || x.state == 3

/-- The live ports of the route table's list for a panel, which names at most four (R342). -/
def State.portsTo (s : State) (panel : Nat) : List Nat := ((mget [] s.routes panel).take 4).filter fun p => (s.port p).live

/-- The port that a packet from one cluster to another panel's takes (R342). -/
def State.portFor (s : State) (src dst : Nat) : Option Nat :=
  match panelOf dst with
  | none => none
  | some k =>
    let ps := s.portsTo k
    ps[(src + dst % 8192) % ps.length]?

/-- A path inside the panel from site p, class k, to site q, of at most n hops. -/
def State.pathFrom (s : State) (q : Nat) : Nat → Nat → Nat → Bool
  | 0, p, _ => p == q
  | n + 1, p, k => p == q || (match s.nextHop p q k with
    | some (t, k') => s.pathFrom q n t k'
    | none => false)

/-- A packet from one cluster to another has a way (R322, R342). -/
def State.reaches (s : State) (src dst : Nat) : Bool :=
  if dst < 8192 then s.pathFrom (siteOf dst) 4 (siteOf src) 0
  else match s.portFor src dst with
    | some p => s.pathFrom (portSite p) 4 (siteOf src) 0
    | none => false

/-! ## Messages (R323, R325, R326, R328) -/

/-- Bytes that a request carries: the operand data of an operation that reads its buffer (R208, R325). -/
def Packet.payload (p : Packet) : Nat := match p.kind with
  | .get => 0
  | .getro => 0
  | .rcas => 16
  | _ => p.len

/-- Flits of a packet with n bytes of payload, 48 of which its header carries (R325). -/
def flitsOf (n : Nat) : Nat := if n ≤ 48 then 1 else 1 + (n - 48 + 63) / 64

/-- Bytes of payload of a message (R325): a ring's row, 4 bytes a count, a chunk. -/
def MsgDo.bytes : MsgDo → Nat
  | .req p => p.payload
  | .data p _ _ _ => p.len
  | .ringRow _ _ _ _ _ _ n => n
  | .counts _ _ _ _ pre _ => 4 * pre.length
  | .chunk _ _ _ _ n _ _ _ => n
  | .more _ _ => 4096
  | _ => 0

/-- Packets of 4,096 bytes that go before the last packet of a message (R325). -/
def MsgDo.cuts (a : MsgDo) : Nat := (a.bytes - 1) / 4096

/-- Flits of a message's last packet (R325). -/
def MsgDo.flits (a : MsgDo) : Nat := flitsOf (a.bytes - 4096 * a.cuts)

/-- The virtual channel of a message (R323). -/
def MsgDo.vc : MsgDo → Nat
  | .ringRow _ _ _ _ _ _ _ => 0
  | .req _ => 0
  | .accepted _ => 1
  | .applied _ _ => 1
  | .data _ _ _ _ => 1
  | .reject _ _ => 1
  | .stale _ => 1
  | .counts id _ _ _ _ _ => 3 + id % 8
  | .chunk id _ _ _ _ _ _ _ => 3 + id % 8
  | .more _ vc => vc
  | _ => 2

/-- Notices between members, which keep the order in which they were sent (R328). -/
def MsgDo.isNotice : MsgDo → Bool
  | .winNotice _ _ _ _ => true
  | .closeNotice _ _ _ => true
  | .post _ _ _ _ => true
  | .compl _ _ _ _ => true
  | .lockReq _ _ => true
  | .unlock _ _ => true
  | .lockGrant _ _ _ => true
  | .ack _ => true
  | .winEnd _ _ _ _ => true
  | _ => false

/-- A message put on the fabric at the sender's site (R322). A single-flit REQ packet for another site enters the open
mailbag of its target site, which leaves when it holds 8; any other message for that site sends the open bag on its way (R326). A
message of more than 4,096 bytes is cut into packets (R325). -/
def State.send (s : State) (src dst : Nat) (act : MsgDo) : State :=
  let p := siteOf src
  let q := siteOf dst
  let small := act.vc == 0 && act.flits == 1
  let m : Msg := { id := s.nextMsg, pos := p, dst := dst, src := src, small := small, act := act }
  let close (s : State) : State :=
    { s with bags := s.bags.map fun b => if b.src = p ∧ b.dst = q then { b with open_ := false } else b }
  if small ∧ p ≠ q ∧ q < 64 then
    let bag := s.bags.find? fun b => decide (b.src = p ∧ b.dst = q) && b.open_
    let id := match bag with
      | some b => b.id
      | none => s.nextMsg
    let s : State := if bag.isSome then s else { s with bags := s.bags ++ [{ id := id, src := p, dst := q, cl := src, born := (s.cl src).cycle }] }
    let s : State := { s with net := s.net ++ [{ m with bag := some id }], nextMsg := s.nextMsg + 1 }
    if (s.net.filter fun x => decide (x.bag = some id)).length < 8 then s else close s
  else
    let s := close s
    let more := (List.range act.cuts).map fun i => ({ m with id := m.id + 1 + i, act := .more m.id act.vc } : Msg)
    { s with net := s.net ++ [m] ++ more, nextMsg := s.nextMsg + 1 + act.cuts }

/-- A lock request that its target's full queue has left at its origin (R328). -/
def State.heldBack (s : State) (x : Msg) : Bool := match x.act with
  | .lockReq w _ => decide (64 ≤ (mget {} (s.cl x.dst).frank w).queue.length) && x.pos == siteOf x.dst
  | _ => false

/-- A message that x may not overtake: an earlier one of its mailbag, or an earlier notice between the same members (R326, R328). -/
def State.before (s : State) (x y : Msg) : Bool :=
  decide (y.id < x.id) && ((x.bag.isSome && x.bag == y.bag) ||
    (x.act.isNotice && y.act.isNotice && x.src == y.src && x.dst == y.dst && !s.heldBack y))

/-- A packet that goes before the last of message m (R325). -/
def Msg.leads (x : Msg) (m : Nat) : Bool := match x.act with
  | .more k _ => k == m
  | _ => false

/-- A packet has come to its target's site. -/
def Msg.here (x : Msg) : Bool := x.pos == siteOf x.dst && x.via.isNone

/-- The message of a number that has reached its target's site with every packet of it, its mailbag opened, in its order. -/
def State.arrived (s : State) (m : Nat) : Option Msg :=
  s.net.find? fun x => x.id == m && x.here && !(s.bags.any fun b => decide (x.bag = some b.id)) && !(s.net.any (s.before x)) &&
    s.net.all fun y => !y.leads m || y.here

/-- The message taken off the fabric, with its packets. -/
def State.take (s : State) (m : Nat) : State := { s with net := s.net.filter fun x => !(x.id == m || x.leads m) }

/-- The message of a number changed: it is not yet done with. -/
def State.setAct (s : State) (m : Nat) (act : MsgDo) : State := { s with net := s.net.map fun x => if x.id = m then { x with act := act } else x }

end Sys2Proof.Machine
end

