-- ==== Sys2Proof/Machine/Rings.lean ====
section
/-! DEFINITION. Rings: major 0x32, ofill, and the steps of the ring engine (R182, R190 to R200). -/
namespace Sys2Proof.Machine

/-! ## The form of a row (R192) -/

/-- The width of a row's KB-n content, or 0. -/
def rowKb (tr : List W64) (conv : Nat) : Nat := if conv ≠ 0 then conv else if isKb tr then recKbn tr else 0
def Ring.kb (g : Ring) : Nat := rowKb g.tr g.conv

/-- Bytes of a row's content. -/
def rowBytes (tr : List W64) (conv rowel : Nat) : Nat :=
  let n := rowKb tr conv
  if n = 0 then rowel * fmtSize (recFmt tr) else (4 * n + 3) * (rowel / 32)

/-- Mantissa planes in block order, then the scales, as one number (R192). -/
def packRow (n : Nat) (bs : List (Nat × Nat)) : Nat :=
  pack (32 * n) (bs.map (·.1)) + 2 ^ (32 * n * bs.length) * pack 24 (bs.map (·.2))

/-- Row j of an IN ring, counted from O1, as it lands: the bytes and the flags, or the fault (R192, R193). -/
def State.fetchRow (s : State) (cl : Nat) (op : Op) (g : Ring) (j : Nat) : Rd (Nat × Flags) :=
  if isKb g.tr then
    (readAll (fun b s => if recSize g.tr 0 ≤ g.o0 + 32 * b then (.ok (0, 0), s)
        else s.readBlk cl op g.tr (g.o0 / 32 + b) (g.o1 + j) g.i2 g.i3) (List.range (g.rowel / 32)) s).andThen fun bs s =>
      (.ok (packRow (recKbn g.tr) bs, 0), s)
  else
    (readAll (fun e s => if recSize g.tr 0 ≤ g.o0 + e then (.ok 0, s)
        else s.readElem cl op g.tr (g.o0 + e) (g.o1 + j) g.i2 g.i3) (List.range g.rowel) s).andThen fun xs s =>
      if g.conv = 0 then (.ok (pack (8 * fmtSize (recFmt g.tr)) xs, 0), s)
      else
        let f := (fmtOf (recFmt g.tr)).getD f32
        let bs := tab (fun b => kbPack g.conv (tab (fun k => unpack f (xs.getD (32 * b + k) 0)) 32)) (g.rowel / 32)
        (.ok (packRow g.conv (bs.map fun b => (pack g.conv b.mant, b.scale)), (bs.map (·.fl)).foldl (· ||| ·) 0), s)

/-! ## Rings by number -/

def Ctx.setRing (c : Ctx) (r : Nat) (g : Ring) : Ctx := { c with rings := mset c.rings r g }
def State.setRing (s : State) (g r : Nat) (x : Ring) : State := s.setCtx g ((s.ctx g).setRing r x)

/-- Rows of the record that an IN ring can carry (R192). -/
def Ring.rows (g : Ring) : Nat := recSize g.tr 1 - g.o1

/-- An ofill of the context still has to read absolute row a of ring r (R182). -/
def State.ofillNames (s : State) (g r a : Nat) : Bool :=
  (s.cl (g / 4)).loader.any fun l => l.op.ctx == g && (match l.src with
    | .ring r' _ row => r' == r && decide (row ≤ a ∧ a < row + l.vr)
    | .tile _ _ => false)

/-- Absolute row a is still to be read: by an ofill, by the bound delivery, or by a wrflush that fetches it again (R194). -/
def State.rowBusy (s : State) (g r : Nat) (x : Ring) (a : Nat) : Bool :=
  s.ofillNames g r a ||
  (match x.bind with
    | some (_, _, n) => decide (n ≤ a)
    | none => false) ||
  x.cmds.any fun c => match c.2 with
    | .flush rows => rows.contains a
    | _ => false

/-- The oldest k rows may retire: nothing is still to read them, and those of an IN ring have landed (R194, R196, R197). -/
def State.mayRetire (s : State) (g r : Nat) (x : Ring) (k : Nat) : Bool :=
  (x.mode != 0 || decide (x.first + k ≤ x.landed)) && !((List.range' x.first k).any (s.rowBusy g r x))

/-- The destinations that an IN ring still serves, with their credits; one that has not registered holds none (R195). -/
def Ring.credits (g : Ring) : List (Nat × Nat) :=
  (tab (fun k => g.mcf + k) g.mcn).filterMap fun i =>
    match g.dests.find? fun e => e.1 == i with
    | some (_, 0) => none
    | some (_, n + 1) => some (i, n)
    | none => some (i, 0)

/-- The row that an IN ring may land next: the first that has not, once its slot is free and, unless it is a zero row, every
destination served holds a credit; while a wrfree waits, a row that a reader names (R192, R194, R195, R198). -/
def State.nextFetch (s : State) (g r : Nat) (x : Ring) : Option Nat :=
  if x.mode ≠ 0 then none
  else if x.freeing.isSome then
    (List.range' x.first x.depth).find? fun a => !x.hasLanded a && s.ofillNames g r a
  else if x.landed < x.first + x.depth ∧ (x.rows ≤ x.landed ∨ x.credits.all fun c => decide (c.2 ≠ 0)) then some x.landed
  else none

/-- A row written at its slot in the local store, its bytes past the content 0 (R192). The loads its context has issued read the slot as
it stood (R163). -/
def State.putRow (s : State) (g : Nat) (x : Ring) (a v : Nat) : State :=
  (s.drainOwn g fun pa => spaceOf pa == 0).perform (lsAt (g / 4) (x.rowAt a)) (x.len * 256) v

/-- The granules of a row at its slot that the free values of part select, or the others, written (R259). -/
def State.putSome (s : State) (g : Nat) (x : Ring) (a : Nat) (p : RowPart) (sel : Bool) : State :=
  let pa := lsAt (g / 4) (x.rowAt a)
  ((s.drainOwn g fun pa => spaceOf pa == 0).wake pa (x.len * 256)).storeMask pa (x.len * 256) (freeBytes p.free (x.len * 256) sel) p.val

/-- A row begins to land: a free half of its granules is written (R259). -/
def State.beginRow (s : State) (g r : Nat) (x : Ring) (a v : Nat) (fl : Flags) (again : Bool := false) : State :=
  let p : RowPart := { row := a, again := again, free := s.free, val := v, fl := fl }
  (({ s with free := s.free + x.len + 1 } : State).putSome g x a p true).setRing g r { x with part := some p }

/-- Row a of a ring has landed. -/
def Ring.land (x : Ring) (a : Nat) : Ring := if a = x.landed then { x with landed := a + 1 } else { x with extra := a :: x.extra }

/-- The command that owns the fetch of absolute row a (R200). -/
def Ring.owner (x : Ring) (a : Nat) : Option Op :=
  x.cmds.findSome? fun c => match c.2 with
    | .landed lo upto => if lo ≤ a ∧ a < upto then some c.1 else none
    | _ => none

/-- A wrout with rows still to be written. -/
def RingWait.isOut : RingWait → Bool
  | .out _ _ => true
  | _ => false

/-- A command that retires rows, or will: these act in order (R194, R196). -/
def RingWait.retires : RingWait → Bool
  | .adv _ => true
  | .out _ _ => true
  | .retire _ => true
  | _ => false

/-- The commands of a ring that have not completed (R200). -/
def Ring.ops (x : Ring) : List Op :=
  (x.cmds.filterMap fun c => match c.2 with
    | .retire _ => none
    | _ => some c.1) ++ x.freeing.getD []

/-- Command k of a ring has done what it waits for. A source's own rows count, not those of its destinations (R195). -/
def Ring.cmdDone (x : Ring) (k : Nat) : RingWait → Bool
  | .landed _ upto => decide (upto ≤ x.landed)
  | .flush rows => rows.isEmpty
  | .reg => x.registered
  | .outs => !((x.cmds.take k).any fun c => c.2.isOut)
  | _ => false

/-- Zero rows past the record's end land at once, in order (R192). -/
def State.landZeros (s : State) (g r : Nat) : Nat → State
  | 0 => s
  | n + 1 => match (s.ctx g).ring r with
    | none => s
    | some x => match s.nextFetch g r x with
      | some a => if x.rows ≤ a then ((s.putRow g x a 0).setRing g r (x.land a)).landZeros g r n else s
      | none => s

/-- A RECV ring drops out of its source's destinations (R195). -/
def State.leaveSource (s : State) (g : Nat) (x : Ring) : State :=
  match s.gangCl (g / 4) x.mcf with
  | none => s
  | some cl =>
    let src := cl * 4 + x.dctx
    match (s.ctx src).ring x.dring with
    | some y => if y.mode = 0 then s.setRing src x.dring { y with dests := mset y.dests (s.cl (g / 4)).ti.gangIx 0 } else s
    | none => s

/-- The destination of gang index i of an IN ring that is freed waits to register again (R195). -/
def State.orphan (s : State) (g r : Nat) (x : Ring) (i : Nat) : State :=
  match s.gangCl (g / 4) i with
  | none => s
  | some d =>
    let c := d * 4 + x.dctx
    match (s.ctx c).ring x.dring with
    | some y =>
      if y.mode = 2 ∧ y.mcf = (s.cl (g / 4)).ti.gangIx ∧ y.dctx = g % 4 ∧ y.dring = r then
        s.setRing c x.dring { y with registered := false }
      else s
    | none => s

/-- A multicast row of a ring is on its way (R198). -/
def State.rowsOut (s : State) (g r : Nat) : Bool := s.net.any fun m => match m.act with
  | .ringRow _ _ _ src sr _ _ => src == g && sr == r
  | _ => false

/-- What a wrfree waits for is done: the fetches and writes that have started, the ofills, and the bound delivery of every row held that
has landed, which ends with a context that exits (R117, R198). -/
def State.freeReady (s : State) (g r : Nat) (x : Ring) : Bool :=
  !(x.cmds.any fun c => c.2.isOut) && x.part.isNone && !s.rowsOut g r &&
  !((s.cl (g / 4)).loader.any fun l => l.op.ctx == g && (match l.src with
    | .ring r' _ _ => r' == r
    | .tile _ _ => false)) &&
  (match x.bind with
    | some (_, _, n) => !x.hasLanded n || decide (x.first + x.depth ≤ n) || (s.ctx g).live == .exiting
    | none => true)

/-- The ring freed: waiting commands complete, its binding ends, and it is no longer active (R198). -/
def State.freeRing (s : State) (g r : Nat) (x : Ring) (ops : List Op) : State :=
  let s := x.cmds.foldl (fun s c => match c.2 with
    | .retire _ => s
    | _ => s.opDone c.1) s
  let s := match x.bind with
    | some (q, _, _) => s.setVBound g q none
    | none => s
  let s := match x.mode with
    | 0 => (tab (fun k => x.mcf + k) x.mcn).foldl (fun (s : State) i => s.orphan g r x i) s
    | 1 => s
    | _ => if x.registered then s.leaveSource g x else s
  let c := s.ctx g
  ops.foldl (fun s op => s.opDone op) (s.setCtx g { c with rings := c.rings.filter fun e => e.1 != r })

/-- Command k of a ring, the first of those that retire rows, acts where it may: one that has been cancelled is dropped; rows are
retired, and a wradv then waits for the rows that its ring fetches; a wrout whose rows are written completes (R17, R194, R196). -/
def State.ringCmdStep (s : State) (g r : Nat) (x : Ring) (k : Nat) (op : Op) : RingWait → State
  | .adv n =>
    if s.opDead op then s.setRing g r { x with cmds := x.cmds.eraseIdx k }
    else if !s.mayRetire g r x n then s
    else if x.mode = 1 then (s.setRing g r { x with first := x.first + n, next := x.next + n, cmds := x.cmds.eraseIdx k }).opDone op
    else
      let lo := x.first + x.depth
      let s := s.setRing g r { x with first := x.first + n, cmds := setAt x.cmds k (op, .landed lo (lo + n)) }
      if x.mode = 2 ∧ x.registered then
        (match s.gangCl (g / 4) x.mcf with
        | some cl => s.send (g / 4) cl (.credit op (cl * 4 + x.dctx) x.dring (s.cl (g / 4)).ti.gangIx n)
        | none => s)
      else s
  | .out done n =>
    if done = n then (s.setRing g r { x with cmds := setAt x.cmds k (op, .retire n) }).opDone op
    else if done = 0 ∧ s.opDead op then s.setRing g r { x with cmds := x.cmds.eraseIdx k }
    else s
  | .retire n => if s.mayRetire g r x n then s.setRing g r { x with first := x.first + n, cmds := x.cmds.eraseIdx k } else s
  | _ => s

/-- The first command of a ring that retires rows acts where it may, and zero rows land. -/
def State.ringTurn (s : State) (g r : Nat) : State :=
  let s := s.landZeros g r 256
  match (s.ctx g).ring r with
  | none => s
  | some x =>
    let k := x.cmds.findIdx fun c => c.2.retires
    match x.cmds[k]? with
    | some (op, w) => s.ringCmdStep g r x k op w
    | none => s

/-- After a change to a ring: zero rows land, rows are retired, commands that are done complete, and a wrfree that waits is carried
out when it may. -/
def State.ringSettle (s : State) (g r : Nat) : State :=
  let turns := match (s.ctx g).ring r with
    | some x => 2 * x.cmds.length + 1
    | none => 0
  let s := (List.range turns).foldl (fun s _ => s.ringTurn g r) s
  let s := s.landZeros g r 256
  match (s.ctx g).ring r with
  | none => s
  | some x =>
    let done := x.cmds.zipIdx.filter fun c => x.cmdDone c.2 c.1.2
    let x := { x with cmds := (x.cmds.zipIdx.filter fun c => !x.cmdDone c.2 c.1.2).map (·.1) }
    let s := done.foldl (fun s c => s.opDone c.1.1) (s.setRing g r x)
    match x.freeing with
    | some ops => if s.freeReady g r x then s.freeRing g r x ops else s
    | none => s

/-! ## The instructions -/

/-- RECORD for a ring that is not active (R198). -/
def noRing : Trap := recTrap 1 0xFFFF

/-- The ring that a set-up word and a base word describe (R191). -/
def ringOf (sw bw tw : W64) (tr : List W64) : Ring :=
  { mode := fld sw 4 2, rowel := fld sw 48 16, len := fld sw 16 9, depth := fld sw 8 8, conv := fld sw 25 4
    lsb := fld bw 8 15, handle := tHandle tw, tr := tr, o0 := tO0 tw, o1 := tO1 tw, i2 := tI2 tw, i3 := tI3 tw
    dctx := fld bw 52 2, dring := fld bw 48 4, mcn := fld bw 40 8, mcf := fld bw 32 8 }

/-- Test 3 of wrset (R191). -/
def wrsetTest3 (sw : W64) (tr : List W64) : Bool :=
  let mode := fld sw 4 2
  let conv := fld sw 25 4
  mode != 3 && (conv == 0 || (decide (2 ≤ conv ∧ conv ≤ 8) && mode == 0 && (recFmt tr == 0 || recFmt tr == 1))) &&
    (mode == 2 || recSpace tr == 1)

/-- Test 5 of wrset. -/
def wrsetTest5 (g : Ring) : Bool :=
  recRight g.tr rRing && (g.mode != 0 || (recRight g.tr rRd && (g.mcn == 0 || recRight g.tr rMcast))) &&
    (g.mode != 1 || recRight g.tr rW)

/-- Test 6 of wrset. -/
def wrsetTest6 (g : Ring) (gangIx gangSize : Nat) : Bool :=
  let kb := g.kb != 0
  decide (1 ≤ g.rowel ∧ 1 ≤ g.len ∧ g.len ≤ 256 ∧ 1 ≤ g.depth) && decide (rowBytes g.tr g.conv g.rowel ≤ g.len * 256) &&
    (!kb || (g.rowel % 32 == 0 && g.o0 % 32 == 0)) &&
    (g.mode != 0 || (decide (g.mcf + g.mcn ≤ gangSize) && !decide (g.mcf ≤ gangIx ∧ gangIx < g.mcf + g.mcn))) &&
    (g.mode != 2 || (decide (g.mcf < gangSize) && g.mcf != gangIx)) &&
    (g.mode == 2 || (decide (g.i2 < recSize g.tr 2) && decide (g.i3 < recSize g.tr 3)))

/-- R191: wrset. -/
def execWrset (t : BitVec 3) (x : BitVec 4) (y : BitVec 6) (s : State) : Out :=
  engGate [.x (2 * x.toNat), .x (2 * x.toNat + 1), .x y.toNat] [] s fun s =>
    let sw := s.me.getX (2 * x.toNat)
    let bw := s.me.getX (2 * x.toNat + 1)
    let (tw, s) := s.readX y.toNat
    let r := fld sw 0 4
    andThen (if (s.me.ring r).isSome then some (.trap noRing) else none) s fun s =>
    match s.useRec (tHandle tw) [] (wrsetTest3 sw) (fun _ => true) with
    | .error tr => s.trapNow tr
    | .ok (rec_, s) =>
      let g := ringOf sw bw tw rec_
      let ti := s.myCl.ti
      if !wrsetTest5 g then s.trapNow (recTrap 5 g.handle)
      else if !wrsetTest6 g ti.gangIx ti.gangSize then s.trapNow (recTrap 6 g.handle)
      else
        andThen (s.tlRoom t.toNat 1) s fun s =>
        andThen ((lsSpanTrap s.myCl (g.lsb * 256 : Nat) (g.lsb * 256 + g.depth * g.len * 256 : Nat)).map .trap) s fun s =>
          .next (s.withOp t.toNat 1 fun s op =>
            let w : RingWait := match g.mode with
              | 0 => .landed 0 (min g.depth g.rows)
              | 1 => .outs
              | _ => .reg
            (s.setRing s.cur r { g with cmds := [(op, w)] }).ringSettle s.cur r)

/-- A command on an active ring: the ring's number is bits [3:0] of X (R198). -/
def ringCmd (t : BitVec 3) (x : BitVec 6) (s : State) (k : State → Nat → Ring → Op → State) : Out :=
  let (v, s) := s.readX x.toNat
  let r := fld v 0 4
  match s.me.ring r with
  | none => s.trapNow noRing
  | some g => andThen (s.tlRoom t.toNat 1) s fun s => .next (s.withOp t.toNat 1 fun s op => k s r g op)

/-- R194: wradv. -/
def execWradv (t : BitVec 3) (x y : BitVec 6) (s : State) : Out :=
  engGate [.x x.toNat, .x y.toNat] [] s fun s =>
    let (v, s) := s.readX x.toNat
    let (n, s) := s.readX y.toNat
    let r := fld v 0 4
    match s.me.ring r with
    | none => s.trapNow noRing
    | some g => andThen (s.tlRoom t.toNat 1) s fun s => .next (s.withOp t.toNat 1 fun s op =>
        let k := min n.toNat g.depth
        if k = 0 then s.opDone op
        else (s.setRing s.cur r { g with cmds := g.cmds ++ [(op, .adv k)] }).ringSettle s.cur r)

/-- R199: wrstat. For a RECV ring NEXT is not stated (log 6). -/
def execWrstat (x y : BitVec 6) (s : State) : Out :=
  gate 0 [.x y.toNat] [.x x.toNat] s fun s =>
    let (v, s) := s.readX y.toNat
    match s.me.ring (fld v 0 4) with
    | none => .next (s.inter [.x x.toNat] (some [.x x.toNat 0]))
    | some g =>
      let (w, s) := if g.mode = 2 then s.fresh else (0, s)
      let next := match g.mode with
        | 0 => g.o1 + g.landed
        | 1 => g.o1 + g.next
        | _ => fld w 0 32
      let landed := if g.mode = 1 then g.depth else min g.depth (g.landed - g.first)
      let credit := if g.mode = 0 ∧ g.mcn ≠ 0 then (g.credits.map (·.2)).foldl min (if g.credits.isEmpty then 0 else 255) else 0
      let fin := match g.mode with
        | 0 => decide (g.rows ≤ g.landed)
        | 1 => decide (recSize g.tr 1 ≤ g.o1 + g.next)
        | _ => false
      let word := 8 + g.mode * 16 + bn g.bind.isSome * 64 + bn fin * 128 + credit * 2 ^ 8 + landed * 2 ^ 16 + g.depth * 2 ^ 24 +
        next % 2 ^ 32 * 2 ^ 32
      .next (s.inter [.x x.toNat] (some [.x x.toNat (BitVec.ofNat 64 word)]))

/-- R198: wrfree. -/
def execWrfree (t : BitVec 3) (x : BitVec 6) (s : State) : Out :=
  engGate [.x x.toNat] [] s fun s =>
    ringCmd t x s fun s r g op => (s.setRing s.cur r { g with freeing := some (g.freeing.getD [] ++ [op]) }).ringSettle s.cur r

/-- R197: wrbind. -/
def execWrbind (q : BitVec 2) (y : BitVec 6) (s : State) : Out :=
  engGate [.x y.toNat] [] s fun s =>
    let (v, s) := s.readX y.toNat
    let r := fld v 24 4
    let ch := fld v 16 8
    andThen (if fld v 31 1 = 1 then none else s.bindStop q.toNat) s fun s =>
    match s.me.ring r with
    | none => s.trapNow noRing
    | some g =>
      if g.len ≤ ch then s.trapNow (recTrap 6 g.handle)
      else if fld v 31 1 = 1 then
        match g.bind with
        | some (q', _, _) =>
          if q' = q.toNat then .next ((s.setVBound s.cur q' none).setRing s.cur r { g with bind := none } |>.ringSettle s.cur r)
          else .next s
        | none => .next s
      else if g.bind.isSome then s.trapNow (recTrap 6 g.handle)
      else .next ((s.setVBound s.cur q.toNat (some (.ring r))).setRing s.cur r { g with bind := some (q.toNat, ch, g.first) })

/-- R196: wrout. On a ring that is not OUT it records BADARG. -/
def execWrout (t : BitVec 3) (x y : BitVec 6) (s : State) : Out :=
  engGate [.x x.toNat, .x y.toNat] [] s fun s =>
    let (v, s) := s.readX x.toNat
    let (n, s) := s.readX y.toNat
    let r := fld v 0 4
    match s.me.ring r with
    | none => s.trapNow noRing
    | some g => andThen (s.tlRoom t.toNat 1) s fun s => .next (s.withOp t.toNat 1 fun s op =>
        if g.mode ≠ 1 then s.opFail op (12, v)
        else (s.setRing s.cur r { g with cmds := g.cmds ++ [(op, .out 0 (min n.toNat g.depth))] }).ringSettle s.cur r)

/-- R198: wrflush. -/
def execWrflush (t : BitVec 3) (x : BitVec 6) (s : State) : Out :=
  engGate [.x x.toNat] [] s fun s =>
    ringCmd t x s fun s r g op =>
      let w : RingWait := match g.mode with
        | 0 => .flush (tab (fun k => g.first + k) g.depth)
        | 1 => .outs
        | _ => .flush []
      (s.setRing s.cur r { g with cmds := g.cmds ++ [(op, w)] }).ringSettle s.cur r

/-- R182: ofill. -/
def execOfill (t : BitVec 3) (x y : BitVec 6) (s : State) : Out :=
  engGate [.x x.toNat, .x y.toNat] [] s fun s =>
    let (lw, s) := s.readX x.toNat
    let (rw_, s) := s.readX y.toNat
    andThen (s.needSlot (lwSlot lw)) s fun s =>
    let r := fld rw_ 24 4
    let blk := fld rw_ 16 8
    let row := fld rw_ 0 16
    match s.me.ring r with
    | none => s.trapNow noRing
    | some g =>
      match s.useRec g.handle [] (fun _ => true) (fun _ => true) with
      | .error tr => s.trapNow tr
      | .ok (_, s) =>
        if recFmt g.tr = 3 ∨ (g.kb = 0 ∧ (lwN lw < 2 ∨ 8 < lwN lw)) then s.trapNow (recTrap 3 g.handle)
        else if g.depth < row + lwVr lw ∨ (lwVk lw ≠ 0 ∧ g.rowel < 32 * (blk + (lwVk lw + 31) / 32)) then
          s.trapNow (recTrap 6 g.handle)
        else
          andThen (s.tlRoom t.toNat 1) s fun s =>
            .next (s.withOp t.toNat 1 fun s op =>
              s.enqueueLoad op lw (if g.kb = 0 then lwN lw else g.kb) (.ring r blk (g.first + row)))

/-! ## Steps of the ring engine and of the loader -/

/-- A row of an IN ring whose last granules are written has landed, and, unless a wrfree waits, goes to every destination served
(R193, R195). -/
def State.endRow (s : State) (g r : Nat) (x : Ring) (a : Nat) (op : Op) (v : Nat) : State :=
  let dests := if x.freeing.isSome then [] else x.credits
  let s := dests.foldl (fun s c => match s.gangCl (g / 4) c.1 with
    | some d => s.send (g / 4) d (.ringRow op (d * 4 + x.dctx) x.dring g r v (256 * x.len))
    | none => s) s
  s.setRing g r { x.land a with dests := dests.foldl (fun m c => mset m c.1 c.2) x.dests, part := none }

/-- Row a of an IN ring fetched: it is written in two steps, a free half of its granules in each (R259), and lands with the second; a
fault writes it as zero and fails the command whose fetch it was (R193, R200). A row fetched again whose wrflush a wrfree has overtaken is
only finished. -/
def State.fetchNext (s : State) (g r : Nat) (x : Ring) (a : Nat) : State :=
  let op := (x.owner a).getD { s.plainOp with ctx := g, user := s.userOf g, agent := s.agentOf g }
  match x.part with
  | some p =>
    let s := (s.putSome g x a p false).opFlags op p.fl
    if p.again then s.setRing g r { x with part := none } else s.endRow g r x a op p.val
  | none => match s.fetchRow (g / 4) op x a with
    | (.ok v, s) => s.beginRow g r x a v.1 v.2
    | (.error e, s) => ((if (x.owner a).isSome then s.opFail op e else s).putRow g x a 0).endRow g r x a op 0

/-- A held row fetched again for a wrflush, in two steps as any row; a row past the record's end is zero again (R192, R198, R259). The
first step leaves it half written. -/
def State.refetch (s : State) (g r : Nat) (x : Ring) (op : Op) (a : Nat) : State :=
  match x.part with
  | some p => ((s.putSome g x a p false).opFlags op p.fl).setRing g r { x with part := none }
  | none =>
    if x.rows ≤ a then s.putRow g x a 0
    else match s.fetchRow (g / 4) op x a with
      | (.ok v, s) => s.beginRow g r x a v.1 v.2 true
      | (.error e, s) => (s.putRow g x a 0).opFail op e

/-- The first wrflush of a ring that has a landed row to fetch again; while a wrfree waits, one that a reader names (R198). -/
def State.flushNext (s : State) (g r : Nat) (x : Ring) : Option (Nat × Op × Nat) :=
  x.cmds.zipIdx.findSome? fun c => match c.1.2 with
    | .flush (a :: _) => if x.hasLanded a ∧ (x.part.isSome ∨ x.freeing.isNone ∨ s.ofillNames g r a) then some (c.2, c.1.1, a) else none
    | _ => none

/-- The context's rings are paused: it has stopped for pre-emption or been saved (R108, R200). -/
def Ctx.paused (c : Ctx) : Bool := c.live == .stopped || c.live == .saved

/-- An ofill names a row that has not landed: the ring of a stopped context fetches on as far as that (R108; log 24). -/
def State.ofillWaits (s : State) (g r : Nat) (x : Ring) : Bool :=
  (s.ctx g).live == .stopped && (List.range' x.first x.depth).any fun a => !x.hasLanded a && s.ofillNames g r a

/-- R193: the next row of an IN ring lands, or a row that a wrflush asks for again. A row that is half written is finished though its
context has stopped (R200). -/
def execRingRowLanding (ctx r : Nat) (s : State) : Out :=
  match (s.ctx ctx).ring r with
  | none => .next s
  | some x =>
    if x.mode ≠ 0 ∨ ((s.ctx ctx).paused && x.part.isNone && !s.ofillWaits ctx r x) then .next s
    else match (if x.part.any fun p => !p.again then none else s.flushNext ctx r x) with
      | some (k, op, a) =>
        let s := if x.part.isSome ∨ (x.first ≤ a ∧ !s.opDead op) then s.refetch ctx r x op a else s
        let x := ((s.ctx ctx).ring r).getD x
        let cmds := x.cmds.mapIdx fun i c => if i = k then (match c.2 with
          | .flush rows => (c.1, RingWait.flush (rows.drop 1))
          | w => (c.1, w)) else c
        .next ((if x.part.isSome then s else s.setRing ctx r { x with cmds := cmds }).ringSettle ctx r)
      | none => match (x.part.map (·.row)).or (s.nextFetch ctx r x) with
        | some a => .next ((if x.rows ≤ a then (s.putRow ctx x a 0).setRing ctx r (x.land a) else s.fetchNext ctx r x a).ringSettle ctx r)
        | none => .next s

/-- A multicast row is for the RECV ring that it names: the ring is registered, and with that source (R195). -/
def State.takesRow (s : State) (c src sr : Nat) (x : Ring) : Bool :=
  x.mode == 2 && x.registered && s.gangCl (c / 4) x.mcf == some (src / 4) && x.dctx == src % 4 && x.dring == sr

/-- A RECV ring's next row as it arrives, written in two steps, a free half of its granules in each (R195, R259). -/
def State.recvRow (s : State) (c r : Nat) (x : Ring) (v : Nat) : State := match x.part with
  | none => s.beginRow c r x x.landed v 0
  | some p => (s.putSome c x x.landed p false).setRing c r { x.land x.landed with part := none }

/-- R195: a multicast row lands at its RECV ring; one whose ring has gone is dropped. -/
def execRingMulticastRow (m : Nat) (s : State) : Out :=
  match s.arrived m with
  | some msg =>
    match msg.act with
    | .ringRow _ c r src sr v _ =>
      match (s.ctx c).ring r with
      | some x =>
        if !s.takesRow c src sr x then .next (((s.take m).setRing c r { x with part := none }).ringSettle c r |>.ringSettle src sr)
        else if x.part.isNone then .next (s.recvRow c r x v)
        else .next ((((s.take m).recvRow c r x v).ringSettle c r).ringSettle src sr)
      | none => .next ((s.take m).ringSettle src sr)
    | _ => .next s
  | none => .next s

/-- Credits of a destination are on their way to a ring. -/
def State.creditsOut (s : State) (g r i : Nat) : Bool := s.net.any fun m => match m.act with
  | .credit _ c q j _ => c == g && q == r && j == i
  | _ => false

/-- R195: a RECV ring registers with the source its words name, once that is an active IN ring that serves it. It brings a credit for
every row of its depth that has not landed. -/
def execRecvRegistration (ctx r : Nat) (s : State) : Out :=
  match (s.ctx ctx).ring r with
  | none => .next s
  | some x =>
    if x.mode ≠ 2 ∨ x.registered then .next s
    else match s.gangCl (ctx / 4) x.mcf with
      | none => .next s
      | some cl =>
        let src := cl * 4 + x.dctx
        let me := (s.cl (ctx / 4)).ti.gangIx
        match (s.ctx src).ring x.dring with
        | none => .next s
        | some y =>
          if y.mode = 0 ∧ y.mcf ≤ me ∧ me < y.mcf + y.mcn ∧ y.dctx = ctx % 4 ∧ y.dring = r ∧ mget 1 y.dests me ≠ 0 ∧
              y.freeing.isNone ∧ !s.creditsOut src x.dring me then
            let s := s.setRing src x.dring { y with dests := mset y.dests me (x.first + x.depth - x.landed + 1) }
            .next ((s.setRing ctx r { x with registered := true }).ringSettle ctx r)
          else .next s

/-- R194: credits reach the source ring. -/
def execRingCreditReturn (m : Nat) (s : State) : Out :=
  match s.arrived m with
  | some msg =>
    match msg.act with
    | .credit _ c r i n =>
      let s := s.take m
      match (s.ctx c).ring r with
      | some x =>
        if x.mode = 0 ∧ mget 0 x.dests i ≠ 0 then
          .next ((s.setRing c r { x with dests := mset x.dests i (mget 0 x.dests i + n) }).ringSettle c r)
        else .next s
      | none => .next s
    | _ => .next s
  | none => .next s

/-- A landed chunk is pushed on the bound register when there is room; after the record's last row the binding ends. The lanes of a
failing word are free (log 63). -/
def State.deliverChunk (s : State) (ctx r : Nat) : State :=
  match (s.ctx ctx).ring r with
  | none => s
  | some x =>
    match x.bind with
    | none => s
    | some (q, ch, n) =>
      if !x.hasLanded n || decide (x.first + x.depth ≤ n) || decide (4 ≤ ((s.ctx ctx).getVQ q).ents.length) ||
          (s.ctx ctx).live != .run then s
      else
        let w := s.takeBytes (ctx / 4) (lsAt (ctx / 4) (x.rowAt n + ch * 256))
        let s := w.2.setCtx ctx ((w.2.ctx ctx).land (.v (28 + q) w.1))
        let last := x.mode == 0 && decide (x.rows ≤ n + 1)
        let s := if last then s.setVBound ctx q none else s
        (s.setRing ctx r { x with bind := if last then none else some (q, ch, n + 1) }).ringSettle ctx r

/-- R197: the delivery of a chunk to the vector queue register bound to a ring. -/
def execRingBoundRowDelivery (ctx r : Nat) (s : State) : Out := .next (s.deliverChunk ctx r)

/-- A read of n bytes of the local store by an operation (R284). -/
def State.lsRead (s : State) (cl pa n : Nat) : Rd Nat :=
  let s := s.readAt cl pa n
  (if s.badAt pa n then .error (6, BitVec.ofNat 64 (s.badVa (offOf pa) pa n)) else .ok (s.load pa n), s)

/-- What one row of an OUT ring writes: address in the record, home in the local store, bytes (R196). -/
def Ring.outParts (x : Ring) (cl a j : Nat) : List (Nat × Nat × Nat) :=
  if recSize x.tr 1 ≤ x.o1 + j then []
  else
    let at_ := lsAt cl (x.rowAt a)
    if isKb x.tr then
      let n := recKbn x.tr
      let nb := x.rowel / 32
      ((List.range nb).filter fun b => decide (x.o0 + 32 * b < recSize x.tr 0)).flatMap fun (b : Nat) =>
        let k := recBlk x.tr (x.o1 + j) x.i2 x.i3 + x.o0 / 32 + b
        [((recBase x.tr + 4 * n * k).toNat, at_ + 4 * n * b, 4 * n), ((recSbase x.tr + 3 * k).toNat, at_ + 4 * n * nb + 3 * b, 3)]
    else
      let z := fmtSize (recFmt x.tr)
      ((List.range x.rowel).filter fun e => decide (x.o0 + e < recSize x.tr 0)).map fun e =>
        ((recAddr x.tr (x.o0 + e) (x.o1 + j) x.i2 x.i3).toNat, at_ + z * e, z)

/-- What one row of an OUT ring writes, read from the local store: address, bytes, value, by granule of each of its parts (R196, R200,
R257). -/
def State.rowWrites (s : State) (cl : Nat) (x : Ring) (a : Nat) : Rd (List (Nat × Nat × Nat)) :=
  let ps := x.outParts cl a x.next
  (readAll (fun p s => s.lsRead cl p.2.1 p.2.2) ps s).andThen fun vs s => (.ok ((ps.zip vs).flatMap fun p => granules p.1.1 p.1.2.2 p.2), s)

/-- One row of an OUT ring read and written to its record row (R196, R200). -/
def State.writeRow (s : State) (cl : Nat) (op : Op) (x : Ring) (a : Nat) : State × Option (Nat × W64) :=
  match s.rowWrites cl x a with
  | (.error e, s) => (s, some e)
  | (.ok ws, s) => s.engWriteAll cl op ws

/-- A half of the granules of a row of an OUT ring, selected by free values, read and written (R259). -/
def State.writeHalf (s : State) (cl : Nat) (op : Op) (x : Ring) (a n : Nat) (sel : Bool) : State × Option (Nat × W64) :=
  match s.rowWrites cl x a with
  | (.error e, s) => (s, some e)
  | (.ok ws, s) => s.engWriteAll cl op (freeHalf n sel ws)

/-- R196: the slice controller accepts the next row of the ring's wrout whose turn it is, in two steps, a free half of its granules in
each (R259); a row that cannot be written whole is written as far as it goes. A wrout that fails, or that is cancelled when it has begun,
writes no more rows, and those it took are retired. -/
def execRingRowWriteAccept (ctx r : Nat) (s : State) : Out :=
  match (s.ctx ctx).ring r with
  | none => .next s
  | some x =>
    let k := x.cmds.findIdx fun c => c.2.retires
    match x.cmds[k]? with
    | some (op, .out done n) =>
      let ends (s : State) (d : Nat) : State :=
        (s.setRing ctx r { x with next := x.next + (d - done), cmds := setAt x.cmds k (op, .out d n), part := none }).ringSettle ctx r
      if (s.ctx ctx).paused && x.part.isNone then .next s
      else if s.opDead op then .next (ends s n)
      else match x.part with
        | none => match s.writeRow (ctx / 4) op x (x.first + done) with
          | (s, some e) => .next (ends (s.opFail op e) n)
          | (_, none) =>
            let p : RowPart := { row := x.first + done, free := s.free, val := 0 }
            let u : State := { s with free := s.free + 16 * x.rowel + 1 }
            .next ((u.writeHalf (ctx / 4) op x (x.first + done) p.free true).1.setRing ctx r { x with part := some p })
        | some p => match s.writeHalf (ctx / 4) op x (x.first + done) p.free false with
          | (s, some e) => .next (ends (s.opFail op e) n)
          | (s, none) => .next (ends s (done + 1))
    | _ => .next s

/-- Block b of slot row r of an ofill, from the ring's rows in the local store (R182). -/
def State.ringBlk (s : State) (cl : Nat) (l : LoadCmd) (x : Ring) (blk0 row r b : Nat) : Rd OBlk :=
  if l.vr ≤ r ∨ l.vk ≤ 32 * b then (.ok (0, 0, 0), s)
  else
    let at_ := lsAt cl (x.rowAt (row + r))
    if x.kb = 0 then
      let z := fmtSize (recFmt x.tr)
      let f := (fmtOf (recFmt x.tr)).getD f32
      let want := min 32 (l.vk - 32 * b)
      (readAll (fun k s => s.lsRead cl (at_ + z * (32 * (blk0 + b) + k)) z) (List.range want) s).andThen fun xs s =>
        let p := kbPack l.n (tab (fun k => if k < want then unpack f (xs.getD k 0) else .fin false 0 0) 32)
        (.ok (pack l.n p.mant, p.scale, p.fl), s)
    else
      let n := x.kb
      (s.lsRead cl (at_ + 4 * n * (blk0 + b)) (4 * n)).andThen fun m s =>
        (s.lsRead cl (at_ + 4 * n * (x.rowel / 32) + 3 * (blk0 + b)) 3).andThen fun sc s =>
          (.ok (cutMant n (l.vk - 32 * b) m, sc, 0), s)

/-- R182: the k-th load under way, an ofill, reads its rows, once they have landed, and writes its slot. -/
def execOfillCompletion (cl k : Nat) (s : State) : Out :=
  match (s.cl cl).loader[k]? with
  | none => .next s
  | some l =>
    match l.src with
    | .tile _ _ => .next s
    | .ring r blk0 row =>
      match (s.ctx l.op.ctx).ring r with
      | none => .next (s.endLoad cl l (.ok []))
      | some x =>
        if !(s.cl cl).loadReady l || !((List.range l.vr).all fun i => x.hasLanded (row + i)) then .next s
        else
          let (res, s) := readAll (fun q s => s.ringBlk cl l x blk0 row (q / 8) (q % 8)) (List.range 512) s
          .next ((s.endLoad cl l res).ringSettle l.op.ctx r)

end Sys2Proof.Machine
end

