-- ==== Sys2Proof/Machine/Remote.lean ====
section
/-! DEFINITION. Remote access: major 0x34, and the packets, answers, translations and tokens behind it (R20, R21, R201, R202,
R206, R208 to R214, R325, R327 to R332). -/
namespace Sys2Proof.Machine

/-! ## Words (R20, R208) -/

def raRank (y : W64) : Nat := fld y 47 17
def raWin (y : W64) : Nat := fld y 38 9
def raOff (y : W64) : Nat := fld y 0 38
/-- A remote address word. -/
def raWord (rank win off : Nat) : W64 := BitVec.ofNat 64 (rank * 2 ^ 47 + win * 2 ^ 38 + off)
def lwHandle (x : W64) : Nat := fld x 0 16
def lwOff (x : W64) : Nat := fld x 16 32
def lwAux (x : W64) : Nat := fld x 48 15
def lwOrdered (x : W64) : Bool := fld x 63 1 == 1

/-- WINDOW with a test number and the remote address word (R21). -/
def winTrap (test : Nat) (ra : W64) : Trap := { cause := 0x10, addr := ra, reason := test }

/-- The extent of a byte-range record (R201). -/
def recExtent (r : List W64) : Nat := recSize r 0 * fmtSize (recFmt r)

/-- Test 3 for a byte-range record (R201). -/
def byteRange3 (r : List W64) : Bool :=
  recNdim r == 1 && recFmt r != 4 && recStride r 0 == (fmtSize (recFmt r) : Int)

/-- Test 6 for a byte-range record (R201). -/
def byteRange6 (r : List W64) : Bool := recExtent r % 4 == 0 && decide (recExtent r ≤ 2 ^ 38)

/-! ## Kinds of operation (R209) -/

/-- Bytes of an element: 8 for fx, rcas and getacc with operation 2 (R208). -/
def RemKind.elem : RemKind → Nat
  | .fx => 8
  | .rcas => 8
  | .getacc 2 => 8
  | _ => 4

/-- The local buffer is read; it is written. -/
def RemKind.readsL : RemKind → Bool
  | .get => false
  | .getro => false
  | _ => true
def RemKind.writesL : RemKind → Bool
  | .get => true
  | .getro => true
  | .rcas => true
  | .getacc _ => true
  | _ => false

/-- What the operation needs of a page at its target (R286). -/
def RemKind.acc : RemKind → Acc
  | .get => .read
  | .getro => .read
  | .put => .write
  | _ => .amo

/-- The operation reads its target; it writes it. -/
def RemKind.reads (k : RemKind) : Bool := decide (k.acc ≠ .write)
def RemKind.writes (k : RemKind) : Bool := decide (k.acc ≠ .read)

/-- The operation answers with data (R210). -/
def RemKind.answers (k : RemKind) : Bool := k.writesL

/-- The right an operation needs is set in an entry (R209). -/
def Frank.allows (f : Frank) : RemKind → Bool
  | .get => f.get
  | .getro => f.get
  | .put => f.put
  | _ => f.acc

/-- New value of an element and its flags, from the old value and the operand (R209). -/
def RemKind.apply (k : RemKind) (old x : Nat) : Nat × Flags :=
  match k with
  | .addf => fAdd f32 .rne old x
  | .adds => ((old + x) % 2 ^ 32, 0)
  | .fx => ((wrap 64 (satS64 (sextNat old 64 + sextNat x 64))).toNat, 0)
  | .maxf => fMinMax f32 true old x
  | .minf => fMinMax f32 false old x
  | .getacc 0 => fAdd f32 .rne old x
  | .getacc 1 => ((old + x) % 2 ^ 32, 0)
  | .getacc 2 => ((wrap 64 (satS64 (sextNat old 64 + sextNat x 64))).toNat, 0)
  | .getacc 3 => fMinMax f32 true old x
  | .getacc 4 => fMinMax f32 false old x
  | .rcas => (if old = x % 2 ^ 64 then x / 2 ^ 64 % 2 ^ 64 else old, 0)
  | _ => (x, 0)

/-! ## Tags (R202) -/

/-- The tag of an access that the issuing context makes to a target rank of a window. -/
def State.tagFor (s : State) (g win rank : Nat) : Tag :=
  let c := s.cl (g / 4)
  match c.locks.find? fun l => l.1 == g && l.2.1 == win && l.2.2.1 == rank with
  | some l => .lock l.2.2.2
  | none =>
    match c.epochs.find? fun e => e.ctx == g && e.win == win && e.start.isNone && e.ending.isNone &&
        decide (e.first ≤ rank ∧ rank < e.first + e.count) with
    | some e => .post (mget 0 e.nums rank)
    | none =>
      let n := mget 0 c.fences win
      if n ≠ 0 ∧ (g, win) ∉ c.shut then .fence n else .none

/-! ## Failures whose address the spec does not state -/

/-- A window command fails: the record's ADDR is a free value (R189; log 6). -/
def State.winFail (s : State) (op : Op) (code : Nat) : State :=
  let (a, s) := s.fresh
  s.opFail op (code, a)

/-! ## Translation at the source (R330) -/

/-- The cached token for an offset that permits an operation. -/
def Cluster.rtcFind (c : Cluster) (p : Packet) : Option RtcEnt :=
  c.rtc.find? fun e => e.rank == p.rank && e.win == p.win && decide (e.lo ≤ p.off ∧ p.off < e.hi) &&
    (!p.kind.reads || e.rd) && (!p.kind.writes || e.wr)

/-- A packet sent with its token, or kept until the target has given one (R330). -/
def State.sendPacket (s : State) (cl : Nat) (p : Packet) : State :=
  let c := s.cl cl
  let dst := (s.rankCl cl p.rank).getD cl
  match c.rtcFind p with
  | some e =>
    let s := s.setCl cl { c with rtc := e :: c.rtc.filter fun x => !decide (x = e) }
    s.send cl dst (.req { p with token := some (e.gen, e.ix) })
  | none =>
    let s := s.setCl cl { c with rtcMisses := min (c.rtcMisses + 1) (2 ^ 32 - 1), rtcWait := c.rtcWait ++ [p] }
    s.send cl dst (.transReq cl p.rank p.win p.off p.kind.reads p.kind.writes p.ra false)

/-- The key of an origin context and a target (R327). -/
def Packet.key (p : Packet) : Nat := p.op.ctx * 2 ^ 17 + p.rank

/-- A packet would run more than 2^23 ahead of the oldest to its target that is not resolved, or one before it waits (R327). -/
def Cluster.tooFar (c : Cluster) (p : Packet) : Bool :=
  (c.seqHeld.any fun q => q.key == p.key) || (match c.seqLive.find? fun e => e.1 == p.key with
    | some e => decide (2 ^ 23 < (mget 0 c.seqOut p.key + 2 ^ 24 - e.2) % 2 ^ 24)
    | none => false)

/-- A new packet numbered toward its target, modulo 2^24, and sent; or held back (R327). -/
def State.launchPacket (s : State) (cl : Nat) (p : Packet) : State :=
  let c := s.cl cl
  if c.tooFar p then s.setCl cl { c with seqHeld := c.seqHeld ++ [p] }
  else
    let n := mget 0 c.seqOut p.key
    (s.setCl cl { c with seqOut := mset c.seqOut p.key ((n + 1) % 2 ^ 24), seqLive := c.seqLive ++ [(p.key, n)] }).sendPacket cl { p with seq := n }

/-- A packet is resolved, as its origin sees it: packets held back behind it go on where they may (R327). -/
def State.seqDone (s : State) (cl : Nat) (p : Packet) : State :=
  let c := s.cl cl
  let held := c.seqHeld
  let s := s.setCl cl { c with seqLive := c.seqLive.erase (p.key, p.seq), seqHeld := [] }
  held.foldl (fun s q => s.launchPacket cl q) s

/-! ## Accesses under way (R210) -/

/-- The access's operation has been accepted at every target: DONE may pass it. -/
def State.noteDone (s : State) (cl : Nat) (op : Op) : State :=
  if (s.cl cl).accs.any fun a => decide (a.op = op) && a.unacc != 0 then s else (s.dropOpTlb op).complete op.ctx op.tl op.num false

/-- A command that waits for a member of another panel (R344). -/
def State.awaitFar (s : State) (cl : Nat) (op : Op) (dst : Nat) : State :=
  if dst < 8192 then s
  else
    let c := s.cl cl
    s.setCl cl { c with unacked := c.unacked ++ [(op, dst)] }

/-- The wait of a command for a member of another panel has ended. -/
def State.heardFar (s : State) (op : Op) : State :=
  let c := s.cl (op.ctx / 4)
  s.setCl (op.ctx / 4) { c with unacked := c.unacked.filter fun u => !decide (u.1 = op) }

/-- A member's part in a collective window command sent to rank 0: to another panel with the member's franking entry (R344; log 12). -/
def State.sendPart (s : State) (cl win : Nat) (p : WinPart) (act : WinPart → MsgDo) : State :=
  let d := (s.rankCl cl 0).getD cl
  if d < 8192 then s.send cl d (act p)
  else (s.awaitFar cl p.op d).send cl d (act { p with entry := some (mget {} (s.cl cl).frank win) })

/-- A started wait whose accesses are all gone (R203 to R207) is carried out: the act that follows is sent. -/
def State.winAct (s : State) (cl : Nat) (w : WinWait) : State :=
  let me := (s.cl cl).ti.rank
  match w.act with
  | .flush => s.opDone w.op
  | .unlock win rank =>
    let c := s.cl cl
    let s := s.setCl cl { c with locks := c.locks.filter fun l => !(l.1 == w.op.ctx && l.2.1 == win && l.2.2.1 == rank) }
    (s.awaitFar cl w.op ((s.rankCl cl rank).getD cl)).send cl ((s.rankCl cl rank).getD cl) (.unlock win w.op)
  | .compl win first count =>
    (List.range' first count).foldl (fun s r => s.send cl ((s.rankCl cl r).getD cl) (.compl win me w.op cl)) s
  | .fence win flags k =>
    s.sendPart cl win { rank := me, op := w.op, word := flags, bad := flags == 0 } (.closeNotice win k)

/-- Every wait of a cluster whose accesses have passed VIS or failed is carried out. -/
def State.settleWaits (s : State) (cl : Nat) : State :=
  let c := s.cl cl
  let isOver (w : WinWait) : Bool := w.ids.all fun i => !c.accs.any fun a => a.id == i
  let ready := c.winWaits.filter isOver
  ready.foldl (fun s w => s.winAct cl w) (s.setCl cl { c with winWaits := c.winWaits.filter fun w => !isOver w })

/-- The entry that a dispatch row leaves where it was applied (R220). -/
def State.noteEntry (s : State) (p : Packet) : State :=
  match p.entry with
  | none => s
  | some (no, w) =>
    { s with dispatches := s.dispatches.map fun d => if d.no = no then { d with entries := d.entries ++ [(p.rank, w)] } else d }

/-- The operation has failed or been cancelled. -/
def State.opFailed (s : State) (op : Op) : Bool := (s.tl op.ctx op.tl).cancelled op.num || (s.tl op.ctx op.tl).failed.contains op.num

/-- Answers to a packet: it has been accepted, or applied, or both, whichever comes first. When every target has accepted the operation
DONE may pass it; the access whose packets are all applied is visible, and VIS may pass the operation with its last. Its flags are set
then (R209, R210). -/
def State.accNote (s : State) (cl : Nat) (p : Packet) (acc app : Bool) (fl : Flags) : State :=
  let s := if app then s.seqDone cl p else s
  let c := s.cl cl
  let step (a : Access) : Access := { a with unacc := a.unacc - bn acc, unapp := a.unapp - bn app, fl := a.fl ||| fl }
  let s := s.setCl cl { c with accs := c.accs.map fun a => if a.id = p.acc then step a else a }
  match (s.cl cl).accs.find? fun a => a.id == p.acc with
  | none => s
  | some a =>
    let s := if a.unacc = 0 ∧ !a.part then s.noteDone cl p.op else s
    if a.unacc ≠ 0 ∨ a.unapp ≠ 0 then s
    else
      let c := s.cl cl
      let s := s.setCl cl { c with accs := c.accs.filter fun b => b.id != p.acc }
      let s := if s.opFailed p.op ∨ a.part then s else
        let s := s.opFlags p.op a.fl
        if (s.cl cl).accs.any fun b => decide (b.op = p.op) then s else s.makeVis p.op.ctx p.op.tl p.op.num
      (s.noteEntry p).settleWaits cl

/-- An access fails with a packet of it still to be resolved at its target (R327). -/
def State.accLost (s : State) (cl : Nat) (p : Packet) (code : Nat) (side : Nat) : State :=
  let c := s.cl cl
  let s := if c.accs.any fun a => a.id == p.acc then s.opFail p.op (code, p.ra) side else s
  let c := s.cl cl
  (s.setCl cl { c with accs := c.accs.filter fun a => a.id != p.acc }).settleWaits cl

/-- An access fails: its operation's timeline enters ERROR with the operation's remote address word, and what waited for it goes on
(R189, R210). -/
def State.accFail (s : State) (cl : Nat) (p : Packet) (code : Nat) (side : Nat) : State :=
  let c := s.cl cl
  let s := if c.accs.any fun a => a.id == p.acc then s.opFail p.op (code, p.ra) side else s
  let c := s.cl cl
  ((s.setCl cl { c with accs := c.accs.filter fun a => a.id != p.acc }).seqDone cl p).settleWaits cl

/-! ## The instructions (R21, R208, R209) -/

/-- The tests of R21, then those that R208 adds to them. -/
def State.winTest (s : State) (kind : RemKind) (multi : Nat) (lw ra len : W64) : Option Trap :=
  let size := s.teamSize s.clNo
  if size ≤ raRank ra then some (winTrap 1 ra)
  else if (mget {} s.myCl.frank (raWin ra)).state = 0 then some (winTrap 2 ra)
  else if raOff ra % 4 ≠ 0 then some (winTrap 3 ra)
  else if len = 0 ∨ len.toNat % 4 ≠ 0 ∨ 2 ^ 24 < len.toNat then some (winTrap 4 ra)
  else if size ≤ raRank ra + multi then some (winTrap 1 ra)
  else if kind.elem = 8 ∧ (raOff ra % 8 ≠ 0 ∨ lwOff lw % 8 ≠ 0) then some (winTrap 3 ra)
  else if kind.elem = 8 ∧ (len.toNat % 8 ≠ 0 ∨ (kind = .rcas ∧ len ≠ 8)) then some (winTrap 4 ra)
  else none

/-- The translations of an engine's buffer, page by page: what an access to it fails with (R208). -/
def State.bufCheck (s : State) (cl : Nat) (op : Op) (va n : Nat) (acc : Acc) : Option (Nat × W64) × State :=
  (pageParts va n).foldl (fun (r : Option (Nat × W64) × State) p => match r.1 with
    | some _ => r
    | none => match r.2.engAccess cl op p.1 acc with
      | .error e => (some e, r.2)
      | .ok _ => (none, r.2.engNote cl op p.1)) (none, s)

/-- The replica lines that an access of n bytes at an offset needs (R213). -/
def linesNeeded (off n : Nat) : List Nat := (List.range ((off + n - 1) / 128 + 1)).filter fun l => decide (off / 128 ≤ l)

/-- A replica line held. -/
def Cluster.replica (c : Cluster) (rank win l : Nat) : Option (BitVec 1024) :=
  (c.replicas.find? fun e => e.1 == raWord rank win (128 * l)).map (·.2.2)

/-- A getro whose lines are all held is served from them (R213). -/
def State.fromReplicas (s : State) (cl rank win off n : Nat) : Option Nat :=
  let c := s.cl cl
  let ls := linesNeeded off n
  if ls.all fun l => (c.replica rank win l).isSome then
    let all := pack 1024 (ls.map fun l => ((c.replica rank win l).getD 0).toNat)
    some (bits all (8 * (off % 128)) (8 * n))
  else none

/-- One access sent to one target, in packets of up to 4,096 bytes (R325), for an operation with a remote address word. late: its operand
has been read, and may be read once more before it is accepted (R259). -/
def State.sendAccess (s : State) (op : Op) (kind : RemKind) (rank win off n data back : Nat) (ordered : Bool) (tag : Tag) (ra : W64)
    (entry : Option (Nat × W64) := none) (row : Option Nat := none) (late : Bool := false) : State :=
  let cl := op.ctx / 4
  let np := (n + 4095) / 4096
  let id := s.nextMsg
  let free := s.free
  let c := s.cl cl
  let s := { s.setCl cl { c with accs := c.accs ++ [{
      id := id, op := op, win := win, rank := rank, tag := tag, unacc := np, unapp := np, part := row.isSome, ra := ra }] }
    with nextMsg := s.nextMsg + 1, free := if late then free + 16 * np else free }
  (List.range np).foldl (fun s k =>
    s.launchPacket cl {
      op := op, acc := id, kind := kind, rank := rank, win := win, tag := tag, off := off + 4096 * k, len := min 4096 (n - 4096 * k)
      data := if kind = .rcas then data else bits data (8 * 4096 * k) (8 * min 4096 (n - 4096 * k))
      back := back + 4096 * k, ordered := ordered, entry := entry, ra := ra, row := row
      late := if late then some (back + 4096 * k, free + 16 * k) else none }) s

/-- The operation once its checks have passed (R208 to R210, R213). -/
def State.remoteGo (s : State) (kind : RemKind) (multi : Nat) (lw ra : W64) (n : Nat) (r : List W64) (op : Op) : State :=
  let cl := s.clNo
  let va := recBase r + lwOff lw
  let span := if kind = .rcas then 16 else n
  let (fault, s) := if kind.readsL then s.bufCheck cl op va span .read else (none, s)
  let (fault, s) := if fault.isNone && kind.writesL then s.bufCheck cl op va span .write else (fault, s)
  match fault with
  | some e => s.opFail op e
  | none =>
    match (if kind = .getro then s.fromReplicas cl (raRank ra) (raWin ra) (raOff ra) n else none) with
    | some v => if s.tagFor s.cur (raWin ra) (raRank ra) = .none then s.opFail op (1, ra) else match s.engWrite cl op va n v with
      | (s, none) => s.opDone op
      | (s, some e) => s.opFail op e
    | none => match (if kind.readsL then s.engRead cl op va span else (.ok 0, s)) with
      | (.error e, s) => s.opFail op e
      | (.ok data, s) => (List.range (multi + 1)).foldl (fun s k =>
          s.sendAccess op kind (raRank ra + k) (raWin ra) (raOff ra) n data va
            (kind == .put && lwOrdered lw) (s.tagFor s.cur (raWin ra) (raRank ra + k)) ra none none kind.readsL) s

/-- A remote operation (R208): k gives its kind from the local word, or none where AUX names no operation. -/
def remote (kindOf : W64 → RemKind) (bad : W64 → Bool) (multi : W64 → Nat) (t : BitVec 3) (x : BitVec 6) (y : BitVec 4) (s : State) : Out :=
  engGate [.x x.toNat, .x (2 * y.toNat), .x (2 * y.toNat + 1)] [] s fun s =>
    let (lw, s) := s.readX x.toNat
    let ra := s.me.getX (2 * y.toNat)
    let len := s.me.getX (2 * y.toNat + 1)
    let kind := kindOf lw
    match s.winTest kind (multi lw) lw ra len with
    | some tr => s.trapNow tr
    | none =>
      let n := len.toNat
      let span := if kind = .rcas then 16 else n
      let rights := [rRemote] ++ (if kind.readsL then [rRd] else []) ++ (if kind.writesL then [rW] else [])
      let t6 (r : List W64) : Bool := byteRange6 r && lwOff lw % 4 == 0 && decide (lwOff lw + span ≤ recExtent r)
      match s.useRec (lwHandle lw) rights byteRange3 t6 with
      | .error tr => s.trapNow tr
      | .ok (r, s) =>
        andThen (s.tlRoom t.toNat 1) s fun s =>
        andThen (if recSpace r = 1 then none else
          (lsSpanTrap s.myCl (recBase r + lwOff lw : Nat) (recBase r + lwOff lw + span : Nat)).map .trap) s fun s =>
          .next (s.withOp t.toNat 1 fun s op =>
            if bad lw then s.opFail op (12, ra) else s.remoteGo kind (multi lw) lw ra n r op)

def noMulti (_ : W64) : Nat := 0
def noBad (_ : W64) : Bool := false

def execGet (t : BitVec 3) (x : BitVec 6) (y : BitVec 4) (s : State) : Out := remote (fun _ => .get) noBad noMulti t x y s
def execPut (t : BitVec 3) (x : BitVec 6) (y : BitVec 4) (s : State) : Out := remote (fun _ => .put) noBad noMulti t x y s
/-- R209: putm, to AUX + 1 ranks. -/
def execPutm (t : BitVec 3) (x : BitVec 6) (y : BitVec 4) (s : State) : Out := remote (fun _ => .put) noBad lwAux t x y s
def execAccAddf (t : BitVec 3) (x : BitVec 6) (y : BitVec 4) (s : State) : Out := remote (fun _ => .addf) noBad noMulti t x y s
def execAccAdds (t : BitVec 3) (x : BitVec 6) (y : BitVec 4) (s : State) : Out := remote (fun _ => .adds) noBad noMulti t x y s
def execAccFx (t : BitVec 3) (x : BitVec 6) (y : BitVec 4) (s : State) : Out := remote (fun _ => .fx) noBad noMulti t x y s
def execAccMaxf (t : BitVec 3) (x : BitVec 6) (y : BitVec 4) (s : State) : Out := remote (fun _ => .maxf) noBad noMulti t x y s
def execAccMinf (t : BitVec 3) (x : BitVec 6) (y : BitVec 4) (s : State) : Out := remote (fun _ => .minf) noBad noMulti t x y s
/-- R209: getacc; operations 6 and 7 record BADARG. -/
def execGetacc (t : BitVec 3) (x : BitVec 6) (y : BitVec 4) (s : State) : Out :=
  remote (fun lw => .getacc (lwAux lw % 8)) (fun lw => decide (6 ≤ lwAux lw % 8)) noMulti t x y s
def execRcas (t : BitVec 3) (x : BitVec 6) (y : BitVec 4) (s : State) : Out := remote (fun _ => .rcas) noBad noMulti t x y s
def execGetro (t : BitVec 3) (x : BitVec 6) (y : BitVec 4) (s : State) : Out := remote (fun _ => .getro) noBad noMulti t x y s

/-! ## At the target's port (R202, R327 to R329) -/

/-- The tests of R202: the code of the first that fails. -/
def Frank.test (f : Frank) (p : Packet) (origin : Nat) : Option Nat :=
  let closed := match p.tag with
    | .none => true
    | .fence n => !(f.state == 2 && f.num == n)
    | .post n => !(f.state == 3 && f.num == n)
    | .lock n => !f.holders.any fun h => h.1 == p.op.ctx && h.2.1 == n
  if closed then some 1
  else if (match p.tag with
    | .post _ => !decide (f.first ≤ origin ∧ origin < f.first + f.count)
    | _ => false) then some 2
  else if !f.allows p.kind then some 3
  else if f.len < p.off + p.len then some 4
  else none

/-- The count of a port over the numbers resolved above it, which it takes as it passes them (R327). -/
def runUp : Nat → Nat → List Nat → Nat × List Nat
  | 0, b, l => (b, l)
  | f + 1, b, l => if l.contains b then runUp f ((b + 1) % 2 ^ 24) (l.erase b) else (b, l)

/-- A packet's number resolved at the port: everything below the count has been applied or rejected (R327). -/
def State.resolveSeq (s : State) (cl g n : Nat) : State :=
  let c := s.cl cl
  let mine := n :: (c.resolvedAbove.filter fun e => e.1 == g).map (·.2)
  let (up, left) := runUp mine.length (mget 0 c.resolved g) mine
  s.setCl cl { c with
    resolved := mset c.resolved g up
    resolvedAbove := (c.resolvedAbove.filter fun e => e.1 != g) ++ left.map fun n => (g, n) }

/-- Every earlier packet of the origin context to this port has been resolved. -/
def Cluster.seqReady (c : Cluster) (p : Packet) : Bool := mget 0 c.resolved p.op.ctx == p.seq

/-- For whom a port translates: the team's contexts, at USER (R330, R354). -/
def State.portAgent (s : State) (cl : Nat) : Agent := { slot := (s.cl cl).ti.slot }

/-- The home of byte off of a window at its member, through a token's page where it lies in it, else through the page of its
own (R329); a frame that is not open to the team is refused (R354). -/
def State.tokenHome (s : State) (cl : Nat) (f : Frank) (t : Token) (acc : Acc) (off : Nat) : Except Trap Nat :=
  let va := f.base + off
  if va < lsTop then .ok (lsAt cl va)
  else if t.va ≤ va ∧ va < t.va + t.size then
    (if s.refused cl (t.home + (va - t.va)) (s.portAgent cl) then .error (protTrap (BitVec.ofNat 64 va) acc 1) else .ok (t.home + (va - t.va)))
  else s.translate cl (s.portAgent cl) true true (BitVec.ofNat 64 va) acc

/-- The homes of consecutive units of z bytes from off on, or the first translation that fails (R206, R329). -/
def State.unitHomes (s : State) (cl : Nat) (f : Frank) (t : Token) (acc : Acc) (z off : Nat) : Nat → Except Trap (List Nat)
  | 0 => .ok []
  | n + 1 => match s.tokenHome cl f t acc off with
    | .error e => .error e
    | .ok pa => match s.unitHomes cl f t acc z (off + z) n with
      | .error e => .error e
      | .ok l => .ok (pa :: l)

/-- The homes of a packet's elements. -/
def State.packetHomes (s : State) (cl : Nat) (f : Frank) (t : Token) (p : Packet) : Except Trap (List Nat) :=
  s.unitHomes cl f t p.kind.acc p.kind.elem p.off (p.len / p.kind.elem)

/-- Element k of a packet applied at its home: the old value and the flags (R209). -/
def State.applyElem (s : State) (cl : Nat) (p : Packet) (k pa : Nat) : (Nat × Flags) × State :=
  let z := p.kind.elem
  let s := if !p.kind.reads then s else if p.kind.writes then s.readRed cl pa z else s.readAt cl pa z
  let old := if p.kind.reads then s.load pa z else 0
  if !p.kind.writes then ((old, 0), s)
  else
    let x := if p.kind = .rcas then p.data else bits p.data (8 * z * k) (8 * z)
    let (v, fl) := p.kind.apply old x
    ((old, fl), if p.kind = .put then s.perform pa z v (some cl) else s.performRed pa z v (some cl))

/-- Every element of a packet in turn: the old values and the flags. -/
def State.applyAll (s : State) (cl : Nat) (p : Packet) : Nat → List Nat → (List Nat × Flags) × State
  | _, [] => (([], 0), s)
  | k, pa :: pas =>
    let ((o, fl), s) := s.applyElem cl p k pa
    let ((os, fls), s) := s.applyAll cl p (k + 1) pas
    ((o :: os, fl ||| fls), s)

/-- The stamp of a tag group: its key number and counter. -/
def IczGroup.stamp (g : IczGroup) : Nat := g.key * 2 ^ 48 + g.counter

/-- The group that a skid packet came in has not been checked yet: the port and the group's stamp (R339). -/
def State.unchecked (s : State) (p : Packet) : Option (Nat × Nat) :=
  p.early.filter fun e => (s.port e.1).rx.any fun g => g.released && g.stamp == e.2

/-- An answer to a packet: one to a skid packet whose group is not yet checked waits for that (R339). -/
def State.respond (s : State) (cl : Nat) (p : Packet) (act : MsgDo) : State := match s.unchecked p with
  | none => s.send cl (p.op.ctx / 4) act
  | some (k, st) =>
    let x := s.port k
    s.setPort k { x with early := x.early ++ [(st, cl, p.op.ctx / 4, act)] }

/-- The interval that a skid packet changes before its group is checked (R340). -/
def State.touch (s : State) (cl : Nat) (p : Packet) : State := match s.unchecked p with
  | none => s
  | some (k, st) =>
    let x := s.port k
    s.setPort k { x with touched := x.touched ++ [(st, cl, p.win, (mget {} (s.cl cl).frank p.win).num)] }

/-- A rejection at a target, counted where counted says, and logged with the origin's rank and the remote address word (R189, R202,
R329, R382). -/
def State.noteReject (s : State) (cl win src : Nat) (ra : W64) (code : Nat) (counted : Bool) : State :=
  let c := s.cl cl
  let f := mget {} c.frank win
  let origin := (c.ti.ranks.findIdx? (· == src)).getD 0
  let s := if counted then s.setCl cl { c with frank := mset c.frank win { f with rej := min (f.rej + 1) 65535, lastOrg := origin } } else s
  s.logEntry (siteOf cl) 3 (some cl) code 3 ra.toNat origin

/-- A packet rejected. -/
def State.rejectPacket (s : State) (cl : Nat) (p : Packet) (code : Nat) (counted : Bool := true) : State :=
  (s.noteReject cl p.win (p.op.ctx / 4) p.ra code counted).respond cl p (.reject p code)

/-- The first of a packet's homes of which a word that it reads fails (R284). -/
def State.badHome (s : State) (p : Packet) (pas : List Nat) : Option Nat :=
  if !p.kind.reads || s.bad.isEmpty then none else pas.find? fun pa => s.badAt pa p.kind.elem

/-- What a translation at a port fails with: RIGHTS for a frame not open to the team (R354), else XLATE (R206). -/
def portCode (t : Trap) : Nat := if t.cause = 0x05 ∧ t.detail = 1 then 3 else 5

/-- The homes of a packet whose accesses will all succeed; else the packet is rejected before it has an effect (R206, R329). -/
def State.clearPacket (s : State) (cl : Nat) (p : Packet) (t : Token) : State × Option (List Nat) :=
  let reject (s : State) (code : Nat) : State := (s.rejectPacket cl p code).resolveSeq cl p.op.ctx p.seq
  match s.packetHomes cl { mget {} (s.cl cl).frank p.win with base := p.base } t p with
  | .error tr => (reject (s.logFor cl (s.portAgent cl) tr) (portCode tr), none)
  | .ok pas => match s.badHome p pas with
    | some pa => (reject (s.logBad cl pa p.kind.elem) 6, none)
    | none => (s, some pas)

/-- A line that a getro reads whole, where it lies in the window and can be read: it passes the slice cache (R213, R269). -/
def State.wholeLine (s : State) (cl : Nat) (f : Frank) (t : Token) (l : Nat) : List (Nat × Nat) × State :=
  if f.len < 128 * l + 128 then ([], s)
  else match s.unitHomes cl f t .read 4 (128 * l) 32 with
    | .error _ => ([], s)
    | .ok pas =>
      if pas.any fun pa => s.badAt pa 4 then ([], s)
      else
        let s := pas.foldl (fun s pa => s.readAt cl pa 4) s
        ([(l, pack 32 (pas.map fun pa => s.load pa 4))], s)

/-- The lines that a getro reads whole: those of the window that meet its bytes (R213). -/
def State.wholeLines (s : State) (cl : Nat) (f : Frank) (t : Token) (p : Packet) : List (Nat × Nat) × State :=
  if p.kind ≠ .getro then ([], s)
  else (unitsOf 128 p.off p.len).foldl (fun a l =>
    let (x, s) := a.2.wholeLine cl f t l
    (a.1 ++ x, s)) ([], s)

/-- The entry of the token that a packet carries, while it names the packet's window. -/
def Cluster.tokenOf (c : Cluster) (p : Packet) : Option Token :=
  match p.token with
  | none => none
  | some (gen, ix) =>
    let t := mget {} c.tokens ix
    if t.state ≠ 0 ∧ t.gen = gen ∧ t.win = p.win then some t else none

/-- The token a packet carries, if it is live and names the packet's window (R329 step 3). -/
def Cluster.liveToken (c : Cluster) (p : Packet) : Option Token := (c.tokenOf p).filter fun t => t.state == 1

/-- Revoked tokens that every holder has acknowledged, and under which every packet accepted has been applied, become FREE (R332). -/
def State.settleTokens (s : State) (cl : Nat) : State :=
  let c := s.cl cl
  let gone (ix : Nat) (t : Token) : Bool := t.state == 2 && t.acks == 0 && !(c.held.any fun p => decide (p.token = some (t.gen, ix)))
  if c.tokens.any fun e => gone e.1 e.2 then
    s.setCl cl { c with tokens := c.tokens.map fun e => if gone e.1 e.2 then (e.1, { e.2 with state := 0 }) else e }
  else s

/-- A packet that has been accepted applied at the home, with its answer (R209, R210, R329 step 4). One from this very cluster is
answered accepted only now: a wait that has seen it DONE acquires its write here (R260). -/
def State.applyPacket (s : State) (cl : Nat) (p : Packet) : State :=
  let f : Frank := { mget {} (s.cl cl).frank p.win with base := p.base }
  let t := ((s.cl cl).tokenOf p).getD {}
  match s.clearPacket cl p t with
  | (s, none) => s.settleTokens cl
  | (s, some pas) =>
    let (lines, s) := s.wholeLines cl f t p
    let ((olds, fl), s) := s.applyAll cl p 0 pas
    let s := ((s.touch cl p).resolveSeq cl p.op.ctx p.seq).settleTokens cl
    if p.kind.answers then s.respond cl p (.data p (pack (8 * p.kind.elem) olds) fl lines)
    else (if p.op.ctx / 4 = cl then s.respond cl p (.accepted p) else s).respond cl p (.applied p fl)

/-- A request packet tested in the order of R329: rejected, answered STALE, or accepted. When an accepted packet is applied is free
within the bound of a context's own accesses, but for the order of R327 (log 66). -/
def State.testPacket (s : State) (cl : Nat) (p : Packet) : State :=
  let c := s.cl cl
  match c.ti.ranks.findIdx? (· == p.op.ctx / 4) with
  | none => s.rejectPacket cl p 2 false
  | some origin =>
    match (mget {} c.frank p.win).test p origin with
    | some code => (s.rejectPacket cl p code).resolveSeq cl p.op.ctx p.seq
    | none =>
      match c.liveToken p with
      | none => s.respond cl p (.stale p)
      | some t =>
        let p := { p with base := (mget {} c.frank p.win).base }
        match s.clearPacket cl p t with
        | (s, none) => s
        | (s, some _) =>
          let (v, s) := s.fresh
          let c := s.cl cl
          let s := s.setCl cl { c with held := c.held ++ [{ p with due := c.cycle + v.toNat % Config.postBound }] }
          if p.kind.answers || p.op.ctx / 4 == cl then s else s.respond cl p (.accepted p)

/-- The elements of a number, n bytes in units of z: each with its place. -/
def unitList (z n v : Nat) : List (Nat × Nat) := (List.range (n / z)).map fun i => (i, bits v (8 * z * i) (8 * z))

/-- An operand read once more as its packet reaches the target, before that accepts it: the elements that the free values select are
those read now, the others those read at issue (R257, R259). A packet whose operation has ended, or whose context runs no more, keeps
what it has. -/
def State.reread (s : State) (p : Packet) : Rd Packet :=
  match p.late with
  | none => (.ok p, s)
  | some (va, k) =>
    let cl := p.op.ctx / 4
    let n := p.payload
    if 8192 ≤ cl ∨ s.opFailed p.op ∨ (s.ctx p.op.ctx).live ≠ .run ∨ !(s.cl cl).accs.any (fun a => a.id == p.acc) then (.ok { p with late := none }, s)
    else (s.engRead cl p.op va n).andThen fun v s =>
      let z := p.kind.elem
      (.ok { p with
        late := none
        data := pack (8 * z) ((unitList z n v).map fun e => if (Config.freeWord (k + e.1 / 64)).getLsbD (e.1 % 64) then e.2 else bits p.data (8 * z * e.1) (8 * z)) }, s)

/-- R329: a request packet reaches the port of its target cluster. One whose operand cannot be read again is not sent after all: its
access fails (R189). -/
def execRemoteRequestArrival (m : Nat) (s : State) : Out :=
  match s.arrived m with
  | some msg => match msg.act with
    | .req p => match (s.take m).reread p with
      | (.ok p, s) => .next (s.testPacket msg.dst p)
      | (.error e, s) => .next (((s.opFail p.op e).accFail (p.op.ctx / 4) p e.1 0).resolveSeq msg.dst p.op.ctx p.seq)
    | _ => .next s
  | none => .next s

/-- R327, R329: the m-th packet held at any port in order of clusters is applied once its time has come; an ordered one waits for every
earlier one to be resolved. -/
def execOrderedPacketRelease (m : Nat) (s : State) : Out :=
  let held := s.clusters.flatMap fun e => e.2.held.map fun p => (e.1, p)
  match held[m]? with
  | none => .next s
  | some (cl, p) =>
    let c := s.cl cl
    if (p.ordered && !c.seqReady p) || decide (c.cycle < p.due) then .next s
    else .next ((s.setCl cl { c with held := c.held.erase p }).applyPacket cl p)

/-! ## Answers at the source (R210, R213, R332) -/

/-- A line kept as a replica: at most 4 of the 16 ways of its set (R213, R269). -/
def Cluster.keepReplica (c : Cluster) (ra : W64) (tok : Nat) (v : BitVec 1024) : Cluster :=
  let set (w : W64) : Nat := fld w 0 40 / 128 % 1024
  let k := set ra
  let old := c.replicas.filter fun e => e.1 != ra
  let reps := (ra, tok, v) :: (old.filter fun e => set e.1 == k).take 3
  { c with
    replicas := reps ++ old.filter fun e => set e.1 != k
    slc := mset c.slc k ((mget [] c.slc k).take (16 - reps.length)) }

/-- The lines that a getro fetched installed, unless their token was invalidated while the fetch was under way (R213, R332). -/
def State.keepReplicas (s : State) (cl : Nat) (p : Packet) (lines : List (Nat × Nat)) : State :=
  match p.token with
  | none => s
  | some (gen, ix) =>
    if (s.cl cl).accs.any fun a => a.id == p.acc && a.dead.contains (gen, ix) then s
    else s.setCl cl (lines.foldl (fun c l =>
      c.keepReplica (raWord p.rank p.win (128 * l.1)) (gen * 1024 + ix) (BitVec.ofNat 1024 l.2)) (s.cl cl))

/-- A cache entry dropped, and the packet sent again after a new translation (R332). -/
def State.resend (s : State) (cl : Nat) (p : Packet) : State :=
  let c := s.cl cl
  let rtc := match p.token with
    | some (gen, ix) => c.rtc.filter fun e => !(e.rank == p.rank && e.gen == gen && e.ix == ix)
    | none => c.rtc
  (s.setCl cl { c with rtc := rtc }).sendPacket cl { p with token := none }

/-- A row that a combine asked for has come: kept with its command (R221). -/
def State.keepRow (s : State) (cl : Nat) (p : Packet) (row v : Nat) : State :=
  let x := s.site (siteOf cl)
  s.setSite (siteOf cl) { x with office := x.office.map fun c => if c.op = p.op then { c with rows := c.rows ++ [(row, p.back, v)] } else c }

/-- The writes by which an answer's data are delivered, element by element (R257). -/
def Packet.delivery (p : Packet) (v : Nat) : List (Nat × Nat × Nat) :=
  (unitList p.kind.elem p.len v).map fun e => (p.back + p.kind.elem * e.1, p.kind.elem, e.2)

/-- The data of an answer delivered, but for the elements that its first step has written (R209, R210, R221). -/
def State.takeData (s : State) (cl : Nat) (p : Packet) (v : Nat) (fl : Flags) (lines : List (Nat × Nat)) : State :=
  if !(s.cl cl).accs.any (fun a => a.id == p.acc) then s.seqDone cl p
  else match p.row with
    | some row => (s.keepRow cl p row v).accNote cl p true true 0
    | none =>
      let ws := p.delivery v
      match s.engWriteAll cl p.op (match p.half with
        | some k => freeHalf k false ws
        | none => ws) with
      | (s, some e) => (s.opFail p.op e).accFail cl p e.1 0
      | (s, none) => (s.keepReplicas cl p lines).accNote cl p true true fl

/-- An answer's data reach their buffer in two steps, a free half of the elements in each (R259); the message is done with after the
second, or when a write fails. -/
def State.dataStep (s : State) (cl m : Nat) (p : Packet) (v : Nat) (fl : Flags) (lines : List (Nat × Nat)) : State :=
  if p.half.isSome ∨ p.row.isSome ∨ !(s.cl cl).accs.any (fun a => a.id == p.acc) then (s.take m).takeData cl p v fl lines
  else
    let ws := p.delivery v
    let u : State := { s with free := s.free + ws.length / 64 + 1 }
    match u.engWriteAll cl p.op (freeHalf s.free true ws) with
    | (t, some e) => ((t.take m).opFail p.op e).accFail cl p e.1 0
    | (t, none) => t.setAct m (.data { p with half := some s.free } v fl lines)

/-- R210: an answer reaches its origin. -/
def execRemoteResponseArrival (m : Nat) (s : State) : Out :=
  match s.arrived m with
  | some msg =>
    let cl := msg.dst
    let s' := s.take m
    match msg.act with
    | .accepted p => .next (s'.accNote cl p true false 0)
    | .applied p fl => .next (s'.accNote cl p false true fl)
    | .data p v fl lines => .next (s.dataStep cl m p v fl lines)
    | .reject p code => .next (s'.accFail cl p code 1)
    | .stale p => .next (s'.resend cl p)
    | _ => .next s
  | none => .next s

/-! ## Translation and tokens (R330 to R332) -/

/-- Invalidations of a token sent to its holders (R332 steps 1 and 2). -/
def State.revoke (s : State) (cl ix : Nat) : State :=
  let c := s.cl cl
  let t := mget {} c.tokens ix
  if t.state ≠ 1 then s
  else
    let hs := if t.bcast then c.ti.ranks else t.holders
    let s := s.setCl cl { c with tokens := mset c.tokens ix { t with state := 2, acks := hs.length, wait := hs } }
    (hs.foldl (fun s d => s.send cl d (.inval cl t.gen ix)) s).settleTokens cl

/-- The LIVE token issued least recently. -/
def Cluster.oldestToken (c : Cluster) : Option Nat :=
  ((c.tokens.filter fun e => e.2.state == 1).foldl (fun (b : Option (Nat × Nat)) e =>
    match b with
    | none => some (e.1, e.2.age)
    | some (i, a) => if e.2.age < a then some (e.1, e.2.age) else some (i, a)) none).map (·.1)

/-- A token index free for use. -/
def Cluster.freeToken (c : Cluster) : Option Nat := (List.range 1024).find? fun i => (mget {} c.tokens i).state == 0

/-- A holder added to a token; the ninth makes it BCAST (R331). -/
def Token.hold (t : Token) (src : Nat) : Token :=
  if t.bcast || t.holders.contains src then t
  else if 8 ≤ t.holders.length then { t with bcast := true } else { t with holders := t.holders ++ [src] }

/-- The page of a window that holds an offset, as a token: its virtual address, size, home, and what its leaf permits (R330). The access
that asks needs acc of it. -/
def State.windowPage (s : State) (cl : Nat) (f : Frank) (off : Nat) (acc : Acc) : Except Trap Token :=
  let va := f.base + off
  if va < lsTop then .ok { va := f.base, size := f.len, home := lsAt cl f.base }
  else
    let a := s.portAgent cl
    match s.translate cl a true true (BitVec.ofNat 64 va) acc, s.leafFor cl a true va with
    | .ok pa, .ok (l, e) =>
      let sz := 2 ^ pageBits l
      .ok { va := va / sz * sz, size := sz, home := pa - va % sz, rd := fld e 2 1 == 1, wr := fld e 3 1 == 1 }
    | .error t, _ => .error t
    | _, .error _ => .error (xlateTrap (BitVec.ofNat 64 va) 2 2)

/-- The access that a translation request is for. -/
def reqAcc (rd wr : Bool) : Acc := if !wr then .read else if rd then .amo else .write

/-- The token issued: its cache entry goes to the source (R330, R331). -/
def State.issueToken (s : State) (cl src rank win ix : Nat) (t : Token) : State :=
  let c := s.cl cl
  let f := mget {} c.frank win
  (s.setCl cl { c with tokens := mset c.tokens ix (t.hold src) }).send cl src (.transOk {
    rank := rank, win := win, lo := t.va - f.base, hi := min f.len (t.va + t.size - f.base), gen := t.gen, ix := ix, rd := t.rd, wr := t.wr })

/-- R330: a translation request at the target's port. A request that finds the token table full first revokes the LIVE entry issued
least recently, and waits (R331). -/
def execTranslationRequest (m : Nat) (s : State) : Out :=
  match s.arrived m with
  | some msg =>
    match msg.act with
    | .transReq src rank win off rd wr ra room =>
      let cl := msg.dst
      let f := mget {} (s.cl cl).frank win
      let fail (s : State) (code : Nat) : Out :=
        .next (((s.take m).noteReject cl win src ra code true).send cl src (.transFail rank win off code rd wr))
      if f.state = 0 ∨ f.len ≤ off then fail s 4
      else match s.windowPage cl f off (reqAcc rd wr) with
        | .error tr => fail (s.logFor cl (s.portAgent cl) tr) (portCode tr)
        | .ok t =>
          let s := if t.va < lsTop then s else s.noteTlb cl (s.portAgent cl) true (f.base + off)
          let c := s.cl cl
          match c.tokens.find? fun e => e.2.state == 1 && e.2.win == win && e.2.va == t.va && e.2.home == t.home &&
              e.2.rd == t.rd && e.2.wr == t.wr with
          | some (ix, old) => .next ((s.take m).issueToken cl src rank win ix old)
          | none =>
            match c.freeToken with
            | none => match c.oldestToken.filter fun _ => !room with
              | some ix =>
                let s : State := { s with net := s.net.map fun (x : Msg) =>
                  if x.id = m then { x with act := .transReq src rank win off rd wr ra true } else x }
                .next (s.revoke cl ix)
              | none => .next s
            | some ix =>
              let t : Token := { t with win := win, gen := ((mget {} c.tokens ix).gen + 1) % 2 ^ 22, state := 1, age := c.tokAge }
              .next (((s.take m).setCl cl { c with tokAge := c.tokAge + 1 }).issueToken cl src rank win ix t)
    | _ => .next s
  | none => .next s

/-- A packet that is never sent counts as resolved at its target (R327). -/
def State.skipSeq (s : State) (p : Packet) : State :=
  match s.rankCl (p.op.ctx / 4) p.rank with
  | some d => s.resolveSeq d p.op.ctx p.seq
  | none => s

/-- The packets of a cluster that sel selects wait for a translation no more. -/
def State.takeWaiting (s : State) (cl : Nat) (sel : Packet → Bool) : List Packet × State :=
  let c := s.cl cl
  (c.rtcWait.filter sel, s.setCl cl { c with rtcWait := c.rtcWait.filter fun p => !sel p })

/-- A packet waits for the reply that a cache entry brings, or for one that a request failed with. -/
def Packet.waitsFor (e : RtcEnt) (p : Packet) : Bool :=
  p.rank == e.rank && p.win == e.win && decide (e.lo ≤ p.off ∧ p.off < e.hi) && (!p.kind.reads || e.rd) && (!p.kind.writes || e.wr)
def Packet.asked (rank win off : Nat) (rd wr : Bool) (p : Packet) : Bool :=
  p.rank == rank && p.win == win && p.off == off && p.kind.reads == rd && p.kind.writes == wr

/-- R330: the reply: the token is cached and the packets that waited for it are sent; or they fail, side 1. -/
def execTranslationReply (m : Nat) (s : State) : Out :=
  match s.arrived m with
  | some msg =>
    let cl := msg.dst
    match msg.act with
    | .transOk e =>
      let (go, s) := (s.take m).takeWaiting cl (Packet.waitsFor e)
      let c := s.cl cl
      let s := s.setCl cl { c with rtc := (e :: c.rtc.filter fun x => !decide (x = e)).take 64 }
      .next (go.foldl (fun s p => s.sendPacket cl p) s)
    | .transFail rank win off code rd wr =>
      let (go, s) := (s.take m).takeWaiting cl (Packet.asked rank win off rd wr)
      .next (go.foldl (fun s p => (s.accFail cl p code 1).skipSeq p) s)
    | _ => .next s
  | none => .next s

/-- R332 step 3: a holder drops what came through the token and acknowledges. -/
def execTokenInvalidation (m : Nat) (s : State) : Out :=
  match s.arrived m with
  | some msg =>
    match msg.act with
    | .inval port gen ix =>
      let s := s.take m
      let cl := msg.dst
      let c := s.cl cl
      let rank (e : RtcEnt) : Bool := s.rankCl cl e.rank == some port
      let from_ (w : W64) : Bool := s.rankCl cl (raRank w) == some port
      let s := s.setCl cl { c with
        accs := c.accs.map fun a => if s.rankCl cl a.rank = some port then { a with dead := (gen, ix) :: a.dead } else a
        rtc := c.rtc.filter fun e => !(rank e && e.gen == gen && e.ix == ix)
        replicas := c.replicas.filter fun e => !(from_ e.1 && e.2.1 == gen * 1024 + ix) }
      .next (s.send cl port (.invalAck ix gen))
    | _ => .next s
  | none => .next s

/-- Holder h of a token counts as having acknowledged its invalidation, once (R332 step 4). -/
def State.ackToken (s : State) (cl ix gen h : Nat) : State :=
  let c := s.cl cl
  let t := mget {} c.tokens ix
  if t.state = 2 ∧ t.gen = gen ∧ h ∈ t.wait then
    (s.setCl cl { c with tokens := mset c.tokens ix { t with acks := t.acks - 1, wait := t.wait.erase h } }).settleTokens cl
  else s

/-- R332 step 4: an acknowledgement. -/
def execTokenInvalidationAck (m : Nat) (s : State) : Out :=
  match s.arrived m with
  | some msg =>
    match msg.act with
    | .invalAck ix gen => .next ((s.take m).ackToken msg.dst ix gen msg.src)
    | _ => .next s
  | none => .next s

end Sys2Proof.Machine
end

