-- ==== Sys2Proof/Machine/Windows.lean ====
section
/-! DEFINITION. Exposure windows: major 0x33 and the notices behind it (R201 to R207, R328). -/
namespace Sys2Proof.Machine

/-- The window number of a command: bits [8:0]. -/
def winOf (x : W64) : Nat := fld x 0 9

/-- The issuing member's franking entry. -/
def State.myFrank (s : State) (w : Nat) : Frank := mget {} s.myCl.frank w
def State.setFrank (s : State) (cl w : Nat) (f : Frank) : State :=
  let c := s.cl cl
  s.setCl cl { c with frank := mset c.frank w f }

/-- The place that the issuing member's next collective command on a window takes in its sequence (R201). -/
def State.takePlace (s : State) (w : Nat) : Nat × State :=
  let c := s.myCl
  let k := mget 0 c.winSeq w
  (k, s.setMyCl { c with winSeq := mset c.winSeq w (k + 1) })

/-- A member's notice to every member: the model keeps the team's matching in one place, at rank 0's port (log 12). -/
def State.toTeam (s : State) (kind win k : Nat) (p : WinPart) : State := s.sendPart s.clNo win p (.winNotice kind win k)

/-- A command with its words read and its number taken (R188): k, or where its timeline cancels it at once dead. One that releases the
context's stores is held in BLOCK until those to pigeonhole memory are performed (R261, log 65). -/
def winCmd (t : BitVec 3) (rel : Bool) (k : State → Op → State) (s : State) (dead : State → Op → State := fun s _ => s) : Out :=
  andThen (s.tlRoom t.toNat 1) s fun s =>
  andThen (if rel && s.pigPending s.cur then some (.hold .block) else none) s fun s =>
    let op := s.newOp t.toNat
    let s := s.takeNums s.cur t.toNat 1
    .next (if s.opDead op then dead s op else k s op)

/-- A collective command that is cancelled as it issues takes its place in the window's sequence (R201); those matched with it record
WSTATE (log 67). -/
def State.deadPart (kind w : Nat) (s : State) (op : Op) : State :=
  let (k, s) := s.takePlace w
  s.toTeam kind w k { rank := s.myCl.ti.rank, op := op, word := 0, bad := true, dead := true }

/-- R201: wnew. -/
def execWnew (t : BitVec 3) (x y : BitVec 6) (s : State) : Out :=
  engGate [.x x.toNat, .x y.toNat] [] s fun s =>
    let (d, s) := s.readX x.toNat
    let (h, s) := s.readX y.toNat
    match s.useRec (fld h 0 16) [rRemote] byteRange3 byteRange6 with
    | .error tr => s.trapNow tr
    | .ok (r, s) => winCmd t false (fun s op =>
        let (k, s) := s.takePlace (winOf d)
        s.toTeam 0 (winOf d) k {
          rank := s.myCl.ti.rank, op := op, word := fld d 9 4, base := recBase r, len := recExtent r }) s (State.deadPart 0 (winOf d))

/-- R207: wfree. -/
def execWfree (t : BitVec 3) (x : BitVec 6) (s : State) : Out :=
  engGate [.x x.toNat] [] s fun s =>
    let (w, s) := s.readX x.toNat
    winCmd t false (fun s op =>
      let (k, s) := s.takePlace (winOf w)
      s.toTeam 2 (winOf w) k { rank := s.myCl.ti.rank, op := op, word := 0 }) s (State.deadPart 2 (winOf w))

/-- Numbers of the accesses under way that a command waits for. -/
def Cluster.accIds (c : Cluster) (f : Access → Bool) : List Nat := (c.accs.filter f).map (·.id)

/-- A wait entered, and carried out at once where nothing is under way. -/
def State.waitFor (s : State) (cl : Nat) (w : WinWait) : State :=
  let c := s.cl cl
  (s.setCl cl { c with winWaits := c.winWaits ++ [w] }).settleWaits cl

/-- R203: wfence. The context's fence epoch stops being open at issue; the close notice follows the member's accesses. -/
def execWfence (t : BitVec 3) (x y : BitVec 6) (s : State) : Out :=
  engGate [.x x.toNat, .x y.toNat] [] s fun s =>
    let (w, s) := s.readX x.toNat
    let (f, s) := s.readX y.toNat
    winCmd t true (fun s op =>
      let (k, s) := s.takePlace (winOf w)
      let c := s.myCl
      let s := s.setMyCl { c with shut := c.shut ++ [(s.cur, winOf w)] }
      s.waitFor s.clNo { op := op, ids := c.accIds fun a => a.win == winOf w, act := .fence (winOf w) (fld f 0 2) k }) s (State.deadPart 1 (winOf w))

/-- The group word (R204): none where it is out of range. -/
def State.groupOf (s : State) (y : W64) : Option (Nat × Nat) :=
  let first := fld y 0 17
  let count := fld y 17 17
  if count = 0 ∨ s.teamSize s.clNo < first + count then none else some (first, count)

/-- R204: wpost. -/
def execWpost (t : BitVec 3) (x y : BitVec 6) (s : State) : Out :=
  engGate [.x x.toNat, .x y.toNat] [] s fun s =>
    let (w, s) := s.readX x.toNat
    let (g, s) := s.readX y.toNat
    winCmd t true (fun s op =>
      match s.groupOf g with
      | none => s.winFail op 12
      | some (first, count) =>
        let f := s.myFrank (winOf w)
        if f.state ≠ 1 then s.winFail op 9
        else
          let me := s.myCl.ti.rank
          let s := s.setFrank s.clNo (winOf w) { f with
            state := 3, num := f.num + 1, tainted := false, first := first, count := count, compl := [], wait := none }
          let s := (List.range' first count).foldl (fun s r =>
            s.send s.clNo ((s.rankCl s.clNo r).getD s.clNo) (.post op (winOf w) me (f.num + 1))) s
          s.opDone op) s

/-- The access epoch that a context has on a window, started or being started (R204). -/
def Cluster.epochOf (c : Cluster) (g w : Nat) : Option Epoch := c.epochs.find? fun e => e.ctx == g && e.win == w && e.ending.isNone

/-- Every wstart of a cluster whose targets have all posted is completed, taking those posts (R204). -/
def State.settleStarts (s : State) (cl : Nat) : State :=
  (s.cl cl).epochs.foldl (fun s e =>
    match e.start with
    | none => s
    | some op =>
      let c := s.cl cl
      let find (r : Nat) : Option (Nat × Nat × Nat) := c.posts.find? fun p => p.1 == e.win && p.2.1 == r
      let got := (List.range' e.first e.count).map find
      if got.all (·.isSome) then
        let used := got.filterMap id
        let e' := { e with start := none, nums := used.foldl (fun m p => mset m p.2.1 p.2.2) e.nums }
        (s.setCl cl { c with
          posts := used.foldl (fun ps p => ps.erase p) c.posts
          epochs := c.epochs.map fun x => if x = e then e' else x }).opDone op
      else s) s

/-- R204: wstart. -/
def execWstart (t : BitVec 3) (x y : BitVec 6) (s : State) : Out :=
  engGate [.x x.toNat, .x y.toNat] [] s fun s =>
    let (w, s) := s.readX x.toNat
    let (g, s) := s.readX y.toNat
    winCmd t false (fun s op =>
      match s.groupOf g with
      | none => s.winFail op 12
      | some (first, count) =>
        let c := s.myCl
        if (s.myFrank (winOf w)).state = 0 ∨ (c.epochOf s.cur (winOf w)).isSome then s.winFail op 9
        else
          (s.setMyCl { c with epochs := c.epochs ++ [{ ctx := s.cur, win := winOf w, first := first, count := count, start := some op }] }).settleStarts s.clNo) s

/-- R204: wcompl. -/
def execWcompl (t : BitVec 3) (x : BitVec 6) (s : State) : Out :=
  engGate [.x x.toNat] [] s fun s =>
    let (w, s) := s.readX x.toNat
    winCmd t true (fun s op =>
      let c := s.myCl
      match c.epochOf s.cur (winOf w) with
      | none => s.winFail op 9
      | some e =>
        if e.start.isSome then s.winFail op 9
        else
          let s := s.setMyCl { c with epochs := c.epochs.map fun x => if x = e then { x with ending := some (op, e.count) } else x }
          let mine (a : Access) : Bool := a.op.ctx == s.cur && a.win == e.win && (match a.tag with
            | .post _ => true
            | _ => false)
          s.waitFor s.clNo { op := op, ids := c.accIds mine, act := .compl e.win e.first e.count }) s

/-- An exposure whose group has all completed ends: CLOSED, and the wwait completes (R204). -/
def State.settleExposure (s : State) (cl w : Nat) : State :=
  let f := mget {} (s.cl cl).frank w
  match f.wait with
  | none => s
  | some op =>
    if (List.range' f.first f.count).all f.compl.contains then
      (s.setFrank cl w { f with state := 1, wait := none, compl := [] }).opDone op
    else s

/-- R204: wwait. -/
def execWwait (t : BitVec 3) (x : BitVec 6) (s : State) : Out :=
  engGate [.x x.toNat] [] s fun s =>
    let (w, s) := s.readX x.toNat
    winCmd t false (fun s op =>
      let f := s.myFrank (winOf w)
      if f.state ≠ 3 ∨ f.wait.isSome then s.winFail op 9
      else (s.setFrank s.clNo (winOf w) { f with wait := some op }).settleExposure s.clNo (winOf w)) s

/-- R205: wlock. -/
def execWlock (t : BitVec 3) (x y : BitVec 6) (s : State) : Out :=
  engGate [.x x.toNat, .x y.toNat] [] s fun s =>
    let (w, s) := s.readX x.toNat
    let (v, s) := s.readX y.toNat
    let rank := fld v 0 17
    winCmd t false (fun s op =>
      let c := s.myCl
      match s.rankCl s.clNo rank with
      | none => s.winFail op 12
      | some d =>
        if (s.myFrank (winOf w)).state = 0 ∨ (c.lockAsks.any fun a => a.1.ctx == s.cur && a.2 == (winOf w, rank)) ∨
            (c.locks.any fun l => l.1 == s.cur && l.2.1 == winOf w && l.2.2.1 == rank) then s.winFail op 9
        else
          (s.setMyCl { c with lockAsks := c.lockAsks ++ [(op, winOf w, rank)] }).send s.clNo d
            (.lockReq (winOf w) { op := op, rank := rank, excl := fld v 17 1 == 1 })) s

/-- R205: wunlock. -/
def execWunlock (t : BitVec 3) (x y : BitVec 6) (s : State) : Out :=
  engGate [.x x.toNat, .x y.toNat] [] s fun s =>
    let (w, s) := s.readX x.toNat
    let (v, s) := s.readX y.toNat
    let rank := fld v 0 17
    winCmd t true (fun s op =>
      let c := s.myCl
      if s.teamSize s.clNo ≤ rank then s.winFail op 12
      else
        let unlocking := c.winWaits.any fun q => decide (q.act = .unlock (winOf w) rank) && q.op.ctx == s.cur
        match c.locks.find? fun l => l.1 == s.cur && l.2.1 == winOf w && l.2.2.1 == rank with
        | none => s.winFail op 9
        | some l =>
          if unlocking then s.winFail op 9
          else
            let mine (a : Access) : Bool := a.op.ctx == s.cur && a.win == winOf w && a.rank == rank && decide (a.tag = .lock l.2.2.2)
            s.waitFor s.clNo { op := op, ids := c.accIds mine, act := .unlock (winOf w) rank }) s

/-- R207: wflush. -/
def execWflush (t : BitVec 3) (x y : BitVec 6) (s : State) : Out :=
  engGate [.x x.toNat, .x y.toNat] [] s fun s =>
    let (w, s) := s.readX x.toNat
    let (v, s) := s.readX y.toNat
    winCmd t false (fun s op =>
      let mine (a : Access) : Bool := a.op.ctx == s.cur && a.win == winOf w && (fld v 17 1 == 1 || a.rank == fld v 0 17)
      s.waitFor s.clNo { op := op, ids := s.myCl.accIds mine, act := .flush }) s

/-- The word of wquery (R207). -/
def Frank.query (f : Frank) : W64 :=
  let excl := f.holders.any fun h => h.2.2
  let shared := f.holders.any fun h => !h.2.2
  BitVec.ofNat 64 (f.state + bn shared * 2 ^ 4 + bn excl * 2 ^ 5 + bn f.skid * 2 ^ 6 + bn f.tainted * 2 ^ 7 +
    f.num % 2 ^ 16 * 2 ^ 8 + f.lastOrg % 2 ^ 17 * 2 ^ 31 + min f.rej 65535 * 2 ^ 48)

/-- R207: wquery. -/
def execWquery (x y : BitVec 6) (s : State) : Out :=
  gate 0 [.x y.toNat] [.x x.toNat] s fun s =>
    let (w, s) := s.readX y.toNat
    .next (s.inter [.x x.toNat] (some [.x x.toNat (s.myFrank (winOf w)).query]))

/-! ## Notices -/

/-- A member's part in the k-th collective command of a window, kept with those that came before it (R201). -/
def State.joinColl (s : State) (team w k kind : Nat) (p : WinPart) : WinColl × State :=
  let same (c : WinColl) : Bool := c.team == team && c.win == w && c.k == k
  let old := (s.winColls.find? same).getD { team := team, win := w, k := k }
  let new := { old with parts := old.parts ++ [(kind, p)] }
  (new, { s with winColls := new :: s.winColls.filter fun c => !same c })

/-- A member's command completes, or records a code: BADARG where it was its own, WSTATE otherwise. Its context's fence epoch is open
again, or open with the new number, when its wfence ends (R201, R203). -/
def State.endPart (s : State) (kind win : Nat) (ok : Bool) (p : WinPart) : State :=
  let cl := p.op.ctx / 4
  let x := s.cl cl
  let s := if kind = 1 ∧ !p.dead then s.setCl cl { x with shut := x.shut.erase (p.op.ctx, win) } else s
  if p.bad then s.winFail p.op 12 else if ok then s.opDone p.op else s.winFail p.op 9

/-- Every part of a command ends; the member of another panel is told how (R201, R344). -/
def State.endColl (s : State) (cl : Nat) (c : WinColl) (ok : Bool) : State :=
  let s : State := { s with winColls := s.winColls.filter fun x => !(x.team == c.team && x.win == c.win && x.k == c.k) }
  c.parts.foldl (fun s p =>
    if p.2.op.ctx < 32768 then s.endPart p.1 c.win ok p.2 else s.send cl (p.2.op.ctx / 4) (.winEnd p.1 c.win ok p.2)) s

/-- The members of this panel, by cluster. -/
def State.nearRanks (s : State) (cl : Nat) : List Nat := (s.cl cl).ti.ranks.filter fun d => decide (d < 8192)

/-- The franking entries of a window at every member: as its part says of a member of another panel (R344). -/
def State.entries (s : State) (cl : Nat) (c : WinColl) : List Frank := (s.cl cl).ti.ranks.zipIdx.map fun d =>
  if d.1 < 8192 then mget {} (s.cl d.1).frank c.win
  else ((c.parts.find? fun p => p.2.rank == d.2).bind (·.2.entry)).getD {}

/-- A change to the entry of every member of this panel. -/
def State.mapEntries (s : State) (cl w : Nat) (f : Nat → Frank → Frank) : State :=
  ((s.cl cl).ti.ranks.zipIdx.filter fun d => decide (d.1 < 8192)).foldl (fun s d => s.setFrank d.1 w (f d.2 (mget {} (s.cl d.1).frank w))) s

/-- A member's entry for a window as its part of a wnew makes it (R201). -/
def WinPart.created (p : WinPart) : Frank :=
  { state := 1, skid := bit p.word 0, get := bit p.word 1, put := bit p.word 2, acc := bit p.word 3, base := p.base, len := p.len }

/-- wnew when every member has issued it (R201). -/
def State.createWindow (s : State) (cl : Nat) (c : WinColl) : State :=
  let word := (c.parts.head?.map fun p => p.2.word).getD 0
  let ok := (c.parts.all fun p => p.1 == 0 && p.2.word == word && !p.2.bad) && (s.entries cl c).all fun f => f.state == 0
  if !ok then s.endColl cl c false
  else
    let s := s.mapEntries cl c.win fun r _ =>
      match c.parts.find? fun p => p.2.rank == r with
      | some p => p.2.created
      | none => {}
    s.endColl cl c true

/-- Every LIVE token of a window revoked at a cluster (R331). -/
def State.revokeWindow (s : State) (cl w : Nat) : State :=
  (s.cl cl).tokens.foldl (fun s e => if e.2.win = w then s.revoke cl e.1 else s) s

/-- A freed window leaves a member: its fence epoch ends and its tokens are revoked (R207, R331). -/
def State.dropWindow (s : State) (d w : Nat) : State :=
  let x := s.cl d
  (s.setCl d { x with fences := mset x.fences w 0 }).revokeWindow d w

/-- wfree when every member has issued it (R207). -/
def State.freeWindow (s : State) (cl : Nat) (c : WinColl) : State :=
  let ok := (c.parts.all fun p => p.1 == 2 && !p.2.bad) && (s.entries cl c).all fun f =>
    f.state == 1 && f.holders.isEmpty && f.queue.isEmpty
  if !ok then s.endColl cl c false
  else
    let s := s.mapEntries cl c.win fun _ _ => {}
    ((s.nearRanks cl).foldl (fun s d => s.dropWindow d c.win) s).endColl cl c true

/-- A member's entry after a wfence that succeeds: closed, or open in a new interval (R203). -/
def Frank.fenced (f : Frank) (opens : Bool) : Frank := if opens then { f with state := 2, num := f.num + 1, tainted := false } else { f with state := 1 }

/-- After a wfence a member's fence epoch is open exactly when its entry is FENCE_OPEN (R203). -/
def State.syncFence (s : State) (d w : Nat) : State :=
  let x := s.cl d
  let f := mget {} x.frank w
  s.setCl d { x with fences := mset x.fences w (if f.state = 2 then f.num else 0) }

/-- wfence when every member's close notice has arrived: close, then open (R203). -/
def State.fenceWindow (s : State) (cl : Nat) (c : WinColl) : State :=
  let flags := (c.parts.head?.map fun p => p.2.word).getD 0
  let ok := (c.parts.all fun p => p.1 == 1 && p.2.word == flags && !p.2.bad) &&
    (s.entries cl c).all fun f => f.state != 0 && f.state != 3 && !(flags == 1 && f.state == 2)
  let s := if ok then s.mapEntries cl c.win fun _ f => f.fenced (bit flags 0) else s
  ((s.nearRanks cl).foldl (fun s d => s.syncFence d c.win) s).endColl cl c ok

/-- The last member's part carries the command out. Mixed kinds record WSTATE at every member (R201). -/
def State.runColl (s : State) (cl : Nat) (c : WinColl) : State :=
  if c.parts.length < s.teamSize cl then s
  else match (c.parts.head?.map (·.1)).getD 0 with
    | 0 => s.createWindow cl c
    | 1 => s.fenceWindow cl c
    | _ => s.freeWindow cl c

/-- How a collective command matched at another panel has ended reaches a member of this one: its entry follows, and its command ends
(R344). -/
def State.farEnd (s : State) (cl kind w : Nat) (ok : Bool) (p : WinPart) : State :=
  let f := mget {} (s.cl cl).frank w
  let s := if !ok then s else match kind with
    | 0 => s.setFrank cl w p.created
    | 1 => s.setFrank cl w (f.fenced (bit p.word 0))
    | _ => (s.setFrank cl w {}).dropWindow cl w
  ((if kind = 1 then s.syncFence cl w else s).heardFar p.op).endPart kind w ok p

/-- R201, R207, R344: a member's wnew or wfree notice; or the end of a command whose members another panel has matched. -/
def execWindowCollectiveNotice (m : Nat) (s : State) : Out :=
  match s.arrived m with
  | some msg => match msg.act with
    | .winNotice kind w k p =>
      let (c, s) := (s.take m).joinColl (s.cl msg.dst).ti.team w k kind p
      .next (s.runColl msg.dst c)
    | .winEnd kind w ok p => .next ((s.take m).farEnd msg.dst kind w ok p)
    | _ => .next s
  | none => .next s

/-- R203: a member's close notice. -/
def execFenceCloseNotice (m : Nat) (s : State) : Out :=
  match s.arrived m with
  | some msg => match msg.act with
    | .closeNotice w k p =>
      let (c, s) := (s.take m).joinColl (s.cl msg.dst).ti.team w k 1 p
      .next (s.runColl msg.dst c)
    | _ => .next s
  | none => .next s

/-- R204: a post notice reaches an origin. -/
def execPostNotice (m : Nat) (s : State) : Out :=
  match s.arrived m with
  | some msg => match msg.act with
    | .post _ w rank num =>
      let s := s.take m
      let c := s.cl msg.dst
      .next ((s.setCl msg.dst { c with posts := c.posts ++ [(w, rank, num)] }).settleStarts msg.dst)
    | _ => .next s
  | none => .next s

/-- One more target of a wcompl has been notified; it ends with the last (R204). -/
def State.complTold (s : State) (origin : Nat) (op : Op) : State :=
  let c := s.cl origin
  match c.epochs.find? fun e => (e.ending.map (·.1)) == some op with
  | none => s
  | some e =>
    let left := (e.ending.map (·.2)).getD 0
    if left ≤ 1 then (s.setCl origin { c with epochs := c.epochs.filter fun x => !decide (x = e) }).opDone op
    else s.setCl origin { c with epochs := c.epochs.map fun x => if x = e then { x with ending := some (op, left - 1) } else x }

/-- R204: a complete notice reaches a target; the wcompl ends when every target has been notified. -/
def execCompleteNotice (m : Nat) (s : State) : Out :=
  match s.arrived m with
  | some msg => match msg.act with
    | .compl w rank op origin =>
      let s := s.take m
      let f := mget {} (s.cl msg.dst).frank w
      let s := (s.setFrank msg.dst w { f with compl := rank :: f.compl }).settleExposure msg.dst w
      .next (if origin < 8192 then s.complTold origin op else s.send msg.dst origin (.ack op))
    | _ => .next s
  | none => .next s

/-- A ccancel has reached one more member; it completes with the last (R224). -/
def State.cancelTold (s : State) (op : Op) : State :=
  let o := op.ctx / 4
  let c := s.cl o
  match c.cancels.find? fun e => decide (e.1 = op) with
  | none => s
  | some e =>
    if e.2 ≤ 1 then (s.setCl o { c with cancels := c.cancels.filter fun f => !decide (f.1 = op) }).opDone op
    else s.setCl o { c with cancels := c.cancels.map fun f => if f.1 = op then (op, f.2 - 1) else f }

/-- A lock granted to a request of this panel, under a number (R205). -/
def State.lockWon (s : State) (w : Nat) (q : LockReq) (g : Nat) : State :=
  let o := q.op.ctx / 4
  let c := s.cl o
  (s.setCl o { c with lockAsks := c.lockAsks.erase (q.op, w, q.rank), locks := c.locks ++ [(q.op.ctx, w, q.rank, g)] }).opDone q.op

/-- A lock request of this panel for a window that does not exist at its target (R205). -/
def State.lockLost (s : State) (w : Nat) (q : LockReq) : State :=
  let o := q.op.ctx / 4
  let c := s.cl o
  (s.setCl o { c with lockAsks := c.lockAsks.erase (q.op, w, q.rank) }).winFail q.op 9

/-- The answer to a lock request, with the grant's number or none: a request of another panel is answered by a message (R344). -/
def State.lockAnswer (s : State) (cl w : Nat) (q : LockReq) (g : Option Nat) : State :=
  if 32768 ≤ q.op.ctx then s.send cl (q.op.ctx / 4) (.lockGrant w q g)
  else match g with
    | some g => s.lockWon w q g
    | none => s.lockLost w q

/-- Requests at the head of a lock queue granted while they are compatible (R205). -/
def State.grantLocks (s : State) (cl w : Nat) : Nat → State
  | 0 => s
  | n + 1 =>
    let f := mget {} (s.cl cl).frank w
    match f.queue with
    | [] => s
    | q :: qs =>
      if f.holders ≠ [] ∧ (q.excl ∨ f.holders.any fun h => h.2.2) then s
      else
        let g := f.grants + 1
        let s := s.setFrank cl w { f with queue := qs, grants := g, holders := f.holders ++ [(q.op.ctx, g, q.excl)] }
        (s.lockAnswer cl w q (some g)).grantLocks cl w n

/-- R205, R328: a lock request joins the queue; one that finds 64 queued waits at its origin and is sent again. The answer of a target on
another panel reaches its origin (R344). -/
def execLockRequest (m : Nat) (s : State) : Out :=
  match s.arrived m with
  | some msg => match msg.act with
    | .lockReq w r =>
      let f := mget {} (s.cl msg.dst).frank w
      if 64 ≤ f.queue.length then .next s
      else
        let s := s.take m
        if f.state = 0 then .next (s.lockAnswer msg.dst w r none)
        else .next ((s.setFrank msg.dst w { f with queue := f.queue ++ [r] }).grantLocks msg.dst w 65)
    | .lockGrant w r (some g) => .next ((s.take m).lockWon w r g)
    | .lockGrant w r none => .next ((s.take m).lockLost w r)
    | _ => .next s
  | none => .next s

/-- A member of another panel has carried out what a command sent it: one more target of a wcompl or of a ccancel, or a wunlock's
(R344). -/
def State.acked (s : State) (op : Op) : State :=
  let s := s.heardFar op
  let c := s.cl (op.ctx / 4)
  if c.epochs.any fun e => (e.ending.map (·.1)) == some op then s.complTold (op.ctx / 4) op
  else match c.cancels.find? fun e => decide (e.1 = op) with
    | some _ => s.cancelTold op
    | none => s.opDone op

/-- R205: an unlock releases its lock, completes, and the waiting requests are granted; the word of a target on another panel that it has
done what a command sent it reaches its origin (R344). -/
def execLockRelease (m : Nat) (s : State) : Out :=
  match s.arrived m with
  | some msg => match msg.act with
    | .unlock w op =>
      let s := s.take m
      let f := mget {} (s.cl msg.dst).frank w
      let s := s.setFrank msg.dst w { f with holders := f.holders.filter fun h => h.1 != op.ctx }
      .next ((if op.ctx < 32768 then s.opDone op else s.send msg.dst (op.ctx / 4) (.ack op)).grantLocks msg.dst w 65)
    | .ack op => .next ((s.take m).acked op)
    | _ => .next s
  | none => .next s

end Sys2Proof.Machine
end

