-- ==== Sys2Proof/Machine/Sort.lean ====
section
/-! DEFINITION. The sorting office: major 0x35, channel heads, chunks, dispatch counts, delivery streams and cancels (R215 to R224,
R334 to R337). -/
namespace Sys2Proof.Machine

/-! ## Communicators (R215) -/

def cwId (w : W64) : Nat := fld w 42 12
def cwStride (w : W64) : Nat := fld w 34 8
def cwCount (w : W64) : Nat := fld w 17 17
def cwFirst (w : W64) : Nat := fld w 0 17

/-- The rank of member i. -/
def cwRank (w : W64) (i : Nat) : Nat := cwFirst w + i * cwStride w

/-- The ranks of the members, cut at the team's size. -/
def State.members (s : State) (cl : Nat) (w : W64) : List Nat :=
  ((List.range (cwCount w)).map (cwRank w)).filter fun r => decide (r < s.teamSize cl)

/-- The member index of a cluster, where the word is in range and names it. -/
def State.memberIx (s : State) (cl : Nat) (w : W64) : Option Nat :=
  if cwCount w = 0 ∨ cwStride w = 0 ∨ s.teamSize cl ≤ cwRank w (cwCount w - 1) then none
  else (s.members cl w).findIdx? (· == (s.cl cl).ti.rank)

/-- The collective channel (R215). -/
def SortCmd.ch (c : SortCmd) : Nat := cwId c.word % 8

/-! ## The office's list -/

def State.officeOf (s : State) (cl : Nat) : List SortCmd := (s.site (siteOf cl)).office
def State.setOffice (s : State) (cl : Nat) (l : List SortCmd) : State :=
  let x := s.site (siteOf cl)
  s.setSite (siteOf cl) { x with office := l }

/-- The command with the same operation, changed or dropped. -/
def State.mapCmd (s : State) (c : SortCmd) (f : SortCmd → SortCmd) : State :=
  s.setOffice c.cl ((s.officeOf c.cl).map fun x => if x.op = c.op then f x else x)
def State.dropCmd (s : State) (c : SortCmd) : State := s.setOffice c.cl ((s.officeOf c.cl).filter fun x => !decide (x.op = c.op))

/-- The operation has completed, failed or been cancelled. -/
def State.opOver (s : State) (op : Op) : Bool :=
  let t := s.tl op.ctx op.tl
  decide (op.num ≤ t.done) || t.fin.contains op.num || t.failed.contains op.num || t.cancelled op.num

/-- The first command of a cluster on a channel that has not yet left it (R216). -/
def State.headOf (s : State) (cl ch : Nat) : Option SortCmd :=
  (s.officeOf cl).find? fun c => c.cl == cl && c.ch == ch && c.run != 2

/-- A note of a command sent to every member (R334). -/
def State.sendNote (s : State) (cl : Nat) (w : W64) (n : HeadNote) : State :=
  (s.members cl w).foldl (fun s r => s.send cl ((s.rankCl cl r).getD cl) (.head n)) s

/-- The head of a channel announced, if it has not been (R334, R337). -/
def State.announce (s : State) (cl ch : Nat) : State :=
  match s.headOf cl ch with
  | none => s
  | some c =>
    if c.said then s
    else (s.mapCmd c fun x => { x with said := true }).sendNote cl c.word
      { rank := (s.cl cl).ti.rank, id := cwId c.word, cc := c.cc, k := c.k, sig := c.sig, op := some c.op }

/-- A command leaves its channel, and the next is announced. -/
def State.leaveChannel (s : State) (c : SortCmd) : State :=
  let x := s.cl c.cl
  let s := s.setCl c.cl { x with heads := x.heads.filter fun n => !(n.id == cwId c.word && n.cc == c.cc && n.k == c.k) }
  (s.dropCmd c).announce c.cl c.ch

/-! ## Blocks (R217, R218, R221, R222) -/

def bw (b : List W64) (i : Nat) : W64 := b.getD i 0
def SortCmd.record (c : SortCmd) (i : Nat) : List W64 := c.recs.getD i []
/-- K, NTOK, EPR, NEXP, WIN, CAP and ROWB of dispatch and combine. -/
def blkK (b : List W64) : Nat := fld (bw b 0) 48 8
def blkNtok (b : List W64) : Nat := fld (bw b 1) 0 16
def blkEpr (b : List W64) : Nat := fld (bw b 1) 16 16
def blkNexp (b : List W64) : Nat := fld (bw b 1) 32 16
def blkWin (b : List W64) : Nat := fld (bw b 2) 0 9
def blkCap (b : List W64) : Nat := fld (bw b 2) 16 16
def blkRowb (b : List W64) : Nat := fld (bw b 2) 32 32
/-- OP, TYPE, ROOT and CNT of coll. -/
def blkOp (b : List W64) : Nat := fld (bw b 0) 0 4
def blkType (b : List W64) : Nat := fld (bw b 0) 4 4
def blkRoot (b : List W64) : Nat := fld (bw b 0) 8 17
def blkCnt (b : List W64) : Nat := fld (bw b 1) 32 32
/-- Bytes of a coll element (R222). -/
def blkElem (b : List W64) : Nat := if blkType b = 2 then 8 else 4

/-- The communicator word of a block. -/
def blkWord (fn : Nat) (b : List W64) : W64 := bw b (if fn = 2 then 2 else 3)

/-- The handles that a block names, each with its rights, and the conditions on its format at test 3 (R217 to R222). PLACE of a combine
needs RD: R221 names no right for it (DESIGN CHOICE, log 94). -/
def blkRecs (fn : Nat) (b : List W64) : List (Nat × List Nat × (List W64 → Bool)) :=
  let h (i : Nat) : Nat := fld (bw b 0) (16 * i) 16
  let s32 (r : List W64) : Bool := recFmt r == 3
  let f32 (r : List W64) : Bool := recFmt r == 0
  match fn with
  | 0 => [(h 0, [rRd], fun r => recFmt r != 4), (h 1, [rRd], s32), (h 2, [rW], s32)]
  | 1 => [(h 0, [rW], f32), (h 1, [rRd], s32), (h 2, [rRd], f32)]
  | _ =>
    if blkOp b = 4 then [] else [(fld (bw b 1) 0 16, [rRd], byteRange3), (fld (bw b 1) 16 16, [rW], byteRange3)]

/-- The records of a list of handles under tests 1 to 5 (R217). -/
def State.getRecs (s : State) : List (Nat × List Nat × (List W64 → Bool)) → Except Trap (List (List W64) × State)
  | [] => .ok ([], s)
  | (h, rights, t3) :: hs => match s.useRec h rights t3 fun _ => true with
    | .error t => .error t
    | .ok (r, s) => match s.getRecs hs with
      | .error t => .error t
      | .ok (rs, s) => .ok (r :: rs, s)

/-- Rows and columns of a record that an operation touches lie within it. -/
def recHolds (r : List W64) (n0 n1 : Nat) : Bool := n0 == 0 || n1 == 0 || decide (n0 ≤ recSize r 0 ∧ n1 ≤ recSize r 1)

/-- LSBOUND of the rows and columns of a local-store record that an operation touches (R24). -/
def spanTrap (c : Cluster) (r : List W64) (n0 n1 : Nat) : Option Trap :=
  if n0 = 0 ∨ n1 = 0 ∨ recSpace r = 1 then none else (let m := elemSpan r 0 n0 0 n1 0 0; lsSpanTrap c m.1 m.2)

/-- LSBOUND of n bytes of a byte-range record (R24). -/
def byteTrap (c : Cluster) (r : List W64) (n : Nat) : Option Trap :=
  if n = 0 ∨ recSpace r = 1 then none else lsSpanTrap c (recBase r : Nat) (recBase r + n : Nat)

/-- A record that is written holds what an operation touches and, in the local store, within its bounds (R217). -/
def fits (c : Cluster) (r : List W64) (n0 n1 : Nat) : Bool := recHolds r n0 n1 && (spanTrap c r n0 n1).isNone
/-- A byte-range record that is written holds n bytes, within the local store's bounds where it lies there. -/
def fitsBytes (c : Cluster) (r : List W64) (n : Nat) : Bool := decide (n ≤ recExtent r) && (byteTrap c r n).isNone

/-- Bytes of SRC that a coll reads at the issuing member, n in all elements of one member (R222). -/
def State.srcBytes (s : State) (b : List W64) : Nat :=
  if 3 < blkOp b ∨ (blkOp b = 3 ∧ s.memberIx s.clNo (blkWord 2 b) ≠ some (blkRoot b)) then 0
  else blkElem b * blkCnt b * (if blkOp b = 1 then cwCount (blkWord 2 b) else 1)

/-- The records that a command reads, with the columns and rows it touches (R218 to R221). -/
def srcSpans (fn : Nat) (b : List W64) (rs : List (List W64)) : List (List W64 × Nat × Nat) :=
  let r (i : Nat) : List W64 := rs.getD i []
  match fn with
  | 0 => [(r 0, blkRowb b / fmtSize (recFmt (r 0)), blkNtok b), (r 1, blkK b, blkNtok b)]
  | 1 => [(r 1, blkK b, blkNtok b), (r 2, blkK b, blkNtok b)]
  | _ => []

/-- LSBOUND of a record that a command reads, where what it touches lies within the record (R24, R217). -/
def State.srcTrap (s : State) (fn : Nat) (b : List W64) (rs : List (List W64)) : Option Trap :=
  if fn = 2 then
    (if blkOp b < 4 ∧ s.srcBytes b ≤ recExtent (rs.getD 0 []) then byteTrap s.myCl (rs.getD 0 []) (s.srcBytes b) else none)
  else (srcSpans fn b rs).findSome? fun x => if recHolds x.1 x.2.1 x.2.2 then spanTrap s.myCl x.1 x.2.1 x.2.2 else none

/-- BADARG: a size or field of the block out of its range (R215, R217 to R222). -/
def State.badBlock (s : State) (fn : Nat) (b : List W64) (rs : List (List W64)) : Bool :=
  let c := s.myCl
  let w := blkWord fn b
  let r (i : Nat) : List W64 := rs.getD i []
  (s.memberIx s.clNo w).isNone ||
  if fn = 2 then
    let n := blkElem b * blkCnt b
    let wide := n * cwCount w
    decide (4 < blkOp b) || decide (4 < blkType b) || (blkOp b == 3 && decide (cwCount w ≤ blkRoot b)) ||
      (decide (blkOp b < 4) && (!fitsBytes c (r 1) (if blkOp b = 2 then wide else n) || decide (recExtent (r 0) < s.srcBytes b)))
  else
    let k := blkK b
    let nt := blkNtok b
    !decide (1 ≤ k ∧ k ≤ 8) || !decide (1 ≤ blkEpr b ∧ blkEpr b ≤ 4095) ||
      !decide (1 ≤ blkNexp b ∧ blkNexp b ≤ blkEpr b * cwCount w) || blkCap b == 0 || blkRowb b == 0 || blkRowb b % 4 != 0 ||
      decide (2 ^ 31 ≤ blkNexp b * blkCap b) || ((srcSpans fn b rs).any fun x => !recHolds x.1 x.2.1 x.2.2) ||
      (if fn = 0 then
        let cnt := fld (bw b 4) 0 23
        cnt % 8 != 0 || !c.lsOk cnt (8 * blkEpr b) || decide (recSize (r 0) 0 * fmtSize (recFmt (r 0)) < blkRowb b) || !fits c (r 2) k nt
      else !fits c (r 0) (blkRowb b / 4) nt)

/-- The fields that matched commands must agree on (R216). -/
def blkSig (fn : Nat) (b : List W64) : List Nat :=
  let w := fld (blkWord fn b) 0 54
  if fn = 2 then
    [2, blkOp b, w, if blkOp b < 2 then blkType b else 0, if blkOp b = 4 then 0 else blkCnt b, if blkOp b = 3 then blkRoot b else 0]
  else [fn, blkEpr b, blkNexp b, blkWin b, blkCap b, blkRowb b, w]

/-! ## The commands -/

/-- The place of the member's next command on a communicator, taken (R216). -/
def State.takeComm (s : State) (id : Nat) : Nat × State :=
  let c := s.myCl
  let k := mget 0 c.commSeq id
  (k, s.setMyCl { c with commSeq := mset c.commSeq id (k + 1) })

/-- A command that has issued takes its place and joins its channel; one that records BADARG, or that its timeline
cancels, only takes its place (R216). -/
def State.joinOffice (s : State) (fn : Nat) (b : List W64) (rs : List (List W64)) (op : Op) (dead : Bool) : State :=
  let w := blkWord fn b
  let bad := s.badBlock fn b rs
  let cc := mget 0 s.myCl.commCancel (cwId w)
  let (k, s) := s.takeComm (cwId w)
  if dead || bad then
    let s := s.sendNote s.clNo w { rank := s.myCl.ti.rank, id := cwId w, cc := cc, k := k, sig := [], bad := true }
    if dead then s else s.winFail op 12
  else
    let c : SortCmd := { op := op, cl := s.clNo, word := w, cc := cc, k := k, fn := fn, blk := b, recs := rs, sig := blkSig fn b }
    (s.setOffice s.clNo (s.officeOf s.clNo ++ [c])).announce s.clNo c.ch

/-- dispatch, combine and coll: the block's address, the block, its handles, the timeline, the local-store spans of the records read, and
the channel's room (R24, R217, R334). A block that an uncorrectable error keeps from being read names no communicator: the command records
MEMERR and takes no place in any sequence, which the spec does not settle (DESIGN CHOICE, log 95). -/
def sortCmd (fn : Nat) (t : BitVec 3) (x : BitVec 6) (s : State) : Out :=
  engGate [.x x.toNat] [] s fun s =>
    let (a, s) := s.readX x.toNat
    let bad : Option Trap :=
      if a.toNat % 64 ≠ 0 then some (alignTrap a 64)
      else if s.myCl.lsOk a.toNat 64 then none else some (lsboundTrap a)
    match bad with
    | some tr => andThen ((s.tlRoom t.toNat 1).or (some (.trap tr))) s .next
    | none =>
      let pa := lsAt s.clNo a.toNat
      let b := tab (fun i => BitVec.ofNat 64 (s.load (pa + 8 * i) 8)) 8
      let unread := s.badAt pa 64
      let w := blkWord fn b
      match s.getRecs (if unread then [] else blkRecs fn b) with
      | .error tr => s.trapNow tr
      | .ok (rs, s) =>
        andThen (s.tlRoom t.toNat 1) s fun s =>
        andThen (if unread then none else (s.srcTrap fn b rs).map .trap) s fun s =>
        let room := (s.mySite.office.filter fun c => c.ch == cwId w % 8 && c.run != 2).length
        andThen (if !unread && 32 ≤ room then some (.hold .block) else none) s fun s =>
          let op := s.newOp t.toNat
          let s := (s.readAt s.clNo pa 64).takeNums s.cur t.toNat 1
          if unread then .next (if s.opDead op then s else s.opFail op (6, a))
          else .next (s.joinOffice fn b rs op (s.opDead op))

/-- R218, R219: dispatch. -/
def execDispatch (t : BitVec 3) (x : BitVec 6) (s : State) : Out := sortCmd 0 t x s
/-- R221: combine. -/
def execCombine (t : BitVec 3) (x : BitVec 6) (s : State) : Out := sortCmd 1 t x s
/-- R222: coll. -/
def execColl (t : BitVec 3) (x : BitVec 6) (s : State) : Out := sortCmd 2 t x s

/-- Members that have issued the command matched with c (R223). -/
def State.arrivedAt (s : State) (c : SortCmd) : Nat :=
  if c.run ≠ 0 then cwCount c.word
  else ((s.members c.cl c.word).filter fun r =>
    let m := s.cl ((s.rankCl c.cl r).getD c.cl)
    mget 0 m.commCancel (cwId c.word) == c.cc && decide (c.k < mget 0 m.commSeq (cwId c.word))).length

/-- R223: cstat. -/
def execCstat (x y : BitVec 6) (s : State) : Out :=
  gate 0 [.x y.toNat] [.x x.toNat] s fun s =>
    let (w, s) := s.readX y.toNat
    let mine := s.mySite.office.filter fun c => c.op.ctx == s.cur && cwId c.word == cwId w && !s.opOver c.op
    let v := match mine with
      | [] => 0
      | c :: _ =>
        let n := s.arrivedAt c
        let st := if c.run ≠ 0 then 2 else if n = cwCount c.word then 3 else 1
        c.chunks % 2 ^ 32 * 2 ^ 32 + n * 2 ^ 15 + min 255 mine.length * 2 ^ 7 + st
    .next (s.inter [.x x.toNat] (some [.x x.toNat (BitVec.ofNat 64 v)]))

/-- A cancel reaches a member: its count rises, and its uncompleted commands under a lower count end CANCELLED, wherever they
stand in its queues (R224, R337). -/
def State.cancelAt (s : State) (cl id : Nat) : State :=
  let c := s.cl cl
  let cc := mget 0 c.commCancel id + 1
  let s := s.setCl cl { c with
    commCancel := mset c.commCancel id cc, commSeq := mset c.commSeq id 0
    heads := c.heads.filter fun n => !(n.id == id && decide (n.cc < cc)) }
  let dead := (s.officeOf cl).filter fun x => x.cl == cl && cwId x.word == id && decide (x.cc < cc)
  let s := dead.foldl (fun s x => ((if s.opOver x.op then s else s.winFail x.op 11).dropCmd x)) s
  s.announce cl (id % 8)

/-- R224: ccancel. -/
def execCcancel (t : BitVec 3) (x : BitVec 6) (s : State) : Out :=
  engGate [.x x.toNat] [] s fun s =>
    let (w, s) := s.readX x.toNat
    winCmd t false (fun s op =>
      if (s.memberIx s.clNo w).isNone then s.winFail op 12
      else
        let me := s.clNo
        let others := (s.members me w).filter fun r => r != s.myCl.ti.rank
        let s := s.cancelAt me (cwId w)
        if others.isEmpty then s.opDone op
        else
          let c := s.myCl
          let s := s.setMyCl { c with cancels := c.cancels ++ [(op, others.length)] }
          others.foldl (fun s r => s.send me ((s.rankCl me r).getD me) (.cancel (cwId w) op)) s) s

/-- R224: a cancel reaches a member's office; the ccancel completes with the last. -/
def execCancelArrival (m : Nat) (s : State) : Out :=
  match s.arrived m with
  | some msg => match msg.act with
    | .cancel id op =>
      let s := (s.take m).cancelAt msg.dst id
      .next (if op.ctx < 32768 then s.cancelTold op else s.send msg.dst (op.ctx / 4) (.ack op))
    | _ => .next s
  | none => .next s

/-! ## Heads (R216, R334) -/

/-- The notes a member has heard of the command matched with c. -/
def State.notesOf (s : State) (c : SortCmd) : List HeadNote :=
  (s.cl c.cl).heads.filter fun n => n.id == cwId c.word && n.cc == c.cc && n.k == c.k

/-- A coll with nothing to move: a barrier, or no element (R222). -/
def SortCmd.empty (c : SortCmd) : Bool := c.fn == 2 && (blkOp c.blk == 4 || blkCnt c.blk == 0)

/-- The head of a member's channel starts once every member has announced it as head; where the matched commands disagree it
records MISMATCH (R216). A barrier is complete then (R222); the first member of a dispatch sends the counts on (R335). -/
def State.tryStart (s : State) (cl ch : Nat) : State :=
  match s.headOf cl ch with
  | none => s
  | some c =>
    let ns := s.notesOf c
    let all := (s.members cl c.word).map fun r => ns.find? fun n => n.rank == r
    if c.run ≠ 0 ∨ !all.all (·.isSome) then s
    else if all.any fun n => match n with
      | some n => n.bad || decide (n.sig ≠ c.sig)
      | none => false
    then (s.winFail c.op 10).leaveChannel c
    else if c.empty then (s.opDone c.op).leaveChannel c
    else
      let s := s.mapCmd c fun x => { x with run := 1 }
      if c.fn = 0 ∧ s.memberIx cl c.word = some 0 then
        s.send cl cl (.counts (cwId c.word) c.cc c.k 0 (List.replicate (blkNexp c.blk) 0) none)
      else s

/-- R334: an announcement reaches a member. -/
def execHeadAnnouncement (m : Nat) (s : State) : Out :=
  match s.arrived m with
  | some msg => match msg.act with
    | .head n =>
      let s := s.take m
      let c := s.cl msg.dst
      let old := decide (n.cc < mget 0 c.commCancel n.id)
      let s := if old then s else s.setCl msg.dst { c with heads := c.heads ++ [n] }
      .next (s.tryStart msg.dst (n.id % 8))
    | _ => .next s
  | none => .next s

/-! ## Dispatch (R219, R335) -/

/-- Every element (j, t) of an s32 or f32 record, j below k, t from t0 below n, as a signed number, in the order of t, then j. -/
def State.readTable (s : State) (cl : Nat) (op : Op) (r : List W64) (k t0 n : Nat) : Rd (List (Nat × Nat × Int)) :=
  readAll (fun i s => (s.readElem cl op r (i % k) (i / k) 0 0).andThen fun v s => (.ok (i / k, i % k, sextNat v 32), s))
    (List.range' (t0 * k) ((n - t0) * k)) s

/-- The member's choices per expert added to a prefix (R219). -/
def addCounts (nexp : Nat) (l : List (Nat × Nat × Int)) (pre : List Nat) : List Nat :=
  (List.range nexp).map fun e => pre.getD e 0 + (l.filter fun x => x.2.2 == (e : Int)).length

/-- The PLACE value of each choice in turn, counts running from the prefix (R219). -/
def placeAll (nexp cap : Nat) : List (Nat × Nat × Int) → List Nat → List (Nat × Nat × Int)
  | [], _ => []
  | (t, j, e) :: l, run =>
    if 0 ≤ e ∧ e < nexp then
      let slot := run.getD e.toNat 0
      (t, j, if slot < cap then e * cap + slot else -1) :: placeAll nexp cap l (setAt run e.toNat (slot + 1))
    else (t, j, -1) :: placeAll nexp cap l run

/-- ROWB bytes of token row t. -/
def State.tokenRow (s : State) (c : SortCmd) (t : Nat) : Rd Nat :=
  let r := c.record 0
  let z := fmtSize (recFmt r)
  (readAll (fun i s => s.readElem c.cl c.op r i t 0 0) (List.range (blkRowb c.blk / z)) s).andThen fun xs s => (.ok (pack (8 * z) xs), s)

/-- The rows of a dispatch sent as puts (R219 phase 3). A row whose read fails is not sent. -/
def State.sendRows (s : State) (c : SortCmd) (no : Nat) : List (Nat × Nat × Int) → State
  | [] => s
  | (t, j, p) :: l =>
    let s := if p < 0 then s else
      let cap := blkCap c.blk
      let e := p.toNat / cap
      let slot := p.toNat % cap
      let g := e % blkEpr c.blk
      let rank := cwRank c.word (e / blkEpr c.blk)
      let off := (g * cap + slot) * blkRowb c.blk
      match s.tokenRow c t with
      | (.error f, s) => s.opFail c.op f
      | (.ok v, s) =>
        let entry : W64 := BitVec.ofNat 64 ((s.cl c.cl).ti.rank * 2 ^ 47 + t * 2 ^ 31 + j * 2 ^ 28 + g * 2 ^ 16 + slot)
        s.sendAccess c.op .put rank (blkWin c.blk) off (blkRowb c.blk) v 0 false
          (s.tagFor c.op.ctx (blkWin c.blk) rank) (raWord rank (blkWin c.blk) off) (some (no, entry))
    s.sendRows c no l

/-- The running dispatch of a cluster with an identifier, cancel count and place. -/
def State.runningDispatch (s : State) (cl id cc k : Nat) : Option SortCmd :=
  (s.officeOf cl).find? fun c => c.cl == cl && c.fn == 0 && c.run == 1 && cwId c.word == id && c.cc == cc && c.k == k

/-- The member's ROUTE as it counts: nothing where its read fails or its timeline has cancelled it (R219). -/
def State.routeOf (s : State) (c : SortCmd) : Rd (List (Nat × Nat × Int)) :=
  if s.opDead c.op then (.ok [], s) else s.readTable c.cl c.op (c.record 1) (blkK c.blk) 0 (blkNtok c.blk)

/-- Member ix's exclusive prefix arrives: it counts, keeps its choices and its prefix, and sends the sum on, or the totals back to every
member (R335 phases 1 and 2). -/
def State.countPhase (s : State) (c : SortCmd) (ix : Nat) (pre : List Nat) : State :=
  let (s, l) := match s.routeOf c with
    | (.ok l, s) => (s, l)
    | (.error e, s) => (s.opFail c.op e, [])
  let sum := addCounts (blkNexp c.blk) l pre
  let s := s.mapCmd c fun x => { x with result := some (pack 64 pre, 0), route := l }
  let n := cwCount c.word
  let to_ (r : Nat) : Nat := (s.rankCl c.cl r).getD c.cl
  let msg (ix : Nat) (tot : Option (Nat × List Nat)) : MsgDo := .counts (cwId c.word) c.cc c.k ix sum tot
  if ix + 1 < n then s.send c.cl (to_ (cwRank c.word (ix + 1))) (msg (ix + 1) none)
  else
    let no := s.nextMsg
    let s : State := { s with
      nextMsg := no + 1
      dispatches := s.dispatches ++ [{ no := no, team := (s.cl c.cl).ti.team, id := cwId c.word, count := n }] }
    (List.range n).foldl (fun s i => s.send c.cl (to_ (cwRank c.word i)) (msg i (some (no, sum)))) s

/-- The pairs of CNT: rows placed and dropped in each region of member ix (R219). -/
def cntWord (c : SortCmd) (ix : Nat) (tot : List Nat) : Nat :=
  pack 64 ((List.range (blkEpr c.blk)).map fun g =>
    let n := if ix * blkEpr c.blk + g < blkNexp c.blk then tot.getD (ix * blkEpr c.blk + g) 0 else 0
    min n (blkCap c.blk) + (n - blkCap c.blk) % 2 ^ 32 * 2 ^ 32)

/-- A member whose record of the dispatch's rows is complete without a stream is no longer needed. -/
def State.noteDispatch (s : State) (no : Nat) (f : DispatchRec → DispatchRec) : State :=
  { s with dispatches := (s.dispatches.map fun d => if d.no = no then f d else d).filter fun d =>
      !(d.ops.length == d.count && d.streams.isEmpty) }

/-- What the end of phase 2 writes: CNT by its 4-byte granules, and PLACE (R219, R257). -/
def State.placeWrites (s : State) (c : SortCmd) (ix : Nat) (tot : List Nat) (places : List (Nat × Nat × Int)) : List (Nat × Nat × Nat) :=
  (if s.opDead c.op then [] else granules (fld (bw c.blk 4) 0 23) (8 * blkEpr c.blk) (cntWord c ix tot)) ++
    places.map fun x => ((recAddr (c.record 2) x.2.1 x.1 0 0).toNat, 4, (wrap 32 x.2.2).toNat)

/-- The totals arrive: PLACE and CNT are written, but for the granules that a first step has written (R259), the command leaves its channel, and its rows are sent (R335 phases 2 and
3). A member whose ROUTE failed writes only its CNT. -/
def State.placePhase (s : State) (c : SortCmd) (ix no : Nat) (tot : List Nat) : State :=
  let rank := (s.cl c.cl).ti.rank
  let nexp := blkNexp c.blk
  let run := match c.result with
    | some (v, _) => (List.range nexp).map fun e => bits v (64 * e) 64
    | none => []
  let places := if s.opOver c.op then [] else placeAll nexp (blkCap c.blk) c.route run
  let (s, err) := s.engWriteAll c.cl c.op (match c.half with
    | some k => freeHalf k false (s.placeWrites c ix tot places)
    | none => s.placeWrites c ix tot places)
  let s := s.noteDispatch no fun d => { d with
    ops := d.ops ++ [(rank, c.op)], streams := if fld (bw c.blk 2) 9 1 = 1 then d.streams ++ [(rank, c.op.ctx)] else d.streams }
  let s := s.mapCmd c fun x => { x with run := 2, half := none }
  let s := match err with
    | some e => s.opFail c.op e
    | none => s.sendRows c no places
  let s := if (s.cl c.cl).accs.any fun a => decide (a.op = c.op) then s
    else if s.opOver c.op then s.dropCmd c else (s.opDone c.op).dropCmd c
  s.announce c.cl c.ch

/-- A first step of the end of phase 2: a free half of the granules of PLACE and CNT is written (R259). One that cannot be written leaves
the failure to the second. -/
def State.placeHalf (s : State) (c : SortCmd) (ix : Nat) (tot : List Nat) : State :=
  let run := match c.result with
    | some (v, _) => (List.range (blkNexp c.blk)).map fun e => bits v (64 * e) 64
    | none => []
  let ws := s.placeWrites c ix tot (if s.opOver c.op then [] else placeAll (blkNexp c.blk) (blkCap c.blk) c.route run)
  let u : State := { s with free := s.free + ws.length / 64 + 1 }
  match u.engWriteAll c.cl c.op (freeHalf s.free true ws) with
  | (_, some _) => s.mapCmd c fun x => { x with half := some s.free }
  | (t, none) => t.mapCmd c fun x => { x with half := some s.free }

/-- R335: counts arrive at a member. They wait where its command has not started yet, and are lost where it has ended. -/
def execDispatchCountExchange (m : Nat) (s : State) : Out :=
  match s.arrived m with
  | some msg => match msg.act with
    | .counts id cc k ix pre tot =>
      match s.runningDispatch msg.dst id cc k with
      | some c => match tot with
        | none => .next ((s.take m).countPhase c ix pre)
        | some (no, sum) => .next (if c.half.isNone then s.placeHalf c ix sum else (s.take m).placePhase c ix no sum)
      | none => if cc < mget 0 (s.cl msg.dst).commCancel id then .next (s.take m) else .next s
    | _ => .next s
  | none => .next s

/-! ## Delivery streams (R220) -/

/-- The next entry of an open stream reaches the queue register bound to it, where there is room and its context runs; after
its last the stream ends. -/
def State.deliverEntry (s : State) (ctx sid : Nat) : State :=
  match s.streamOf ctx sid with
  | some (d, rank, w :: ws) =>
    let c := s.ctx ctx
    match c.qs.find? fun e => decide (e.2.bound = some (.delivery sid)) with
    | none => s
    | some (q, x) =>
      if 8 ≤ x.ents.length ∨ c.live ≠ .run then s
      else
        let c' := { c with qs := mset c.qs q { x with ents := x.ents ++ [w], bound := if ws.isEmpty then none else x.bound } }
        let d' : DispatchRec := { d with
          entries := d.entries.erase (rank, w), streams := if ws.isEmpty then d.streams.erase (rank, ctx) else d.streams }
        { s.setCtx ctx (c'.markDirty (48 + q)) with
          dispatches := (s.dispatches.map fun e => if e.no = d.no then d' else e).filter fun e =>
            !(e.ops.length == e.count && e.streams.isEmpty) }
  | _ => s

/-- R220: an entry of a delivery stream. -/
def execDeliveryStreamEntry (ctx sid : Nat) (s : State) : Out := .next (s.deliverEntry ctx sid)

/-! ## Chunks (R221, R222, R336) -/

/-- Bytes of a member's SRC from byte a on, as free values past a failure. -/
def State.readSrc (s : State) (c : SortCmd) (a n : Nat) : Nat × State :=
  match s.engRead c.cl c.op (recBase (c.record 0) + a) n with
  | (.ok v, s) => (v, s)
  | (.error e, s) =>
    let s := s.opFail c.op e
    (List.range ((n + 7) / 8)).foldl (fun (a : Nat × State) i =>
      let (w, s) := a.2.fresh
      (a.1 + 2 ^ (64 * i) * w.toNat, s)) (0, s)

/-- Bytes of one member's elements: CNT of them (R222). -/
def SortCmd.share (c : SortCmd) : Nat := blkElem c.blk * blkCnt c.blk

/-- Chunks of 64 KiB, the last short, that carry one member's elements (R336). -/
def SortCmd.perShare (c : SortCmd) : Nat := (c.share + 65535) / 65536

/-- Chunks that a coll moves in all, in order: those of the elements, and in a reduce-scatter or an all-gather those of member after member
(R222, R336). -/
def SortCmd.chunkCount (c : SortCmd) : Nat := c.perShare * (if blkOp c.blk = 1 ∨ blkOp c.blk = 2 then cwCount c.word else 1)

/-- Byte in its member's elements, and bytes, of chunk f. -/
def SortCmd.chunkAt (c : SortCmd) (f : Nat) : Nat × Nat :=
  let a := f % c.perShare * 65536
  (a, min 65536 (c.share - a))

/-- A coll reduces: its chunks pass through every member (R222, R336). -/
def SortCmd.reduces (c : SortCmd) : Bool := decide (blkOp c.blk < 2)

/-- Member ix reads its SRC for chunk f (R222). -/
def SortCmd.gives (c : SortCmd) (ix f : Nat) : Bool := match blkOp c.blk with
  | 2 => f / c.perShare == ix
  | 3 => ix == blkRoot c.blk
  | _ => true

/-- Member ix receives chunk f's result, and the byte of its DST that it goes to (R222). -/
def SortCmd.takes (c : SortCmd) (ix f : Nat) : Option Nat := match blkOp c.blk with
  | 1 => if f / c.perShare = ix then some (c.chunkAt f).1 else none
  | 2 => some (f / c.perShare * c.share + (c.chunkAt f).1)
  | _ => some (c.chunkAt f).1

/-- The next chunk that member ix is to read its SRC for; its count when it has read all of it. -/
def SortCmd.nextGive (c : SortCmd) (ix : Nat) : Nat :=
  (((List.range' c.next (c.chunkCount - c.next)).find? fun f => c.gives ix f)).getD c.chunkCount

/-- Results that member ix receives. -/
def SortCmd.wants (c : SortCmd) (ix : Nat) : Nat := ((List.range c.chunkCount).filter fun f => (c.takes ix f).isSome).length

/-- ⊕ on the elements of a chunk: the value so far and a member's (R222). -/
def redChunk (b : List W64) (n acc x : Nat) : Nat × Flags :=
  let z := blkElem b
  let es := (List.range (n / z)).map fun k => RemKind.apply (.getacc (blkType b)) (bits acc (8 * z * k) (8 * z)) (bits x (8 * z * k) (8 * z))
  (pack (8 * z) (es.map (·.1)), es.foldl (fun f e => f ||| e.2) 0)

/-- The member's office reads its SRC for chunk f and passes the chunk on: to the next member while the reduction goes on, else the result
to every member that receives it (R222, R336). -/
def State.passChunk (s : State) (c : SortCmd) (ix f : Nat) (got : Option (Nat × Flags)) : State :=
  let (a, n) := c.chunkAt f
  let (x, s) := s.readSrc c ((if blkOp c.blk = 1 then f / c.perShare * c.share else 0) + a) n
  let (v, fl) := match got with
    | some (acc, fl) => let r := redChunk c.blk n acc x; (r.1, fl ||| r.2)
    | none => (x, 0)
  let s := s.mapCmd c fun y => { y with next := f + 1 }
  let to_ (i : Nat) : Nat := (s.rankCl c.cl (cwRank c.word i)).getD c.cl
  let msg (fin : Bool) : MsgDo := .chunk (cwId c.word) c.cc c.k f n v fl fin
  if c.reduces ∧ ix + 1 < cwCount c.word then s.send c.cl (to_ (ix + 1)) (msg false)
  else ((List.range (cwCount c.word)).filter fun i => (c.takes i f).isSome).foldl (fun s i => s.send c.cl (to_ i) (msg true)) s

/-- A member whose office has passed on all of its SRC and written all of its DST is done with a coll: it completes, with its flags, unless
it has failed, and leaves its channel (R222). -/
def State.collEnd (s : State) (c : SortCmd) (ix : Nat) : State :=
  match (s.officeOf c.cl).find? fun x => decide (x.op = c.op) with
  | none => s
  | some c =>
    if c.nextGive ix < c.chunkCount ∨ c.chunks < c.wants ix then s
    else (if s.opOver c.op then s else (s.opFlags c.op ((c.result.map (·.2)).getD 0)).opDone c.op).leaveChannel c

/-- A result's chunk written to DST, wholly at once, once the member's SRC has been read in full; a command that has failed writes none
(R222). -/
def State.takeResult (s : State) (c : SortCmd) (ix f n v : Nat) (fl : Flags) : State :=
  let s := s.mapCmd c fun x => { x with chunks := x.chunks + 1, result := some (0, ((x.result.map (·.2)).getD 0) ||| fl) }
  let s := if s.opOver c.op then s else match s.engWrite c.cl c.op (recBase (c.record 1) + (c.takes ix f).getD 0) n v with
    | (s, some e) => s.opFail c.op e
    | (s, none) => s
  s.collEnd c ix

/-- A chunk that has come to the office of a running coll, and may be dealt with now: the next one to pass on, or a result (R222, R336). -/
def State.chunkFor (s : State) (c : SortCmd) (ix : Nat) : Option Msg := s.net.find? fun m => m.dst == c.cl && (s.arrived m.id).isSome && (match m.act with
  | .chunk id cc k f _ _ _ fin => id == cwId c.word && cc == c.cc && k == c.k &&
      (if fin then decide (c.nextGive ix = c.chunkCount) else f == c.nextGive ix)
  | _ => false)

/-- The member begins the next chunk itself: it is the first of the reduction, or the chunk is its own. -/
def SortCmd.begins (c : SortCmd) (ix : Nat) : Bool := decide (c.nextGive ix < c.chunkCount) && (!c.reduces || ix == 0)

/-- A turn of a coll at a member: a chunk that has come is dealt with, else the next one of its own is begun (R336). -/
def State.collTurn (s : State) (c : SortCmd) (ix : Nat) : State :=
  match s.chunkFor c ix with
  | some m => match m.act with
    | .chunk _ _ _ f n v fl fin =>
      let s := s.take m.id
      if fin then s.takeResult c ix f n v fl else (s.passChunk c ix f (some (v, fl))).collEnd c ix
    | _ => s
  | none => if c.begins ix then (s.passChunk c ix (c.nextGive ix) none).collEnd c ix else s

/-- A member has issued its command k under a cancel count, or will issue none under it any more (R224). -/
def State.wasIssued (s : State) (cl id cc k : Nat) : Bool :=
  let m := mget 0 (s.cl cl).commCancel id
  decide (cc < m) || (cc == m && decide (k < mget 0 (s.cl cl).commSeq id))

/-- Chunks for a member that has no matching command any more are dropped (R224). -/
def State.dropChunks (s : State) (site : Nat) : State :=
  { s with net := s.net.filter fun m => match m.act with
    | .chunk id cc k _ _ _ _ _ => !(siteOf m.dst == site && (s.arrived m.id).isSome && s.wasIssued m.dst id cc k &&
        !(s.officeOf m.dst).any fun c => c.cl == m.dst && cwId c.word == id && c.cc == cc && c.k == k)
    | _ => true }

/-- A coll of which a chunk has been lost: every member of this panel records a code, and it leaves their channels (R322, R340). -/
def State.loseColl (s : State) (cl id cc k code : Nat) : State :=
  (s.nearRanks cl).foldl (fun s d =>
    match (s.officeOf d).find? fun x => x.cl == d && cwId x.word == id && x.cc == cc && x.k == k with
    | some c => (if s.opOver c.op then s else s.winFail c.op code).leaveChannel c
    | none => s) s

/-- The gets of the expert rows that a list of placements names, tagged as the member's accesses are (R221). -/
def State.askRows (s : State) (c : SortCmd) (ps : List (Nat × Nat × Int)) : State :=
  ps.foldl (fun s x =>
    if x.2.2 < 0 then s
    else
      let cap := blkCap c.blk
      let e := x.2.2.toNat / cap
      let rank := cwRank c.word (e / blkEpr c.blk)
      let off := ((e % blkEpr c.blk) * cap + x.2.2.toNat % cap) * blkRowb c.blk
      let ra := raWord rank (blkWin c.blk) off
      if (s.rankCl c.cl rank).isNone then s.opFail c.op (12, ra) 1
      else s.sendAccess c.op .get rank (blkWin c.blk) off (blkRowb c.blk) 0 0 false (s.tagFor c.op.ctx (blkWin c.blk) rank) ra none
        (some (8 * x.1 + x.2.1))) s

/-- The row that has come for a choice, whole. -/
def SortCmd.rowOf (c : SortCmd) (t j : Nat) : Nat := (c.rows.filter fun r => r.1 == 8 * t + j).foldl (fun v r => v + r.2.2 * 2 ^ (8 * r.2.1)) 0

/-- Element (col, t) of OUT, and its flags (R221). -/
def combineElem (c : SortCmd) (t col : Nat) : Nat × Flags :=
  (c.route.filter fun x => x.1 == t && decide (0 ≤ x.2.2)).foldl (fun (a : Nat × Flags) x =>
    let g := ((c.gates.find? fun g => g.1 == t && g.2.1 == x.2.1).map fun g => (wrap 32 g.2.2).toNat).getD 0
    let (y, fl) := fFma f32 .rne g (bits (c.rowOf t x.2.1) (32 * col) 32) a.1
    (y, a.2 ||| fl)) (0, 0)

/-- The elements of OUT in a combine's chunk n: 64 KiB of it, in the order of t, then col (R216). -/
def combineChunk (c : SortCmd) (n : Nat) : List (Nat × Nat) :=
  let cols := blkRowb c.blk / 4
  ((List.range' (16384 * n) 16384).filter fun i => decide (i < blkNtok c.blk * cols)).map fun i => (i / cols, i % cols)

/-- A combine begins its next chunk: PLACE and GATE of its tokens are read, and their rows asked for (R221). -/
def State.askChunk (s : State) (c : SortCmd) : State :=
  let es := combineChunk c c.chunks
  let t0 := (es.head?.map (·.1)).getD 0
  let t1 := (es.getLast?.map fun e => e.1 + 1).getD 0
  match (s.readTable c.cl c.op (c.record 1) (blkK c.blk) t0 t1).andThen fun ps s =>
      (s.readTable c.cl c.op (c.record 2) (blkK c.blk) t0 t1).andThen fun gs s => (.ok (ps, gs), s) with
  | (.error e, s) => (s.opFail c.op e).leaveChannel c
  | (.ok (ps, gs), s) => (s.mapCmd c fun x => { x with asked := true, route := ps, gates := gs, rows := [] }).askRows c ps

/-- A combine whose rows have come writes its chunk, in two steps, a free half of its elements in each (R259); after the last it
completes, with its flags (R216, R221). -/
def State.writeChunk (s : State) (c : SortCmd) : State :=
  let es := (combineChunk c c.chunks).map fun e => (e, combineElem c e.1 e.2)
  let ws := es.map fun x => ((recAddr (c.record 0) x.1.2 x.1.1 0 0).toNat, 4, x.2.1)
  let k := c.half.getD s.free
  let u : State := if c.half.isSome then s else { s with free := s.free + ws.length / 64 + 1 }
  match u.engWriteAll c.cl c.op (freeHalf k c.half.isNone ws) with
  | (s, some e) => (s.opFail c.op e).leaveChannel c
  | (s, none) =>
    if c.half.isNone then s.mapCmd c fun x => { x with half := some k }
    else
    let fl := es.foldl (fun f x => f ||| x.2.2) ((c.result.map (·.2)).getD 0)
    let s := s.mapCmd c fun x => { x with asked := false, half := none, chunks := x.chunks + 1, result := some (0, fl), rows := [] }
    if blkNtok c.blk * (blkRowb c.blk / 4) ≤ 16384 * (c.chunks + 1) then ((s.opFlags c.op fl).opDone c.op).leaveChannel c else s

/-- A row that a command asked for is still on its way. -/
def State.awaitsRows (s : State) (c : SortCmd) : Bool := (s.cl c.cl).accs.any fun a => decide (a.op = c.op)

/-- A turn of a combine (R216, R221). -/
def State.combineTurn (s : State) (c : SortCmd) : State :=
  if s.opOver c.op then s.leaveChannel c else if c.asked then s.writeChunk c else s.askChunk c

/-- The member index at which a command runs. -/
def State.ixOf (s : State) (c : SortCmd) : Nat := (s.memberIx c.cl c.word).getD 0

/-- The running command of a site's channel that has a chunk to move, if any. -/
def State.mover (s : State) (site ch : Nat) : Option SortCmd :=
  (s.site site).office.find? fun c => c.ch == ch && c.run == 1 && c.fn != 0 &&
    (if c.fn = 1 then !c.asked || !s.awaitsRows c || s.opOver c.op else (s.chunkFor c (s.ixOf c)).isSome || c.begins (s.ixOf c))

/-- The channels of a site in the order in which their heads take their turns: one whose chunk is half written first, since no chunk is
divided (R216, R336). -/
def State.turnOrder (s : State) (site : Nat) : List Nat :=
  let x := s.site site
  ((x.office.filter fun c => c.fn == 1 && c.half.isSome).map SortCmd.ch) ++ (List.range 8).map fun i => (x.lastCh + 1 + i) % 8

/-- R336: the office moves one chunk of the next channel in turn that has one. -/
def execCollectiveChunk (site ch : Nat) (s : State) : Out :=
  let s := s.dropChunks site
  let x := s.site site
  let next := (s.turnOrder site).find? fun h => (s.mover site h).isSome
  if next ≠ some ch then .next s
  else match s.mover site ch with
    | none => .next s
    | some c =>
      let s := s.setSite site { x with lastCh := ch }
      .next (if c.fn = 1 then s.combineTurn c else s.collTurn c (s.ixOf c))

end Sys2Proof.Machine
end

