-- ==== Sys2Proof/Machine/Sync.lean ====
section
/-! DEFINITION. Barriers, timeline waits and reads, bandwidth phases, and the maintenance of translation and record caches:
majors 0x39, 0x3A and 0x3B (R231 to R238). -/
namespace Sys2Proof.Machine

/-! ## Barrier objects (R231) -/

/-- The gang manager's cluster: the gang's first (log 15). -/
def State.gangHome (s : State) (cl : Nat) : Nat := (s.gangCl cl 0).getD cl

def Cluster.bar (c : Cluster) (o : Nat) : Bar := mget {} c.bars o
def State.setBar (s : State) (cl o : Nat) (b : Bar) : State :=
  let c := s.cl cl
  s.setCl cl { c with bars := mset c.bars o b }

/-- LIVE: the contexts of the gang that have not exited. -/
def Cluster.liveCount (c : Cluster) : Nat := 4 * max 1 c.ti.gangSize - c.gone.length

/-- The distance of a phase from the current one. -/
def Bar.dist (b : Bar) (ph : Nat) : Nat := (ph + 2 ^ 32 - b.p) % 2 ^ 32

/-- Arrivals at the phase at distance d. -/
def Bar.at (b : Bar) (d : Nat) : List Nat := (b.arr.filter fun a => a.1 == (b.p + d) % 2 ^ 32).map (·.2)

/-- The phase at distance d is reached. -/
def Bar.reached (b : Bar) (d : Nat) : Bool := decide (b.e ≤ (b.at d).length)

/-- Arrivals and the live contexts that have not arrived fall below E, at this open phase or an earlier one (R231). -/
def Bar.broken (b : Bar) (live : Nat) (gone : List Nat) (d : Nat) : Bool :=
  (List.range (d + 1)).any fun k =>
    let here := b.at k
    decide (here.length + (live - (here.filter fun g => !gone.contains g).length) < b.e)

/-- P passes the phases that are complete (R231). -/
def Bar.advance (b : Bar) (live : Nat) (gone : List Nat) : Nat → Bar
  | 0 => b
  | n + 1 =>
    if b.reached 0 && !b.broken live gone 0 then
      { b with p := (b.p + 1) % 2 ^ 32, arr := b.arr.filter fun a => a.1 != b.p }.advance live gone n
    else b

/-- The status of a phase for barv and barw: 0 OK for a complete phase, 1 BROKEN, 3 PHASE, none for one that is open. -/
def Bar.status (b : Bar) (live : Nat) (gone : List Nat) (ph : Nat) : Option Nat :=
  let d := b.dist ph
  if 2 ^ 31 ≤ d then some 0 else if 4 ≤ d then some 3 else if b.broken live gone d then some 1 else none

/-- A barrier instruction: the gang manager, the object and the operand. -/
def barOp (d a b : BitVec 6) (s : State) (k : State → Nat → Nat → W64 → Out) : Out :=
  gate 0 [.x a.toNat, .x b.toNat] [.x d.toNat] s fun s =>
    let (x, s) := s.readX a.toNat
    let (y, s) := s.readX b.toNat
    k s (s.gangHome s.clNo) (fld x 0 4) y

/-- A status word as an interlocked result. -/
def State.status (s : State) (d : BitVec 6) (n : Nat) : State := s.inter [.x d.toNat] (some [.x d.toNat (BitVec.ofNat 64 n)])

/-- R232: barv. -/
def execBarv (d a b : BitVec 6) (s : State) : Out :=
  barOp d a b s fun s cl o y =>
    let c := s.cl cl
    let x := c.bar o
    let ph := fld y 0 32
    match x.status c.liveCount c.gone ph with
    | some 1 => .next (s.status d 1)
    | some _ => .next (s.status d 3)
    | none =>
      if (x.at (x.dist ph)).contains s.cur then .next (s.status d 4)
      else .next ((s.setBar cl o ({ x with arr := x.arr ++ [(ph, s.cur)] }.advance c.liveCount c.gone 4)).status d 0)

/-- R232: barw, a waiting instruction. -/
def execBarw (d a b : BitVec 6) (s : State) : Out :=
  barOp d a b s fun s cl o y =>
    let c := s.cl cl
    let x := c.bar o
    let done (st : Nat) : Out :=
      let x := { x with waits := x.waits.filter (· != s.cur), resets := x.resets.filter (· != s.cur) }
      .next ((s.setBar cl o x).waitResult [.x d.toNat] [.x d.toNat (BitVec.ofNat 64 st)])
    if x.resets.contains s.cur then done 2
    else match x.status c.liveCount c.gone (fld y 0 32) with
      | some st => done st
      | none => s.holdWait (some (.bar cl o))

/-- R232: barset. -/
def execBarset (d a b : BitVec 6) (s : State) : Out :=
  barOp d a b s fun s cl o y =>
    let n := fld y 0 16
    if n = 0 ∨ 320 < n then .next (s.status d 5)
    else
      let x := (s.cl cl).bar o
      .next ((s.setBar cl o { e := n, waits := [], resets := x.resets ++ x.waits }).status d 0)

/-- The state word of barq (R232). -/
def Bar.word (b : Bar) (live : Nat) (gone : List Nat) : Nat :=
  let bits4 (f : Nat → Bool) : Nat := ofBits f 4
  bits4 (b.broken live gone) * 2 ^ 60 + bits4 b.reached * 2 ^ 56 + b.e % 512 * 2 ^ 47 + live % 512 * 2 ^ 38 + b.p

/-- R232: barq. -/
def execBarq (d a : BitVec 6) (s : State) : Out :=
  gate 0 [.x a.toNat] [.x d.toNat] s fun s =>
    let (x, s) := s.readX a.toNat
    let c := s.cl (s.gangHome s.clNo)
    .next (s.status d ((c.bar (fld x 0 4)).word c.liveCount c.gone))

/-- A context of a gang has exited or been killed: LIVE falls, and every object passes what is now complete (R233). -/
def State.barExit (s : State) (g : Nat) : State :=
  let cl := s.gangHome (g / 4)
  let c := s.cl cl
  if c.gone.contains g then s
  else
    let c := { c with gone := c.gone ++ [g] }
    s.setCl cl { c with bars := mmap (fun _ b => { b with waits := b.waits.filter (· != g) }.advance c.liveCount c.gone 4) c.bars }

/-! ## Timelines (R234 to R236) -/

/-- tlwait and tlwaitr: counter picks DONE or VIS; ISSUE is as the bundle found it (R234). -/
def tlWait (counter : Timeline → Nat) (d : BitVec 6) (t : BitVec 3) (b : BitVec 6) (s : State) : Out :=
  gate 0 [.x b.toNat] [.x d.toNat] s fun s =>
    let (y, s) := s.readX b.toNat
    let x := s.tl s.cur t.toNat
    let issue := match s.issue.issued with
      | some l => l.getD t.toNat 0
      | none => x.issue
    if min y.toNat issue ≤ counter x then .next (s.waitResult [.x d.toNat] [.x d.toNat (BitVec.ofNat 64 (counter x))])
    else if x.err.isSome then s.trapNow (tlerrTrap t.toNat 1)
    else s.holdWait

/-- R234: tlwait. -/
def execTlwait (d : BitVec 6) (t : BitVec 3) (b : BitVec 6) (s : State) : Out := tlWait (·.done) d t b s
/-- R234: tlwaitr. -/
def execTlwaitr (d : BitVec 6) (t : BitVec 3) (b : BitVec 6) (s : State) : Out := tlWait (·.vis) d t b s

/-- A timeline read, sampled in the cycle of issue (R235). -/
def tlRead (f : Timeline → Nat) (d : BitVec 6) (t : BitVec 3) (s : State) : Out :=
  gate 0 [] [.x d.toNat] s fun s => .next (s.status d (f (s.tl s.cur t.toNat)))

/-- R235: tlrd. -/
def execTlrd (d : BitVec 6) (t : BitVec 3) (s : State) : Out := tlRead (·.done) d t s
/-- R235: tlrdi. -/
def execTlrdi (d : BitVec 6) (t : BitVec 3) (s : State) : Out := tlRead (·.issue) d t s
/-- R235: tlrdc. -/
def execTlrdc (d : BitVec 6) (t : BitVec 3) (s : State) : Out := tlRead (fun x => x.issue - x.done) d t s
/-- R235: tlrdv. -/
def execTlrdv (d : BitVec 6) (t : BitVec 3) (s : State) : Out := tlRead (·.vis) d t s

/-- Every operation numbered below the faulting one has passed VIS or has failed (R236). -/
def Timeline.errReady (x : Timeline) (e : TlErr) : Bool :=
  (List.range (e.num - 1 - x.vis)).all fun i => x.seen.contains (x.vis + 1 + i) || x.failed.contains (x.vis + 1 + i)

/-- The second word of an error record (R236). -/
def Timeline.errWord (x : Timeline) (e : TlErr) : W64 :=
  BitVec.ofNat 64 (min (x.issue - e.num) (2 ^ 48 - 1) * 2 ^ 16 + min e.more 255 * 2 ^ 8 + e.side % 2 * 2 ^ 5 + e.code % 16 * 2 + 1)

/-- What tlerr returns now, and the timeline it leaves; none while it must wait (R236). -/
def Timeline.tlerr (x : Timeline) : Option (W64 × W64 × Timeline) :=
  match x.err with
  | none => some (0, 0, x)
  | some e => if x.errReady e then some (e.addr, x.errWord e, { issue := x.issue, done := x.issue, vis := x.issue }) else none

/-- R236: tlerr. Where it must wait, the result stays in flight until the wait ends. -/
def execTlerr (d : BitVec 4) (t : BitVec 3) (s : State) : Out :=
  let r := 2 * d.toNat
  gate 0 [] [.x r, .x (r + 1)] s fun s =>
    match (s.tl s.cur t.toNat).tlerr with
    | some (a, w, x) => .next ((s.setTl s.cur t.toNat x).inter [.x r, .x (r + 1)] (some [.x r a, .x (r + 1) w]))
    | none =>
      let id := s.nextInter
      let s := s.inter [.x r, .x (r + 1)] none
      let c := s.me
      .next (s.setMe { c with tlErrs := c.tlErrs ++ [(id, t.toNat, r)] })

/-- A tlerr of context g whose wait has ended gives its result (R236). -/
def State.tryTlErr (s : State) (g id : Nat) : State :=
  let c := s.ctx g
  match c.tlErrs.find? fun e => e.1 == id with
  | none => s
  | some (_, t, r) => match (s.tl g t).tlerr with
    | none => s
    | some (a, w, x) =>
      let s := s.setCtx g { c with tlErrs := c.tlErrs.filter fun e => e.1 != id }
      (s.setTl g t x).answer g id [.x r a, .x (r + 1) w]

/-! ## Bandwidth phases (R237) -/

/-- R237: bwph, at t + 1. -/
def execBwph (a : BitVec 6) (s : State) : Out :=
  gate 0 [.x a.toNat] [] s fun s =>
    let (x, s) := s.readX a.toNat
    .next { s with issue := { s.issue with late := s.issue.late ++ [.phase (min x.toNat 7)] } }

/-- DECL of a context: 0 unless it runs (R31). -/
def Ctx.decl (c : Ctx) : Nat := if c.live = .run then c.phase else 0

/-- EFF of a cluster (R31). -/
def State.eff (s : State) (cl : Nat) : Nat := (List.range 4).foldl (fun m k => max m (s.ctx (4 * cl + k)).decl) 0

/-- HEAT of a quarter (R280): the lowest class with a page, or 7. -/
def Cluster.heatOf (c : Cluster) (q : Nat) : Nat := ((List.range 8).find? fun h => mget 0 c.heat (q * 8 + h) != 0).getD 7

/-- ALLOC of a quarter (R280). -/
def Cluster.alloc (c : Cluster) (q : Nat) : Bool := (List.range 8).any fun h => mget 0 c.heat (q * 8 + h) != 0

/-- The bank sets of the channels in use, as quarter × 4 + channel; 3 stands for the spare that a move fills (R275). -/
def Cluster.sets (c : Cluster) : List Nat :=
  (List.range 4).flatMap fun q => (List.range c.nChan ++ (if c.chState = ChanState.spare then [3] else [])).map fun ch => q * 4 + ch

/-- A set is ACTIVE or NAP (R281). -/
def Cluster.setReady (c : Cluster) (k : Nat) : Bool := match mget .on c.bankPwr k with
  | .on => true
  | .nap => true
  | _ => false

/-- The sets that EFF governs are ready (R237). -/
def State.setsReady (s : State) (cl : Nat) : Bool :=
  let c := s.cl cl
  c.sets.all fun k => !decide (c.heatOf (k / 4) < s.eff cl) || c.setReady k

/-- R237: wakew, a waiting instruction. -/
def execWakew (s : State) : Out :=
  gate 0 [] [] s fun s => if s.setsReady s.clNo then .next s else s.holdWait

/-! ## Translation and record caches (R238) -/

/-- The page of a cached leaf, or of a token, meets [a, a + n). -/
def meets (lo size a n : Nat) : Bool := n == 0 || (decide (lo < a + n) && decide (a < lo + size))

/-- The tokens in use whose pages meet [a, a + n), as GEN × 1,024 + INDEX (R331). -/
def Cluster.tokensOver (c : Cluster) (a n : Nat) : List Nat :=
  (c.tokens.filter fun e => e.2.state != 0 && meets e.2.va e.2.size a n).map fun e => e.2.gen * 1024 + e.1

/-- The cached translations of the pages that meet [a, a + n) go at once; the tokens over them are revoked, and the next tlbsync
waits for them, those already being revoked among them (R238, R332). -/
def State.invTlb (s : State) (cl a n : Nat) : State :=
  let c := s.cl cl
  let keep (e : TlbEnt) : Bool := !meets (e.vpn * 2 ^ pageBits e.level) (2 ^ pageBits e.level) a n
  let gone := c.tokensOver a n
  let s := s.setCl cl { c with tlb := c.tlb.filter keep, engTlb := c.engTlb.filter keep, tlbInv := c.tlbInv ++ gone }
  gone.foldl (fun s k => s.revoke cl (k % 1024)) s

/-- R238, R332: tlbinv. -/
def execTlbinv (a b : BitVec 6) (s : State) : Out :=
  gate 1 [.x a.toNat, .x b.toNat] [] s fun s =>
    let (x, s) := s.readX a.toNat
    let (y, s) := s.readX b.toNat
    .next (s.invTlb s.clNo x.toNat y.toNat)

/-- A token is still being revoked (R332). -/
def Cluster.revoking (c : Cluster) (k : Nat) : Bool :=
  let t := mget {} c.tokens (k % 1024)
  t.state == 2 && t.gen == k / 1024

/-- R238: tlbsync, a waiting instruction: every token revoked by a tlbinv is FREE. -/
def execTlbsync (s : State) : Out :=
  gate 1 [] [] s fun s =>
    let c := s.myCl
    if c.tlbInv.any c.revoking then s.holdWait else .next (s.setMyCl { c with tlbInv := [] })

/-- R238: rtcinv. Cached records go at once. -/
def execRtcinv (a b : BitVec 6) (s : State) : Out :=
  gate 1 [.x a.toNat, .x b.toNat] [] s fun s =>
    let (x, s) := s.readX a.toNat
    let (y, s) := s.readX b.toNat
    let c := s.myCl
    let hit (h : Nat) : Bool := y == 0 || decide ((h + 2 ^ 16 - fld x 0 16) % 2 ^ 16 < y.toNat)
    .next (s.setMyCl { c with recCache := c.recCache.filter fun e => !hit e.1 })

/-- R238: rtcsync, a waiting instruction. An rtcinv has completed when it has issued, so it waits for nothing. -/
def execRtcsync (s : State) : Out := gate 1 [] [] s fun s => .next s

end Sys2Proof.Machine
end

