-- ==== Sys2Proof/Machine/Tasks.lean ====
section
/-! DEFINITION. Device work queues and gain heaps: majors 0x3C FN 3 to 7 and 0x3D (R240 to R248, R313, R315). -/
namespace Sys2Proof.Machine

/-! ## Work queues (R240 to R242, R313) -/

def WorkQ.size (q : WorkQ) : Nat := 2 ^ q.log2

/-- The home of slot i of a queue. -/
def WorkQ.slot (q : WorkQ) (site i : Nat) : Nat := pigAt site (q.base / (8 * q.size) * (8 * q.size) + 8 * (i % q.size))

/-- The head moved past cancelled slots. -/
def WorkQ.trim (q : WorkQ) : Nat → WorkQ
  | 0 => q
  | n + 1 =>
    if q.head < q.tail ∧ q.gone.contains q.head then
      { q with head := q.head + 1, gone := q.gone.filter (· != q.head) }.trim n
    else q

/-- One more operation of a queue (R242). -/
def State.countOp (s : State) (site i : Nat) : State :=
  let q := (s.site site).queue i
  s.setQueue site i { q with ops := q.ops + 1 }

/-- The head entry of a queue as a pop by context g takes it: the answer, which makes the pop an operation of the queue, or none where
the queue is empty and open. An uncorrectable error freezes it (R284). -/
def State.qTake (s : State) (site i g : Nat) : Option (Bool × W64) × State :=
  let q := (s.site site).queue i
  if q.frozen then (some (false, 3), s.countOp site i)
  else if q.head = q.tail then (none, s)
  else if q.closed ∧ q.head + 1 = q.tail then (some (false, 2), s.countOp site i)
  else
    let pa := q.slot site q.head
    let s := s.readAt (g / 4) pa 8
    if s.badAt pa 8 then (some (false, 3), ((s.logBad (g / 4) pa 8).setQueue site i q.freeze).countOp site i)
    else
      let v : W64 := BitVec.ofNat 64 (s.load pa 8)
      let q := { q with head := q.head + 1, ops := q.ops + 1, taken := ((v, g, q.ops + 1) :: q.taken).take 65 }.trim q.gone.length
      (some (true, v), s.setQueue site i q)

/-- The first waiting pop that has no answer. -/
def firstWait (ws : List Waiter) : Option Nat := (ws.find? fun w => w.ans.isNone).map (·.ctx)

/-- An answer given to a waiting context. -/
def giveAns (ws : List Waiter) (g : Nat) (a : Bool × W64) : List Waiter :=
  ws.map fun w => if w.ctx = g ∧ w.ans.isNone then { w with ans := some a } else w

/-- Waiting pops answered in order while there is something for them (R241). -/
def State.qSettle (s : State) (site i : Nat) : Nat → State
  | 0 => s
  | n + 1 =>
    match firstWait ((s.site site).queue i).waits with
    | none => s
    | some g => match s.qTake site i g with
      | (none, s) => s
      | (some a, s) =>
        let q := (s.site site).queue i
        (s.setQueue site i { q with waits := giveAns q.waits g a }).qSettle site i n

/-- The queue word (R240). -/
def qSite (x : W64) : Nat := fld x 10 6
def qIx (x : W64) : Nat := fld x 0 10

/-- The queue is assigned to the issuing team (R313). -/
def State.qUsable (s : State) (x : W64) : Bool :=
  let q := (s.site (qSite x)).queue (qIx x)
  q.v && q.team == s.myCl.ti.team

/-- A pop's result: the flag, D, and the current task (R243). -/
def State.popResult (s : State) (heap : Bool) (site ix : Nat) (d : BitVec 6) (c : BitVec 3) (a : Bool × W64) (waiting : Bool) : State :=
  let me := s.me
  let s := s.setMe { me with task := if a.1 then some { heap := heap, site := site, ix := ix, word := a.2 } else none }
  let ds : List Reg := [.x d.toNat, .c c.toNat]
  let ws : List Wr := [.x d.toNat a.2, .c c.toNat a.1]
  if waiting then s.waitResult ds ws else s.inter ds (some ws)

/-- R241: qpop, a waiting instruction. -/
def execQpop (d a : BitVec 6) (c : BitVec 3) (s : State) : Out :=
  gate 0 [.x a.toNat] [.x d.toNat, .c c.toNat] s fun s =>
    let (x, s) := s.readX a.toNat
    let site := qSite x
    let i := qIx x
    let q := (s.site site).queue i
    match q.waits.find? fun w => w.ctx == s.cur with
    | some w => match w.ans with
      | none => s.holdWait
      | some r =>
        .next ((s.setQueue site i { q with waits := q.waits.filter fun w => w.ctx != s.cur }).popResult false site i d c r true)
    | none =>
      if !s.qUsable x then .next (s.popResult false site i d c (false, 6) true)
      else if (firstWait q.waits).isSome then s.holdWait (some (.qpop site i))
      else match s.qTake site i s.cur with
        | (some r, s) => .next (s.popResult false site i d c r true)
        | (none, s) => s.holdWait (some (.qpop site i))

/-- R241: qtry. -/
def execQtry (d a : BitVec 6) (c : BitVec 3) (s : State) : Out :=
  gate 0 [.x a.toNat] [.x d.toNat, .c c.toNat] s fun s =>
    let (x, s) := s.readX a.toNat
    let site := qSite x
    let i := qIx x
    if !s.qUsable x then .next (s.popResult false site i d c (false, 6) false)
    else match s.qTake site i s.cur with
      | (some r, s) => .next (s.popResult false site i d c r false)
      | (none, s) => .next ((s.countOp site i).popResult false site i d c (false, 1) false)

/-- R241: qpush. The value of all ones appends the CLOSE marker. -/
def execQpush (d a b : BitVec 6) (s : State) : Out :=
  gate 0 [.x a.toNat, .x b.toNat] [.x d.toNat] s fun s =>
    let (x, s) := s.readX a.toNat
    let (y, s) := s.readX b.toNat
    let site := qSite x
    let i := qIx x
    let q := (s.site site).queue i
    if !s.qUsable x then .next (s.status d 6)
    else if q.closed then .next ((s.countOp site i).status d 4)
    else if q.size ≤ q.tail - q.head then .next ((s.countOp site i).status d 5)
    else
      let s := s.perform (q.slot site q.tail) 8 y.toNat
      let s := s.setQueue site i { q with tail := q.tail + 1, ops := q.ops + 1, closed := y == BitVec.allOnes 64 }
      .next ((s.qSettle site i (q.waits.length + 1)).status d 0)

/-- R242: qcancel. An entry whose word holds an uncorrectable error has no value to compare (log 68). -/
def execQcancel (d a b : BitVec 6) (s : State) : Out :=
  gate 0 [.x a.toNat, .x b.toNat] [.x d.toNat] s fun s =>
    let (x, s) := s.readX a.toNat
    let (y, s) := s.readX b.toNat
    let site := qSite x
    let i := qIx x
    let q := (s.site site).queue i
    if !s.qUsable x then .next (s.status d 6)
    else
      let last := if q.closed then q.tail - 1 else q.tail
      let here (j : Nat) : Bool := !q.gone.contains j && !s.badAt (q.slot site j) 8 && s.load (q.slot site j) 8 == y.toNat
      let q' := { q with ops := q.ops + 1 }
      if y = BitVec.allOnes 64 then .next ((s.setQueue site i q').status d 2)
      else match (List.range' q.head (last - q.head)).find? here with
        | some j => .next ((s.setQueue site i ({ q' with gone := q'.gone ++ [j] }.trim (q.gone.length + 1))).status d 0)
        | none =>
          match q.taken.find? fun t => t.1 == y && decide (q'.ops - t.2.2 ≤ 64) with
          | some t => .next ((s.setQueue site i q').status d (t.2.1 % 2 ^ 15 * 2 ^ 16 + 1))
          | none => .next ((s.setQueue site i q').status d 2)

/-- The heap word (R244). -/
def hSite (x : W64) : Nat := fld x 4 6
def hIx (x : W64) : Nat := fld x 0 4

/-- The heap is assigned to the issuing team (R315). -/
def State.hUsable (s : State) (x : W64) : Bool :=
  let h := (s.site (hSite x)).heap (hIx x)
  h.v && h.team == s.myCl.ti.team

/-- R243: qthaw, of a queue or, with A[16], a heap. -/
def execQthaw (d a : BitVec 6) (s : State) : Out :=
  gate 0 [.x a.toNat] [.x d.toNat] s fun s =>
    let (x, s) := s.readX a.toNat
    if fld x 16 1 = 1 then
      let h := (s.site (hSite x)).heap (hIx x)
      if s.hUsable x then .next ((s.setHeap (hSite x) (hIx x) { h with frozen := false, written := false }).status d 0)
      else .next (s.status d 6)
    else
      let q := (s.site (qSite x)).queue (qIx x)
      if s.qUsable x then .next ((s.setQueue (qSite x) (qIx x) { q with frozen := false, written := false }).status d 0)
      else .next (s.status d 6)

/-! ## Gain heaps (R244 to R248) -/

def Heap.task (h : Heap) (id : Nat) : HTask := mget {} h.tasks id
def Heap.setTask (h : Heap) (id : Nat) (t : HTask) : Heap := { h with tasks := mset h.tasks id t }

/-- The gain reaches the floor, −0 equal to +0 (R246). -/
def Heap.reaches (h : Heap) (g : Nat) : Bool := (fCmp f32 .le h.floor g).1

/-- The packed task word (R244). -/
def taskWord (id g : Nat) : W64 := BitVec.ofNat 64 (id % 65536 + g % 2 ^ 32 * 65536)

/-- The task with the greatest gain among those QUEUED, lower id first. -/
def Heap.best (h : Heap) : Option Nat :=
  ((h.tasks.filter fun e => e.2.st == 1).foldl (fun (b : Option (Nat × Nat)) e =>
    match b with
    | none => some (e.1, e.2.g)
    | some (i, g) => if (fCmp f32 .lt g e.2.g).1 then some (e.1, e.2.g) else some (i, g)) none).map (·.1)

/-- The QUEUED task with the earliest entry time, lower id first. -/
def Heap.eldest (h : Heap) : Option Nat :=
  ((h.tasks.filter fun e => e.2.st == 1).foldl (fun (b : Option (Nat × Nat)) e =>
    match b with
    | none => some (e.1, e.2.time)
    | some (i, t) => if e.2.time < t then some (e.1, e.2.time) else some (i, t)) none).map (·.1)

/-- A pop at its serialisation point (R247): the answer and the heap it leaves, or none where it waits. -/
def Heap.pop (h : Heap) : Option ((Bool × W64) × Heap) :=
  if h.frozen then some ((false, 3), h)
  else if h.drained then some ((false, 2), h)
  else if h.res.toInt < h.tol.toInt then some ((false, 2), { h with drained := true })
  else
    match (if h.age ≠ 0 ∧ (h.pops + 1) % h.age = 0 then h.eldest else h.best) with
    | some id =>
      let t := h.task id
      some ((true, taskWord id t.g), { h.setTask id { t with st := 2, p := 0 } with pops := h.pops + 1 })
    | none => if h.tasks.any fun e => e.2.st == 2 then none else some ((false, 2), h)

/-- Waiting pops answered in order while they can be (R245). -/
def Heap.settle (h : Heap) : Nat → Heap
  | 0 => h
  | n + 1 => match firstWait h.waits with
    | none => h
    | some g => match h.pop with
      | none => h
      | some (a, h) => { h with waits := giveAns h.waits g a }.settle n

/-- HEAP with a reason (R244). -/
def heapTrap (reason : Nat) : Trap := { cause := 0x16, reason := reason }

/-- The state of a task changed by a serialised operation at entry time now (Table 36): the new task and the DISCARD
bit. f is the update of a gain, or none where it is discarded. -/
def Heap.update (h : Heap) (t : HTask) (now : Nat) (setting : Bool) (f : Nat → Option Nat) : HTask × Bool :=
  match t.st with
  | 0 => match f t.g with
    | some g => ({ t with g := g, st := if setting || h.reaches g then 1 else 0, time := if setting || h.reaches g then now else t.time }, false)
    | none => ({ t with st := if h.reaches t.g then 1 else 0, time := if h.reaches t.g then now else t.time }, true)
  | 1 => match f t.g with
    | some g => ({ t with g := g }, false)
    | none => (t, true)
  | _ =>
    if setting then (t, false)
    else match f t.p with
      | some p => ({ t with p := p }, false)
      | none => (t, true)

/-- An update of a task: its checks, the update at its serialisation point, the pending pops, and the status word. -/
def heapUpdate (setting : Bool) (f : Nat → Nat → Option Nat) (d a b : BitVec 6) (s : State) : Out :=
  gate 0 [.x a.toNat, .x b.toNat] [.x d.toNat] s fun s =>
    let (x, s) := s.readX a.toNat
    let (y, s) := s.readX b.toNat
    let h := (s.site (hSite x)).heap (hIx x)
    let id := fld y 0 16
    let gain := fld y 16 32
    if !s.hUsable x then s.trapNow (heapTrap 3)
    else if h.cap ≤ id then s.trapNow (heapTrap 2)
    else if (unpack f32 gain).isNan then s.trapNow (heapTrap 1)
    else
      let t := h.task id
      let (t', dis) := h.update t (h.ops + 1) setting (f gain)
      let h' := { h.setTask id t' with ops := h.ops + 1 }.settle (h.waits.length + 1)
      .next ((s.setHeap (hSite x) (hIx x) h').status d (t'.st * 16 + bn dis * 4 + t.st))

/-- A sum, discarded where it would be a NaN (R246). R44 names the flags of scalar, vector, matrix and ring operations and no rule
names a heap's: the sum sets none (DESIGN CHOICE, log 69). -/
def gainSum (x g : Nat) : Option Nat :=
  let r := (fAdd f32 .rne g x).1
  if (unpack f32 r).isNan then none else some r

/-- R246: hpush. -/
def execHpush (d a b : BitVec 6) (s : State) : Out := heapUpdate true (fun gain _ => some gain) d a b s
/-- R246: hadj. -/
def execHadj (d a b : BitVec 6) (s : State) : Out := heapUpdate false gainSum d a b s
/-- R246: hmax. -/
def execHmax (d a b : BitVec 6) (s : State) : Out := heapUpdate false (fun gain g => some (fMinMax f32 true g gain).1) d a b s

/-- hdone of a task at its serialisation point: the heap it leaves, and the status word (Table 36). -/
def Heap.finish (h : Heap) (id : Nat) : Heap × Nat :=
  let t := h.task id
  let h1 := { h with ops := h.ops + 1 }
  if t.st ≠ 2 then (h1.settle (h.waits.length + 1), t.st * 16 + 8 + t.st)
  else
    let q := h.reaches t.p
    let t' : HTask := { t with g := t.p, st := if q then 1 else 0, time := if q then h.ops + 1 else t.time }
    ((h1.setTask id t').settle (h.waits.length + 1), t'.st * 16 + 2)

/-- The current task is a task of a heap with an id. -/
def CurTask.isHeapTask (k : CurTask) (site ix id : Nat) : Bool := k.heap && k.site == site && k.ix == ix && fld k.word 0 16 == id

/-- R246: hdone. It ends the context's current task where it is that task (R243). -/
def execHdone (d a b : BitVec 6) (s : State) : Out :=
  gate 0 [.x a.toNat, .x b.toNat] [.x d.toNat] s fun s =>
    let (x, s) := s.readX a.toNat
    let (y, s) := s.readX b.toNat
    let h := (s.site (hSite x)).heap (hIx x)
    let id := fld y 0 16
    if !s.hUsable x then s.trapNow (heapTrap 3)
    else if h.cap ≤ id then s.trapNow (heapTrap 2)
    else
      let (h', st) := h.finish id
      let me := s.me
      let s := s.setMe { me with task := me.task.filter fun k => !k.isHeapTask (hSite x) (hIx x) id }
      .next ((s.setHeap (hSite x) (hIx x) h').status d st)

/-- R247: hpop, a waiting instruction unless A[16] is 1. -/
def execHpop (d a : BitVec 6) (c : BitVec 3) (s : State) : Out :=
  gate 0 [.x a.toNat] [.x d.toNat, .c c.toNat] s fun s =>
    let (x, s) := s.readX a.toNat
    let site := hSite x
    let i := hIx x
    let h := (s.site site).heap i
    let nb := fld x 16 1 == 1
    match h.waits.find? fun w => w.ctx == s.cur with
    | some w => match w.ans with
      | none => s.holdWait
      | some r =>
        .next ((s.setHeap site i { h with waits := h.waits.filter fun w => w.ctx != s.cur }).popResult true site i d c r true)
    | none =>
      if !s.hUsable x then s.trapNow (heapTrap 3)
      else match Heap.pop { h with ops := h.ops + 1 } with
        | some (r, h') => .next ((s.setHeap site i h').popResult true site i d c r (!nb))
        | none =>
          if nb then .next ((s.setHeap site i { h with ops := h.ops + 1 }).popResult true site i d c (false, 1) false)
          else s.holdWait (some (.hpop site i))

/-- R248: hres. -/
def execHres (d a b : BitVec 6) (s : State) : Out :=
  gate 0 [.x a.toNat, .x b.toNat] [.x d.toNat] s fun s =>
    let (x, s) := s.readX a.toNat
    let (y, s) := s.readX b.toNat
    let h := (s.site (hSite x)).heap (hIx x)
    if !s.hUsable x then s.trapNow (heapTrap 3)
    else
      let r := wrap 64 (satS64 (h.res.toInt + y.toInt))
      let h' := { h with res := r, ops := h.ops + 1 }.settle (h.waits.length + 1)
      .next ((s.setHeap (hSite x) (hIx x) h').inter [.x d.toNat] (some [.x d.toNat r]))

/-- R248: hread. -/
def execHread (d a b : BitVec 6) (s : State) : Out :=
  gate 0 [.x a.toNat, .x b.toNat] [.x d.toNat] s fun s =>
    let (x, s) := s.readX a.toNat
    let (y, s) := s.readX b.toNat
    let h := (s.site (hSite x)).heap (hIx x)
    let id := fld y 0 16
    if !s.hUsable x then s.trapNow (heapTrap 3)
    else if h.cap ≤ id then s.trapNow (heapTrap 2)
    else
      let t := h.task id
      .next (s.status d (t.st * 2 ^ 48 + (if t.st = 2 then t.p else t.g) * 2 ^ 16 + id))

/-! ## Pops that wait (R226, R387) -/

/-- A mark left by a waiting instruction (R226 step 4). -/
def State.keepAt (s : State) (g : Nat) : Keep → State
  | .qpop site i =>
    let q := (s.site site).queue i
    (s.setQueue site i { q with waits := q.waits ++ [{ ctx := g }] }).qSettle site i (q.waits.length + 1)
  | .hpop site i =>
    let h := (s.site site).heap i
    s.setHeap site i (Heap.settle { h with waits := h.waits ++ [{ ctx := g }], ops := h.ops + 1 } (h.waits.length + 1))
  | .bar cl o =>
    let b := (s.cl cl).bar o
    if b.waits.contains g then s else s.setBar cl o { b with waits := b.waits ++ [g] }

/-- Every site's queues and heaps with their waiters changed. -/
def State.mapWaits (s : State) (f : List Waiter → List Waiter) : State :=
  { s with sites := mmap (fun _ x => { x with
      queues := mmap (fun _ q => { q with waits := f q.waits }) x.queues
      heaps := mmap (fun _ h => { h with waits := f h.waits }) x.heaps }) s.sites }

/-- The pop of a context that waits has been answered: its bundle issues before anything else happens to the context. -/
def State.answered (s : State) (g : Nat) : Bool :=
  s.sites.any fun e => (e.2.queues.any fun q => q.2.waits.any fun w => w.ctx == g && w.ans.isSome) ||
    e.2.heaps.any fun h => h.2.waits.any fun w => w.ctx == g && w.ans.isSome

/-- The marks of a context withdrawn (R226 step 5). -/
def State.withdraw (s : State) (g : Nat) : State :=
  let s := s.mapWaits fun ws => ws.filter fun w => w.ctx != g || w.ans.isSome
  { s with clusters := mmap (fun _ c => { c with
      bars := mmap (fun _ b => { b with waits := b.waits.filter (· != g), resets := b.resets.filter (· != g) }) c.bars }) s.clusters }

end Sys2Proof.Machine
end

