-- ==== Sys2Proof/Machine/Landing.lean ====
section
/-! DEFINITION. Steps that are a context's own between its bundles: landings, arrivals, deferred traps, fetches, deliveries to its queue
registers; and the cycle of a cluster (R14, R34, R75, R88 to R95, R103, R133, R314, R360). -/
namespace Sys2Proof.Machine

/-- The context stands at a bundle boundary where only its next bundle, its wait count spent, is what it waits for. -/
def Ctx.atBundle (c : Ctx) : Bool :=
  c.live == .run && c.memErrs.isEmpty && c.taskFaults.isEmpty && c.cstate != .compensate && !c.settle && c.fence.isNone &&
    (c.sqr.step == 0 || c.sqr.susp) && !c.waiting && c.waitLeft == some 0 && (c.shadow.isEmpty || c.pending.isEmpty)

/-- The bundle of context g stands in its loop buffer, so that it is replayed without fetch (R97). -/
def Ctx.replayed (c : Ctx) : Option (List Nat) :=
  ((c.lbuf.filter fun l => !l.suspended).bind fun l => l.words.find? fun e => e.1 == c.pc.toNat).map (·.2)

/-- The instance that context g belongs to has been asked to stop (R107). -/
def State.stopping (s : State) (g : Nat) : Bool := s.teams.any fun t => t.2.phase == .stopping && t.2.clusters.contains (g / 4)

/-- R62, R63, R133, R360: the block of the context's next bundle is read, opened and checked, and the bundle's slots found; a
failure is the trap of that bundle. -/
def execBlockOpen (ctx : Nat) (s : State) : Out :=
  let c := s.ctx ctx
  if !c.atBundle || c.replayed.isSome || s.stopping ctx then .next s
  else match s.fetchBlock ctx (c.pc.toNat / 256) with
    | .error t => .next ((s.logTrap ctx t).trapEntry ctx t c.pc)
    | .ok (p, s) => match slotsAt p c.pc with
      | .error e => .next (s.trapEntry ctx { cause := 0x02, reason := e.code } c.pc)
      | .ok _ => .next s

/-- R89: the fixed-latency results whose landing cycle the count has reached land, and set their flags. -/
def execFixedLatencyLanding (ctx : Nat) (s : State) : Out := .next (s.setCtx ctx (s.ctx ctx).landDue)

/-- An interlocked result lands where R90 lets it. -/
def State.landResult (s : State) (g id : Nat) : State :=
  let c := s.ctx g
  match c.inflight.find? fun f => f.id == id with
  | some f => if c.canLand f then s.setCtx g (c.landInflight f) else s
  | none => s

/-- R90, R91: an interlocked result that is known arrives and lands. -/
def execInterlockedResultArrival (ctx id : Nat) (s : State) : Out := .next ((s.tryTlErr ctx id).landResult ctx id)

/-- The context leaves COMPENSATE once what is due has arrived by cycle now: it lands (R93). -/
def Ctx.endCompensate (c : Ctx) (now : Nat) : Ctx :=
  if c.cstate = .compensate ∧ !c.late now then { c with cstate := .held }.landAll else c

/-- R93: the late result arrives. -/
def execCompensatedResultArrival (ctx : Nat) (s : State) : Out :=
  .next (s.setCtx ctx ((s.ctx ctx).endCompensate (s.cl (ctx / 4)).cycle))

/-! ## Deferred traps (R103, R314, R387) -/

/-- A deferred trap taken at the context's bundle boundary, its waits withdrawn. WREM is the W of the bundle at TRAPPC, also where the
context has spent some or all of it or holds the bundle (R102 step 3); S is then the count as it stands, for R102 names only the first
cycle of the wait (DESIGN CHOICE, log 46). -/
def State.takeDeferred (s : State) (g : Nat) (t : Trap) : State :=
  let s := s.withdraw g
  let c := s.ctx g
  (s.setCtx g { c with waiting := false }).trapEntry g t c.pc (s.peekWait g c.pc)

/-- The deferred MEMERR that context g takes next: a pop that has been answered issues first. -/
def State.dueMemErr (s : State) (g : Nat) : Option Trap := (s.ctx g).memErrs.head?.filter fun _ =>
  (s.ctx g).live == .run && (s.ctx g).cstate != .compensate && !s.answered g

/-- The pending TASKFAULT that context g takes next. -/
def State.dueTaskFault (s : State) (g : Nat) : Option Trap := (s.ctx g).taskFaults.head?.filter fun _ =>
  (s.ctx g).live == .run && (s.ctx g).cstate != .compensate && !s.answered g

def State.takeMemErr (s : State) (g : Nat) (t : Trap) : State :=
  let c := s.ctx g
  (s.setCtx g { c with memErrs := c.memErrs.drop 1 }).takeDeferred g t
def State.takeTaskFault (s : State) (g : Nat) (t : Trap) : State :=
  let c := s.ctx g
  (s.setCtx g { c with taskFaults := c.taskFaults.drop 1 }).takeDeferred g t

/-- R103: a MEMERR found after its load had issued is taken. -/
def execLoadMemoryError (ctx : Nat) (s : State) : Out :=
  match s.dueMemErr ctx with
  | some t => .next (s.takeMemErr ctx t)
  | none => .next s

/-- R314, R387: a pending TASKFAULT is taken. -/
def execTaskfaultDelivery (ctx : Nat) (s : State) : Out :=
  match s.dueTaskFault ctx with
  | some t => .next (s.takeTaskFault ctx t)
  | none => .next s

/-! ## Bound queue registers (R14) -/

/-- The stream of a queue register pushes its next entry. -/
def State.deliver (s : State) (ctx : Nat) : Option Stream → Nat → State
  | some (.delivery sid), _ => s.deliverEntry ctx sid
  | some (.ring r), _ => s.deliverChunk ctx r
  | some (.drain e), vq =>
    match ((s.cl (ctx / 4)).engine e).drains.findIdx? fun d => d.ctx == ctx && d.vq == vq with
    | some k => s.deliverDrain (ctx / 4) e k
    | none => s
  | none, _ => s

/-- R14: the engine pushes an entry into a bound queue register: q0 to q15, then vq0 to vq3 as 16 to 19. -/
def execBoundQueueDelivery (ctx q : Nat) (s : State) : Out :=
  let c := s.ctx ctx
  .next (if q < 16 then s.deliver ctx (c.getQ q).bound 0 else s.deliver ctx (c.getVQ (q - 16)).bound (q - 16))

/-! ## Cycles (R34, R88, R95) -/

/-- The running contexts of a cluster, in cyclic order from the one after its last primary (R95). -/
def State.lineUp (s : State) (cl : Nat) : List Nat :=
  ((List.range 4).map fun i => 4 * cl + ((s.cl cl).primary + 1 + i) % 4).filter fun g => (s.ctx g).live == .run

/-- R34, R88, R95: a cycle of a cluster begins. The accesses of its contexts that are due reach their memories, and its running
contexts take their turns in order, the merge stage's choice open. -/
def execAclkCycle (cl : Nat) (s : State) : Out :=
  let c := s.cl cl
  let s := s.setCl cl { c with cycle := (c.cycle + 1) % 2 ^ 64 }
  let s := (List.range 4).foldl (fun s k => s.performDue (4 * cl + k)) s
  .next (match s.lineUp cl with
    | g :: gs => { s with cur := g, lane := { left := gs } }
    | [] => s)

/-! ## Unallocated encodings (R75) -/

/-- R75: a slot word with no meaning traps ILLEGAL as slot 0 of the context's bundle; a word that has one is left alone. -/
def execUnallocatedEncoding (w : BitVec 32) (s : State) : Out :=
  match (unallocated w.toNat).filter fun _ => s.me.live == .run with
  | some e => .next (s.trapEntry s.cur { cause := 0x01, reason := e.code } s.me.pc)
  | none => .next s

end Sys2Proof.Machine
end

