-- ==== Sys2Proof/Machine/Control.lean ====
section
/-! DEFINITION. Control transfer, the loop buffer and repeat, and the slots of 0x00 that end or trap the context: majors 0x00 and
0x14 to 0x17 (R96 to R98, R116, R117, R133 to R137). -/
namespace Sys2Proof.Machine

/-- A transfer to an address: it takes effect when the bundle has issued (R111). -/
def State.transfer (s : State) (a : W64) : State := { s with issue := { s.issue with target := some a } }

/-- The checks of a register target (R134). -/
def targetTrap (a : W64) : Option Trap :=
  if fld a 0 2 ≠ 0 then some (alignTrap a 4)
  else if fld a 48 16 ≠ 0 then some (xlateTrap a 1 3)
  else none

/-- A push of the next bundle's address, then a transfer (R98, R133). -/
def State.callTo (s : State) (a : W64) : Out :=
  match s.pushRet (.addr s.issue.next) with
  | .error t => s.retFails t
  | .ok s => .next (s.transfer a)

/-- R133: br. -/
def execBr (i : BitVec 21) (s : State) : Out := gate 0 [] [] s fun s => .next (s.transfer (s.rel (s.imm i)))
/-- R133: call. -/
def execCall (i : BitVec 21) (s : State) : Out := gate 0 [] [] s fun s => s.callTo (s.rel (s.imm i))

/-- R134, R98, R310: the return stack is popped. An address is the target; a mark ends the part that the sequencer
runs, which goes on when the bundle has issued. -/
def execRet (s : State) : Out :=
  gate 0 [] [] s fun s =>
    match s.popRet with
    | .error t => s.retFails t
    | .ok (.addr a, s) => .next (s.transfer a)
    | .ok (.mark, s) => .next { s with issue := { s.issue with partEnd := true } }

/-- R134: jr. -/
def execJr (a : BitVec 6) (s : State) : Out :=
  gate 0 [.x a.toNat] [] s fun s =>
    let (x, s) := s.readX a.toNat
    match targetTrap x with
    | some t => s.trapNow t
    | none => .next (s.transfer x)

/-- R134: callr. -/
def execCallr (a : BitVec 6) (s : State) : Out :=
  gate 0 [.x a.toNat] [] s fun s =>
    let (x, s) := s.readX a.toNat
    match targetTrap x with
    | some t => s.trapNow t
    | none => s.callTo x

/-- R135: bru, on the active lanes p[D] of the predicate p[B]. -/
def execBru (d : BitVec 3) (a : BitVec 6) (b : BitVec 3) (s : State) : Out :=
  gate 0 [.p d.toNat, .x a.toNat, .p b.toNat] [] s fun s =>
    let act := s.me.getP d.toNat
    let t := s.me.getP b.toNat &&& act
    let (x, s) := s.readX a.toNat
    if act = 0 ∨ t = 0 then .next s
    else if t = act then
      match targetTrap x with
      | some tr => s.trapNow tr
      | none => .next (s.transfer x)
    else s.trapNow { cause := 0x0A, addr := t }

/-- R97, R136: the next n + 1 bundles become a loop body that runs z64(A) times; a count of 0 skips them. While a replay
is suspended an lbuf is illegal. -/
def execLbuf (n a : BitVec 6) (s : State) : Out :=
  gate 0 [.x a.toNat] [] s fun s =>
    if (s.me.lbuf.map LoopBuf.suspended).getD false then s.trapNow { cause := 0x01, reason := 2 }
    else
      let (x, s) := s.readX a.toNat
      let c := s.me
      .next (s.setMe { c with lbuf := some { body := s.issue.next, len := n.toNat + 1, pos := 0, left := x.toNat } })

/-- The increments of F-P (R70). -/
def incOf (i : BitVec 2) : Int := if i = 3#2 then -1 else i.toNat

/-- R96, R137: the stepped registers after N repetitions, landing 1 cycle on; the mma of the bundle repeats. The pair
executes only where the bundle step found both guards true. -/
def execRpt (n : BitVec 9) (x y : BitVec 4) (inc1 inc2 : BitVec 2) (s : State) : Out :=
  gate 0 [.x (32 + x.toNat), .x (32 + y.toNat)] [.x (32 + x.toNat), .x (32 + y.toNat)] s fun s =>
    let k : Int := n.toNat + 1
    let s := { s with issue := { s.issue with rpt := some (n.toNat + 1, x.toNat, y.toNat, incOf inc1, incOf inc2) } }
    let vx := s.areg x.toNat
    let vy := s.areg y.toNat
    .next ((s.fix 1 (.x (32 + x.toNat) (vx + wrap 64 (k * incOf inc1)))).fix 1 (.x (32 + y.toNat) (vy + wrap 64 (k * incOf inc2))))

/-- R65, R71: the next slot's immediate is widened. -/
def execExt (h : BitVec 21) (s : State) : Out := .next { s with issue := { s.issue with ext := some h } }

/-- R116: the merge stage passes over the context the next time it would be primary. -/
def execYield (s : State) : Out :=
  gate 0 [] [] s fun s =>
    let c := s.me
    .next (s.setMe { c with yielded := true })

/-- R117: the context ends. The bundle step calls this when every other slot has taken effect; the steps of R117 that
wait for results and engines follow as agent steps. -/
def execExit (s : State) : Out :=
  gate 0 [] [] s fun s =>
    let c := s.me
    .next (s.setMe { c with live := .exiting, taskFaults := [] })

/-- A post-bundle trap of the slot being issued (R100): the bundle has taken full effect, and the context's pc is the
bundle it would issue next. -/
def State.postTrap (s : State) (cause reason : Nat) : Out :=
  .next (s.trapEntry s.cur { cause := cause, reason := reason, slot := s.issue.slot } s.me.pc (s.peekWait s.cur s.me.pc))

/-- R116: brk. -/
def execBrk (n : BitVec 6) (s : State) : Out := gate 0 [] [] s fun s => s.postTrap 0x13 n.toNat
/-- R116: trap. -/
def execTrap (n : BitVec 6) (s : State) : Out := gate 0 [] [] s fun s => s.postTrap 0x14 n.toNat

end Sys2Proof.Machine
end

