-- ==== Sys2Proof/Machine/Sequencer.lean ====
section
/-! DEFINITION. The loop sequencer: trun, tchain, tcond, and its own steps (R239, R309 to R312). -/
namespace Sys2Proof.Machine

/-! ## The record (R309) -/

def lrPro (r : List W64) : Nat := fld (rw r 0) 0 48
def lrKern (r : List W64) : Nat := fld (rw r 1) 0 48
def lrEpi (r : List W64) : Nat := fld (rw r 2) 0 48
def lrTripReg (r : List W64) : Bool := fld (rw r 3) 63 1 == 1
def lrTrip (r : List W64) : Nat := fld (rw r 3) 0 48
def lrNext (r : List W64) : Nat := fld (rw r 4) 0 48
def lrAlt (r : List W64) : Nat := fld (rw r 5) 0 48
def lrCond (r : List W64) : Nat := fld (rw r 6) 0 23
def lrPreempt (r : List W64) : Bool := fld (rw r 7) 1 1 == 1
def lrWhile (r : List W64) : Bool := fld (rw r 7) 0 1 == 1

/-- The record keeps every rule of R309. -/
def lrOk (r : List W64) : Bool :=
  ([0, 1, 2, 4, 5].all fun i => fld (rw r i) 48 16 == 0) && fld (rw r 3) 48 15 == 0 && fld (rw r 6) 23 41 == 0 && fld (rw r 7) 2 62 == 0 &&
  lrPro r % 4 == 0 && lrKern r % 4 == 0 && lrEpi r % 4 == 0 && lrKern r != 0 && lrCond r % 8 == 0

/-- One 64-byte read of a record of context g through the MMU (R309, R312). -/
def State.readLoop (s : State) (g : Nat) (va : W64) : Except Trap (List W64) :=
  let cl := g / 4
  match s.addrCheck cl (s.agentOf g) (s.userOf g) va 64 .read with
  | .error t => .error t
  | .ok pa =>
    if s.badAt pa 64 then .error { cause := 0x12, addr := va, reason := 1 }
    else .ok (tab (fun i => BitVec.ofNat 64 (s.load (pa + 8 * i) 8)) 8)

/-! ## Instructions (R239) -/

/-- ILLEGAL FUNCTION. -/
def illegalFn : Trap := { cause := 0x01, reason := 2 }

/-- R239: trun. The record is read when the bundle has issued (R312). -/
def execTrun (a : BitVec 6) (s : State) : Out :=
  gate 0 [.x a.toNat] [] s fun s =>
    let (x, s) := s.readX a.toNat
    let c := s.me
    if c.sqr.active then s.trapNow illegalFn
    else match s.addrCheck s.clNo (s.agentOf s.cur) (s.userOf s.cur) x 64 .read with
      | .error t => s.trapNow t
      | .ok _ => .next (s.setMe { c with sqr := { record := x, trun := true, step := 1, active := true, retPt := s.issue.next, from_ := s.issue.bpc } })

/-- R239: tchain. -/
def execTchain (a : BitVec 6) (s : State) : Out :=
  gate 0 [.x a.toNat] [] s fun s =>
    let (x, s) := s.readX a.toNat
    let c := s.me
    if !c.sqr.active then s.trapNow illegalFn else .next (s.setMe { c with sqr := { c.sqr with ovr := some x } })

/-- R239: tcond, a store of 8 bytes to the running record's condition word. -/
def execTcond (a : BitVec 6) (s : State) : Out :=
  gate 0 [.x a.toNat] [] s fun s =>
    let (x, s) := s.readX a.toNat
    let q := s.me.sqr
    if !q.active || lrCond q.words == 0 then s.trapNow illegalFn
    else match s.access (BitVec.ofNat 64 (lrCond q.words)) 8 .write with
      | .error t => s.trapNow t
      | .ok pa => s.issueMem { pa := pa, va := BitVec.ofNat 64 (lrCond q.words), op := .store 8, arg := x } none id

/-! ## The sequencer's own steps (R310 to R312) -/

/-- A part of the record has ended: the next is to be entered (R310). -/
def State.partEnded (s : State) : State :=
  let c := s.me
  s.setMe { c with sqr := { c.sqr with part := 0, last := c.sqr.part, step := 2, from_ := s.issue.bpc } }

/-- A failure of the sequencer: a post-bundle trap of the bundle after which it acted, the step left pending (R101, R312). -/
def State.seqTrap (s : State) (t : Trap) : State :=
  let t := if t.cause = 0x12 then { t with detail := s.me.sqr.from_.toNat % 2 ^ 48 * 32 } else t
  (s.logTrap s.cur t).trapEntry s.cur t s.me.pc (s.peekWait s.cur s.me.pc)

/-- A part entered as by call: the mark is pushed, and the context goes to its address (R310). fresh says whether it may stop there
(R107). Where the spill area cannot be reached yet the step stays pending. -/
def State.enterPart (s : State) (part a : Nat) (fresh : Bool) : State :=
  match s.pushRet .mark with
  | .error none => s
  | .error (some t) => s.seqTrap t
  | .ok s =>
    let c := s.me
    s.setMe { c with pc := BitVec.ofNat 64 a, waitLeft := none, sqr := { c.sqr with part := part, step := 0, fresh := fresh } }

/-- Step 1: the record and its trip count are read (R310). -/
def State.seqRecord (s : State) : State :=
  let q := s.me.sqr
  match s.readLoop s.cur q.record with
  | .error t => s.seqTrap t
  | .ok r =>
    if !lrOk r then s.seqTrap { cause := 0x01, reason := 3 }
    else
      let trip := if lrTripReg r then (s.me.getX (lrTrip r % 32)).toNat else lrTrip r
      let c := s.me
      s.setMe { c with sqr := { q with ovr := none, active := true, words := r, part := 0, last := 0, iter := 0, trip := trip, step := 2 } }

/-- Step 2: the next part is entered: the prologue, a kernel iteration, the epilogue, or none (R310). -/
def State.seqEnter (s : State) : State :=
  let c := s.me
  let q := c.sqr
  let r := q.words
  let iter := if q.last = 2 then q.iter + 1 else q.iter
  let first := q.last == 0
  if q.last = 0 ∧ lrPro r ≠ 0 then s.enterPart 1 (lrPro r) true
  else if q.last ≠ 3 ∧ iter < q.trip then
    (s.setMe { c with sqr := { q with iter := iter, last := if first then 0 else 1 } }).enterPart 2 (lrKern r) (first || lrPreempt r)
  else if q.last ≠ 3 ∧ lrEpi r ≠ 0 then s.enterPart 3 (lrEpi r) first
  else s.setMe { c with sqr := { q with iter := iter, step := 3 } }

/-- Step 3: the condition word is read (R310 step 4). -/
def State.seqCond (s : State) : State :=
  let q := s.me.sqr
  let a := lrCond q.words
  let done (s : State) (w : W64) : State :=
    let c := s.me
    s.setMe { c with sqr := { c.sqr with word := w, step := 4 } }
  if a = 0 then done s 0
  else match s.access (BitVec.ofNat 64 a) 8 .read with
    | .error t => s.seqTrap t
    | .ok pa => match s.loadVia s.clNo pa 8 with
      | (none, _) => s.seqTrap { cause := 0x12, addr := BitVec.ofNat 64 a, reason := 1 }
      | (some v, s) => done s (BitVec.ofNat 64 v)

/-- The successor of the running record (R311). -/
def SeqState.successor (q : SeqState) : W64 :=
  match q.ovr with
  | some a => a
  | none =>
    if lrWhile q.words ∧ q.word ≠ 0 then q.record
    else BitVec.ofNat 64 (if q.word = 0 then lrNext q.words else lrAlt q.words)

/-- Step 4: the successor starts, or the chain ends (R311). -/
def State.seqChoose (s : State) : State :=
  let c := s.me
  let q := c.sqr
  if q.successor ≠ 0 then s.setMe { c with sqr := { q with record := q.successor, step := 1 } }
  else if q.trun then s.setMe { c with sqr := {}, pc := q.retPt, waitLeft := none }
  else s.setMe { c with sqr := {}, live := .exiting, taskFaults := [] }

/-- The words of a record that runs again after a restore, read again (R310). -/
def State.seqReload (s : State) : State :=
  let c := s.me
  if c.sqr.active ∧ c.sqr.words = [] ∧ c.sqr.step ≠ 1 then
    match s.readLoop s.cur c.sqr.record with
    | .ok r => s.setMe { c with sqr := { c.sqr with words := r } }
    | .error _ => s
  else s

/-- The pending step of the sequencer (R310 to R312). Its reads come after the context's earlier stores. It stands in the place of a
fetch (R105), so that the cycle is one of FETCH and the count stands still (R88; DEDUCED, log 90). -/
def State.seqStep (s : State) : State :=
  let s := (s.drainAll s.cur).seqReload
  let s := s.setMe { s.me with cstate := .fetch }
  match s.me.sqr.step with
  | 1 => s.seqRecord
  | 2 => s.seqEnter
  | 3 => s.seqCond
  | _ => s.seqChoose

end Sys2Proof.Machine
end

