-- ==== Sys2Proof/Machine/Fabric.lean ====
section
/-! DEFINITION. The panel fabric and the Iczer links: hops, mailbags, lanes, groups and keys (R319 to R326, R338 to R342). -/
namespace Sys2Proof.Machine

/-! ## Packets that cannot go on (R322, R324, R340) -/

/-- An operation of this panel fails with a code; one of another panel is recorded there. -/
def State.failHere (s : State) (op : Op) (code : Nat) : State := if op.ctx < 32768 then s.winFail op code else s

/-- The access of a request packet that is lost fails with a code at its origin, where that is on this panel; it will never reach its
target, and counts as resolved there (R327). -/
def State.failAccs (s : State) (p : Packet) (code : Nat) : State :=
  if p.op.ctx < 32768 then (s.accFail (p.op.ctx / 4) p code 0).skipSeq p else s

/-- The access of a packet whose answer is lost fails with a code at its origin, though that be saved out (R108): the target resolves the
packet, or has (R327). -/
def State.failAnswer (s : State) (p : Packet) (code : Nat) (resolved : Bool) : State :=
  let g := p.op.ctx % 2 ^ 40
  if 32768 ≤ g then s else if resolved then s.accFail (g / 4) p code 0 else s.accLost (g / 4) p code 0

/-- Packets of a cluster that wait for a translation fail. -/
def State.failWaiting (s : State) (cl code : Nat) (sel : Packet → Bool) : State :=
  let (go, s) := s.takeWaiting cl sel
  go.foldl (fun s p => s.failAccs p code) s

/-- The epoch that a wcompl ends is over (R204). -/
def State.dropEpoch (s : State) (op : Op) : State :=
  let c := s.cl (op.ctx / 4)
  s.setCl (op.ctx / 4) { c with epochs := c.epochs.filter fun e => !decide ((e.ending.map (·.1)) = some op) }

/-- A ccancel waits no more (R224). -/
def State.dropCancel (s : State) (op : Op) : State :=
  let c := s.cl (op.ctx / 4)
  s.setCl (op.ctx / 4) { c with cancels := c.cancels.filter fun f => !decide (f.1 = op) }

/-- A lock request is withdrawn (R205). -/
def State.dropAsk (s : State) (op : Op) : State :=
  let c := s.cl (op.ctx / 4)
  s.setCl (op.ctx / 4) { c with lockAsks := c.lockAsks.filter fun a => !decide (a.1 = op) }

/-- The member that a dispatch's counts come from, or go to, fails with it: the counts are lost, and its command ends (R323). -/
def State.failCounts (s : State) (cl id cc k code : Nat) : State := match (s.officeOf cl).find? fun c =>
    c.cl == cl && c.fn == 0 && c.run != 2 && cwId c.word == id && c.cc == cc && c.k == k with
  | some c => (if s.opOver c.op then s else s.winFail c.op code).leaveChannel c
  | none => s

/-- What the loss of a message leaves: the operation behind it records a code at its origin (R322 to R324, R340); a holder that cannot
be reached counts as having acknowledged an invalidation (R332). -/
def State.loseMsg (s : State) (m : Msg) (code : Nat) : State := match m.act with
  | .ringRow op _ _ src sr _ _ => (s.failHere op code).ringSettle src sr
  | .credit op _ _ _ _ => s.failHere op code
  | .req p => s.failAccs p code
  | .accepted p => s.failAnswer p code false
  | .applied p _ => s.failAnswer p code true
  | .data p _ _ _ => s.failAnswer p code true
  | .reject p _ => s.failAnswer p code true
  | .stale p => s.failAccs p code
  | .transReq src rank win off rd wr _ _ => s.failWaiting src code (Packet.asked rank win off rd wr)
  | .transOk e => s.failWaiting m.dst code (Packet.waitsFor e)
  | .transFail rank win off _ rd wr => s.failWaiting m.dst code (Packet.asked rank win off rd wr)
  | .inval port gen ix => s.ackToken port ix gen m.dst
  | .invalAck ix gen => s.ackToken m.dst ix gen m.src
  | .winNotice _ _ _ part => (s.heardFar part.op).failHere part.op code
  | .closeNotice _ _ part => (s.heardFar part.op).failHere part.op code
  | .winEnd _ _ _ part => (s.heardFar part.op).failHere part.op code
  | .post op _ _ _ => s.failHere op code
  | .compl _ _ op _ => (s.failHere op code).dropEpoch op
  | .lockReq _ r => (s.failHere r.op code).dropAsk r.op
  | .lockGrant _ r _ => (s.failHere r.op code).dropAsk r.op
  | .unlock _ op => (s.heardFar op).failHere op code
  | .ack op => ((s.heardFar op).failHere op code).dropEpoch op
  | .head n => match n.op with
    | some op => s.failHere op code
    | none => s
  | .counts id cc k _ _ _ => (s.failCounts m.src id cc k code).failCounts m.dst id cc k code
  | .chunk id cc k _ _ _ _ _ => s.loseColl (if m.dst < 8192 then m.dst else m.src) id cc k code
  | .more _ _ => s
  | .cancel _ op => (s.failHere op code).dropCancel op

/-- The message that a packet is part of: itself, or the one whose last packet follows it (R325). -/
def State.wholeOf (s : State) (m : Msg) : Msg := match m.act with
  | .more k _ => (s.net.find? fun x => x.id == k).getD m
  | _ => m

/-- A message discarded with a recorded error, whichever packet of it is lost (R323). -/
def State.discard (s : State) (m : Msg) (code : Nat) : State :=
  let w := s.wholeOf m
  (s.take w.id).loseMsg w code

/-! ## Hops (R322, R323, R342) -/

/-- The messages that move together with m: its mailbag's, or m alone (R326). -/
def State.fellows (s : State) (m : Msg) : List Msg := match m.bag with
  | none => [m]
  | some b => s.net.filter fun x => decide (x.bag = some b)

/-- The site a message makes for: its target's, or its port's. -/
def State.aim (s : State) (m : Msg) : Option Nat :=
  if m.dst < 8192 then some (siteOf m.dst) else (s.portFor m.src m.dst).map portSite

/-- The data flits of a port's stream after n more, which begin a group at the CYCLE of a cluster where none is being filled; every five
send a group (R338). -/
def IczPort.push (x : IczPort) (n cl cycle : Nat) : IczPort :=
  { x with
    sent := x.sent + (x.flits + n) / 5, flits := (x.flits + n) % 5
    opened := if x.flits = 0 ∨ 5 ≤ x.flits + n then (cl, cycle) else x.opened }

/-- n more flits would send a group whose counter reaches 2^48 under the key (R341). -/
def IczPort.spent (x : IczPort) (n : Nat) : Bool := decide (2 ^ 48 < x.sent + (x.flits + n) / 5)

/-- The messages of a list of numbers changed. -/
def State.mapMsgs (s : State) (ids : List Nat) (f : Msg → Msg) : State :=
  { s with net := s.net.map fun x => if ids.contains x.id then f x else x }

/-! ## Link events and failures (R339 to R341, R382) -/

/-- A link event in a site's error log. The spec gives CLASS 5 no meaning of ADDR, which is a free value, and does not say which events are
link events (R382; DESIGN CHOICE, log 102). -/
def State.logLink (s : State) (site src : Nat) : State :=
  let (v, s) := s.fresh
  s.logEntry site 5 none 0 src v.toNat 0

/-- Replicas that a cluster holds through tokens of a panel dropped (R340). -/
def State.dropFar (s : State) (panel : Nat) : State :=
  { s with clusters := mmap (fun cl c => { c with
      replicas := c.replicas.filter fun e => (s.rankCl cl (raRank e.1)).bind panelOf != some panel }) s.clusters }

/-- Messages to a cluster of a panel take port p. -/
def State.goesBy (s : State) (p panel src : Nat) (dst : Option Nat) : Bool :=
  (dst.bind panelOf) == some panel && (dst.bind (s.portFor src)) == some p

/-- The near parts of a collective window command with a member reached through a link fail with it (R340). -/
def State.failColl (s : State) (c : WinColl) : State :=
  let s : State := { s with winColls := s.winColls.filter fun x => !decide (x = c) }
  c.parts.foldl (fun s p => if p.2.op.ctx < 32768 then (s.endPart p.1 c.win true { p.2 with bad := false, dead := true }).failHere p.2.op 7 else s) s

/-- Commands of a cluster that wait for another panel's members fail with a link to them: remote accesses with the packets of theirs that
wait for a translation, lock requests, the ends of access epochs, unlocks and collective window commands, cancels, and the
communicators' running commands (R340). -/
def State.failCluster (s : State) (p panel cl : Nat) : State :=
  let c := s.cl cl
  let by_ (r : Nat) : Bool := s.goesBy p panel cl (s.rankCl cl r)
  let gone := c.accs.filter fun a => by_ a.rank
  let mine := (s.officeOf cl).filter fun x => x.cl == cl && x.said && (s.members cl x.word).any by_
  let ends := c.epochs.filterMap fun x => if (List.range' x.first x.count).any by_ then x.ending.map (·.1) else none
  let asks := c.lockAsks.filter fun a => by_ a.2.2
  let told := c.unacked.filter fun u => s.goesBy p panel cl (some u.2)
  let onWay (op : Op) : Nat := (s.net.filter fun m => match m.act with
    | .cancel _ o => decide (o = op)
    | _ => false).length
  let stops := c.cancels.filter fun e => (c.ti.ranks.any fun d => s.goesBy p panel cl (some d)) && decide (onWay e.1 < e.2)
  let s := gone.foldl (fun s a =>
    s.accFail cl { op := a.op, acc := a.id, kind := .put, rank := a.rank, win := a.win, tag := a.tag, off := 0, len := 0, ra := a.ra } 7 0) s
  let (late, s) := s.takeWaiting cl fun q => by_ q.rank
  let s := late.foldl (fun s q => s.seqDone cl q) s
  let s := asks.foldl (fun s a => (s.winFail a.1 7).dropAsk a.1) s
  let s := ends.foldl (fun s op => (s.winFail op 7).dropEpoch op) s
  let s := told.foldl (fun s u => (s.winFail u.1 7).heardFar u.1) s
  let s := stops.foldl (fun s e => (s.winFail e.1 7).dropCancel e.1) s
  mine.foldl (fun s x => (if s.opOver x.op then s else s.winFail x.op 7).leaveChannel x) s

/-- Operations that wait for acceptance or an answer through a link record INTEGRITY (R340). -/
def State.failThrough (s : State) (p : Nat) (panel : Nat) : State :=
  let far (c : WinColl) : Bool := c.parts.any fun q =>
    s.goesBy p panel (q.2.op.ctx / 4) (some (q.2.op.ctx / 4)) || (s.cl (q.2.op.ctx / 4)).ti.ranks.any fun d => s.goesBy p panel (q.2.op.ctx / 4) (some d)
  let s := (s.winColls.filter far).foldl (fun s c => s.failColl c) s
  (s.clusters.map (·.1)).foldl (fun s cl => s.failCluster p panel cl) s

/-- Holders on a panel whose last link has gone count as having acknowledged the invalidations they were sent; to those that another link
reaches the invalidation is sent again (R332). -/
def State.lostHolders (s : State) (panel : Nat) : State :=
  let left := (s.portsTo panel) != []
  let open_ := s.clusters.flatMap fun e => (e.2.tokens.filter fun t => t.2.state == 2).flatMap fun t =>
    (t.2.wait.filter fun h => panelOf h == some panel).map fun h => (e.1, t.1, t.2.gen, h)
  open_.foldl (fun s x => if left then s.send x.1 x.2.2.2 (.inval x.1 x.2.2.1 x.2.1) else s.ackToken x.1 x.2.1 x.2.2.1 x.2.2.2) s

/-- A skid packet that came with a group from stamp st on is not applied any more where it has not been (R340). -/
def State.dropEarly (s : State) (p : Nat) : State :=
  let late (q : Packet) : Bool := match s.unchecked q with
    | some (k, _) => k == p
    | none => false
  let s : State := { s with net := s.net.filter fun m => match m.act with
    | .req q => !late q
    | _ => true }
  (s.clusters.map (·.1)).foldl (fun s cl =>
    let c := s.cl cl
    let gone := c.held.filter late
    gone.foldl (fun s q => s.resolveSeq cl q.op.ctx q.seq) (s.setCl cl { c with held := c.held.filter fun q => !late q })) s

/-- The intervals that released packets of unchecked groups have changed are TAINTED, while they last (R212, R340). -/
def State.taint (s : State) (p : Nat) : State :=
  (s.port p).touched.foldl (fun s t =>
    let c := s.cl t.2.1
    let f := mget {} c.frank t.2.2.1
    if f.num = t.2.2.2 then s.setCl t.2.1 { c with frank := mset c.frank t.2.2.1 { f with tainted := true } } else s) s

/-- A link taken down: its failure counted and logged, what waits for an answer through it fails, what it had not released or applied is
discarded, each operation with a packet there recording INTEGRITY, intervals changed since the last good tag are TAINTED, and the far
panel's replicas go (R340, R382). -/
def State.portDown (s : State) (p : Nat) (failed : Bool) : State :=
  let x := s.port p
  let s := ((if x.state = 0 then s else s.logLink (portSite p) 5).taint p).dropEarly p
  let s := (s.failThrough p x.peer).dropFar x.peer
  let s := s.setPort p { x with
    state := 0, rx := [], flits := 0, early := [], touched := [], nextKey := none, fail := if failed then min (x.fail + 1) (2 ^ 32 - 1) else x.fail }
  ((x.rx.flatMap (·.msgs)).foldl (fun s m => s.loseMsg m 7) s).lostHolders x.peer

/-- A message at its port leaves the panel, its packets before it: a link that would send a group past its counters stops, and goes down
(R325, R338, R341, R342). -/
def State.leavePanel (s : State) (m : Nat) (msg : Msg) : State :=
  match s.portFor msg.src msg.dst with
  | none => s
  | some p =>
    if s.net.any fun x => x.leads m then s
    else if (s.port p).spent msg.act.flits then s.portDown p false
    else ({ s with net := s.net.filter fun x => x.id != m } : State).setPort p ((s.port p).push msg.act.flits msg.src (s.cl msg.src).cycle)

/-! ## Hops as steps -/

/-- R322, R323, R326, R342: a packet, with its mailbag once that has left, takes a link, or comes off the one that holds it; or leaves
the panel by its port; or, where it can go no further, is discarded with UNREACHABLE. -/
def execFabricPacketHop (m : Nat) (s : State) : Out :=
  match s.net.find? fun x => x.id == m with
  | none => .next s
  | some msg =>
    if s.bags.any fun b => decide (msg.bag = some b.id) && b.open_ then .next s
    else
      let ids := (s.fellows msg).map (·.id)
      match msg.via, s.aim msg with
      | some n, _ => .next (s.mapMsgs ids fun x => { x with pos := n, via := none })
      | none, none => .next (s.discard msg 8)
      | none, some q =>
        if msg.pos = q then .next (s.leavePanel m msg)
        else
          let base := if 4 < msg.cls ∨ (msg.cls = 4 ∧ 8192 ≤ msg.src) then 4 else 0
          match s.nextHop msg.pos q (msg.cls - base) with
          | some (n, k) => .next (s.mapMsgs ids fun x => { x with via := some n, cls := base + k })
          | none => .next ((s.fellows msg).foldl (fun s x => s.discard x 8) s)

/-- R326: a partial mailbag leaves once MBCTL.WAIT cycles have passed since its first flit entered, as the cluster that sent that flit
counts them. -/
def execMailbagWaitExpiry (site dst : Nat) (s : State) : Out :=
  .next { s with bags := s.bags.map fun b =>
    if b.src = site ∧ b.dst = dst ∧ b.born + (s.site site).mbWait ≤ (s.cl b.cl).cycle then { b with open_ := false } else b }

/-- R326: the oldest mailbag from a site that has reached dst is opened: its packets go to their ports in the order they entered. -/
def execMailbagArrival (site dst : Nat) (s : State) : Out :=
  let here (b : Bag) : Bool := s.net.all fun x => decide (x.bag ≠ some b.id) || (x.pos == dst && x.via.isNone)
  match s.bags.find? fun b => b.src == site && b.dst == dst && !b.open_ && here b with
  | none => .next s
  | some b => .next { s with bags := s.bags.filter fun x => x.id != b.id }

/-! ## Lanes (R324) -/

/-- A lane lost at one end of a link: a spare takes its place, else the link retrains one width lower, or is down. -/
def Link.lose (l : Link) : Link :=
  if 0 < l.spares then { l with spares := l.spares - 1 }
  else if l.width < 2 then { l with width := l.width + 1, retrain := min (l.retrain + 1) (2 ^ 32 - 1) }
  else { l with width := 3 }

/-- The site at the far end of link k. -/
def linkPeer (p k : Nat) : Nat :=
  if k < 7 then p / 8 * 8 + (if k < p % 8 then k else k + 1)
  else (if k - 7 < p / 8 then k - 7 else k - 6) * 8 + p % 8

def State.setLink (s : State) (p k : Nat) (l : Link) : State :=
  let x := s.site p
  s.setSite p { x with links := mset x.links k l }

/-- The messages that a link holds discarded with UNREACHABLE (R324). -/
def State.clearLink (s : State) (p q : Nat) : State :=
  (s.net.filter fun x => decide ((x.pos = p ∧ x.via = some q) ∨ (x.pos = q ∧ x.via = some p))).foldl (fun s x => s.discard x 8) s

/-- A lane of link k of a site lost at both ends, and logged (R382). A link that goes down discards the packets it holds (R324). -/
def State.loseLane (s : State) (site k : Nat) : State :=
  let q := linkPeer site k
  let l := (s.link site k).lose
  match linkTo q site with
  | none => s
  | some j =>
    let s := ((s.setLink site k l).setLink q j l).logLink site 3
    if l.width = 3 then s.clearLink site q else s

/-- R324: a lane of link k of a site fails. -/
def execLaneFailure (site k : Nat) (s : State) : Out := .next (if 14 ≤ k ∨ 64 ≤ site then s else s.loseLane site k)

/-! ## Iczer links (R338 to R341) -/

/-- A packet whose window is in skid mode at its target (R212, R339). -/
def State.skids (s : State) (m : Msg) : Bool := match m.act with
  | .req p => (mget {} (s.cl m.dst).frank p.win).skid
  | _ => false

/-- A packet goes on into the panel from a port's site, in the second set of hop classes (R323, R342). A message's earlier packets carry
nothing of their own and stop here. -/
def State.enterPanel (s : State) (port : Nat) (m : Msg) : State := match m.act with
  | .more _ _ => s
  | _ => { s with net := s.net ++ [{ m with id := s.nextMsg, pos := portSite port, via := none, cls := 4, bag := none }], nextMsg := s.nextMsg + 1 }

/-- The packets of a group released before its tag is checked carry the group's stamp (R339). -/
def Msg.stamped (m : Msg) (port st : Nat) : Msg := match m.act with
  | .req p => { m with act := .req { p with early := some (port, st) } }
  | _ => m

/-- Group k of those that wait at a port has its flits taken in: its packets in skid mode are released (R339). -/
def State.releaseSkid (s : State) (port k : Nat) (g : IczGroup) : State :=
  let x := s.port port
  let s := s.setPort port { x with rx := setAt x.rx k { g with released := true, msgs := g.msgs.filter fun m => !s.skids m } }
  (g.msgs.filter s.skids).foldl (fun s m => s.enterPanel port (m.stamped port g.stamp)) s

/-- The nonce of a group's tag: its counter, the direction (1 into this panel) and the sending port (R338; their places are the model's
choice, log 99). -/
def linkNonce (counter dir port : Nat) : BitVec 96 := BitVec.ofNat 96 (counter + dir * 2 ^ 64 + port * 2 ^ 65)

/-- A group's tag and counter check: the counter follows the last one seen, and the tag is that of its flits under the key (R338 to R340).
-/
def IczPort.checks (x : IczPort) (g : IczGroup) : Bool :=
  g.counter == x.seen && g.key == x.key && decide (g.tag = Config.linkTag x.keyBits (linkNonce g.counter 1 x.peerPort) g.text)

/-- The oldest group's tag has checked: its other packets are released, and the answers that waited for it are sent (R339). -/
def State.passGroup (s : State) (port : Nat) (g : IczGroup) : State :=
  let x := s.port port
  let s := s.setPort port { x with
    rx := x.rx.tail, seen := x.seen + 1
    early := x.early.filter fun e => e.1 != g.stamp, touched := x.touched.filter fun e => e.1 != g.stamp }
  let s := g.msgs.foldl (fun s m => s.enterPanel port m) s
  (x.early.filter fun e => e.1 == g.stamp).foldl (fun s e => s.send e.2.1 e.2.2.1 e.2.2.2) s

/-- R339, R340: the groups that have arrived at a port go on: the flits of the next are taken in, or the oldest that has been is checked;
which, where both can be, is free. good: the link has not harmed the oldest group's tag flit. A group that does not check takes the link
down. -/
def execIczerGroupArrival (port : Nat) (good : Bool) (s : State) : Out :=
  let x := s.port port
  if !x.live then .next s
  else match x.rx with
    | [] => if good then .next s else .next (s.portDown port true)
    | g :: gs =>
      let (v, s) := s.fresh
      match (g :: gs).zipIdx.find? fun e => !e.1.released with
      | some (h, k) =>
        if k = 0 ∨ v.getLsbD 0 then .next (s.releaseSkid port k h)
        else if good && x.checks g then .next (s.passGroup port g) else .next (s.portDown port true)
      | none => if good && x.checks g then .next (s.passGroup port g) else .next (s.portDown port true)

/-- R338: a group without data enough for 16 cycles, as the cluster whose packet began it counts them, is completed with idle flits and
sent. -/
def execIczerIdleFill (port : Nat) (s : State) : Out :=
  let x := s.port port
  if !x.live ∨ x.flits = 0 ∨ (s.cl x.opened.1).cycle < x.opened.2 + 16 then .next s
  else if x.spent 5 then .next (s.portDown port false)
  else .next (s.setPort port { x with sent := x.sent + 1, flits := 0 })

/-- A fresh 256-bit value: a link's key (R341; log 6). -/
def State.fresh256 (s : State) : BitVec 256 × State :=
  (List.range 4).foldl (fun (a : BitVec 256 × State) i =>
    let (w, s) := a.2.fresh
    (a.1 + BitVec.ofNat 256 (w.toNat * 2 ^ (64 * i)), s)) (0, s)

/-- A key that the management cores have agreed comes into use, with the next key number and counters of 0 (R341). -/
def IczPort.rekeyed (x : IczPort) (k : BitVec 256) : IczPort :=
  { x with state := 2, key := (x.key + 1) % 256, sent := 0, seen := 0, keyBits := k, nextKey := none }

/-- R341: at ICZLIM, or after a retrain, the management cores agree a key; at the next group boundary it is in use,
with the next key number and counters of 0. -/
def execIczerRekey (port : Nat) (s : State) : Out :=
  let x := s.port port
  let (k, t) := s.fresh256
  if x.state = 1 then .next (t.setPort port (x.rekeyed k))
  else if x.state = 3 ∧ x.flits = 0 ∧ x.rx = [] then .next (s.setPort port (x.rekeyed (x.nextKey.getD k)))
  else if x.state = 2 ∧ (x.limit ≤ x.sent ∨ x.limit ≤ x.seen) then .next (t.setPort port { x with state := 3, nextKey := some k })
  else .next s

/-- R341: a counter that would reach 2^48 stops the link, which goes down. -/
def execIczerCounterExhausted (port : Nat) (s : State) : Out :=
  let x := s.port port
  if x.live ∧ (2 ^ 48 ≤ x.sent + 1 ∨ 2 ^ 48 ≤ x.seen + 1) then .next (s.portDown port false) else .next s

/-- The route table holds, for the panel of a port's cable, that port beside those it has (R342). -/
def State.addRoute (s : State) (panel port : Nat) : State :=
  let l := mget [] s.routes panel
  if l.contains port || decide (4 ≤ l.length) then s else { s with routes := mset s.routes panel (l ++ [port]) }

/-- R340, R342, R380: the management cores retrain a link that is down, and its far end is known then; a site that is out has no ports, and
a port without a cable no link. -/
def execIczerLinkRetrain (port : Nat) (s : State) : Out :=
  let x := s.port port
  if x.state ≠ 0 ∨ 32 ≤ port ∨ !(s.site (portSite port)).present then .next s
  else match Config.cable port with
    | none => .next s
    | some (panel, far) => .next ((s.setPort port { x with state := 1, peer := panel % 256, peerPort := far % 32 }).addRoute (panel % 256) port)

end Sys2Proof.Machine
end

