-- ==== Sys2Proof/Machine/Letters.lean ====
section
/-! DEFINITION. Letters and post boxes: the fields of a letter, its checks at the head, completion words and records, retirement, cancels,
and the letter window (R291 to R299, R308, R343, R368 to R371). -/
namespace Sys2Proof.Machine

/-- A post box by number. -/
def State.pb (s : State) (p : Nat) : PostBox := mget {} s.pbs p
def State.setPb (s : State) (p : Nat) (b : PostBox) : State := { s with pbs := mset s.pbs p b }

/-! ## The fields of a letter (R291, R343) -/

def Letter.w (l : Letter) (i : Nat) : W64 := l.words.getD i 0
def Letter.kind (l : Letter) : Nat := fld (l.w 0) 0 4
def Letter.dependent (l : Letter) : Bool := fld (l.w 0) 4 1 == 1
def Letter.preemptible (l : Letter) : Bool := fld (l.w 0) 5 1 == 1
def Letter.nocw (l : Letter) : Bool := fld (l.w 0) 6 1 == 1
def Letter.tag (l : Letter) : Nat := fld (l.w 0) 16 16
def Letter.inst (l : Letter) : Nat := fld (l.w 0) 32 16
def Letter.segVa (l : Letter) : W64 := l.w 1
def Letter.entry (l : Letter) : W64 := l.w 2
def Letter.gangs (l : Letter) : Nat := fld (l.w 3) 0 16
def Letter.ncl (l : Letter) : Nat := fld (l.w 3) 16 8
def Letter.aspace (l : Letter) : Nat := fld (l.w 3) 32 16
def Letter.pmap (l : Letter) : Nat := fld (l.w 3) 48 16
def Letter.arg (l : Letter) : W64 := l.w 4
def Letter.npanel (l : Letter) : Nat := fld (l.w 8) 0 8
def Letter.pidx (l : Letter) : Nat := fld (l.w 8) 8 8
def Letter.tmo (l : Letter) : Nat := fld (l.w 9) 32 32
def Letter.rbase (l : Letter) : Nat := fld (l.w 8) 16 17
def Letter.tsize (l : Letter) : Nat := fld (l.w 9) 0 17
/-- PANELS byte k. -/
def Letter.panel (l : Letter) (k : Nat) : Nat := fld (l.w (10 + k / 8)) (8 * (k % 8)) 8
/-- A launch, or a JOIN, whose other fields are those of a launch (R343). -/
def Letter.launch (l : Letter) : Bool := l.kind == 0 || l.kind == 3

/-! ## The checks at the head (R292) -/

/-- The largest gang that a site admits: its enabled clusters (R32, R35). -/
def Site.largest (x : Site) : Nat := if x.present then popc x.clen.toNat 84 else 0

/-- The largest gang of any site of the panel in service. -/
def State.largestGang (s : State) : Nat := (List.range 64).foldl (fun m p => max m (s.site p).largest) 0

/-- The fields of a launch are in range. -/
def State.launchOk (s : State) (l : Letter) : Bool :=
  l.inst != 0 && decide (1 ≤ l.gangs ∧ l.gangs ≤ 1024) && decide (1 ≤ l.ncl ∧ l.ncl ≤ s.largestGang) && fld l.entry 0 6 == 0

/-- The bytes of a JOIN letter are in range (R343). -/
def joinOk (l : Letter) : Bool :=
  l.w 7 != 0 && decide (2 ≤ l.npanel ∧ l.npanel ≤ 32) && decide (l.pidx < l.npanel) && fld (l.w 8) 33 31 == 0 && fld (l.w 9) 17 15 == 0 &&
  fld (l.w 9) 32 32 != 0 && ((List.range 32).all fun k => decide (k < l.npanel) || l.panel k == 0) && l.inst == 1 &&
  decide (l.rbase + l.gangs * l.ncl ≤ l.tsize)

/-- A letter passes the checks of R292 for its kind. -/
def State.letterOk (s : State) (l : Letter) : Bool :=
  decide (l.kind < 5) && fld (l.w 0) 7 9 == 0 && fld (l.w 0) 48 16 == 0 && fld (l.w 3) 24 8 == 0 &&
  (match l.kind with
    | 0 => s.launchOk l && ((List.range 7).all fun i => l.w (7 + i) == 0)
    | 1 => (List.range 7).all fun i => l.w (7 + i) == 0
    | 2 => (List.range 7).all fun i => l.w (7 + i) == 0
    | 3 => s.launchOk l && joinOk l
    | _ => true)

/-! ## Completion words and records (R291, R298, R299, R370) -/

/-- The home of a completion word. -/
def cwHome (w : W64) : Nat := if fld w 63 1 = 1 then hostAt (fld w 0 63) else pigAt (fld w 56 6) (fld w 4 22 * 16)

/-- The dispatcher may not reach a home: the monitor region, or a frame tagged to another slot (R271, R354). -/
def State.cwRefused (s : State) (slot : Option Nat) (w : W64) : Bool :=
  fld w 63 1 == 0 && s.refused (fld w 56 6 * 128 + 127) (cwHome w) { slot := slot }

/-- The status first, then CWVAL (R299). -/
def State.putRecord (s : State) (r : Record) : State :=
  (s.perform (cwHome r.cw + 8) 8 r.status.toNat).perform (cwHome r.cw) 8 r.val.toNat

/-- A record written, or held while its post box is halted for its link (R370). -/
def State.writeRecord (s : State) (p : Nat) (r : Record) : State :=
  let b := s.pb p
  if s.cwRefused (b.sealedTo.map (·.2)) r.cw then s
  else if fld r.cw 63 1 = 1 ∧ b.halt ∧ b.haltWhy = 3 then s.setPb p { b with held := b.held ++ [r] }
  else s.putRecord r

/-- STATUS: the first that applies in the order of R299. -/
def Letter.status (l : Letter) : Nat :=
  if l.bad then 4 else if l.refused then 2 else if l.ncanc ≠ 0 ∨ l.cut then 3 else if l.ntrap ≠ 0 then 1 else 0

/-- The status word of a completion record (R299). -/
def Letter.statusWord (l : Letter) : W64 :=
  BitVec.ofNat 64 (min l.ncanc 65535 * 2 ^ 48 + min l.ntrap 65535 * 2 ^ 32 + l.cause.getD 0 % 256 * 256 + l.status)

/-! ## Letters of a post box -/

/-- A letter changed. -/
def PostBox.mapLetter (b : PostBox) (id : Nat) (f : Letter → Letter) : PostBox :=
  { b with letters := b.letters.map fun l => if l.id = id then f l else l }
def State.mapLetter (s : State) (p id : Nat) (f : Letter → Letter) : State := s.setPb p ((s.pb p).mapLetter id f)
def State.letter (s : State) (p id : Nat) : Option Letter := (s.pb p).letters.find? fun l => l.id == id

/-- No further instance of the letter is to be admitted. -/
def Letter.admittedAll (l : Letter) : Bool := l.launch && l.checked && (l.closed || decide (l.inst ≤ l.admitted))

/-- The head of a post box: the first letter with an instance still to be admitted, or of another kind (R295). -/
def PostBox.head (b : PostBox) : Option Letter := b.letters.find? fun l => !l.admittedAll

/-- The letter leaves its post box; a launch writes its completion record unless NOCW is set (R293, R299). -/
def State.retireLetter (s : State) (p id : Nat) : State :=
  match s.letter p id with
  | none => s
  | some l =>
    let s := if l.launch && !l.nocw then s.writeRecord p { cw := l.w 5, status := l.statusWord, val := l.w 6 } else s
    let b := s.pb p
    { s.setPb p { b with letters := b.letters.filter fun x => x.id != id } with reserving := s.reserving.filter fun r => r.2 != id }

/-- A launch retires when its last admitted instance has ended and no further one is to be admitted (R293). -/
def State.tryRetire (s : State) (p id : Nat) : State :=
  match s.letter p id with
  | none => s
  | some l => if l.admittedAll ∧ l.admitted ≤ l.ended then s.retireLetter p id else s

/-- The instances not yet admitted are cancelled and counted (R300, R308). -/
def Letter.cancelRest (l : Letter) : Letter :=
  if l.closed then l else { l with closed := true, ncanc := l.ncanc + (l.inst - l.admitted), checked := true }

/-- The head of a post box checked, and retired where it fails, with what comes to the head after it (R292). -/
def State.checkHead (s : State) (p : Nat) : Nat → State
  | 0 => s
  | n + 1 => match (s.pb p).head with
    | none => s
    | some l =>
      if l.checked then s
      else if s.letterOk l then s.mapLetter p l.id fun x => { x with checked := true, cls := (s.pb p).cls }
      else ((s.mapLetter p l.id fun x => { x with checked := true, closed := true, bad := true }).retireLetter p l.id).checkHead p n

/-- The head of a post box that is enabled, not halted and checked (R295). -/
def State.activeHead (s : State) (p : Nat) : Option Letter :=
  let b := s.pb p
  if b.en && !b.halt then b.head.filter (·.checked) else none

/-! ## Cancels (R308) -/

/-- A cancel decided: the oldest unretired launch with the TAG. -/
def State.decideCancel (s : State) (p : Nat) : State :=
  let b := s.pb p
  match b.cancel with
  | none => s
  | some tag =>
    let answer (st taker : Nat) (s : State) : State :=
      let b := s.pb p
      s.setPb p { b with cancel := none, cstatus := st, taker := taker }
    match b.letters.find? fun l => l.launch && l.tag == tag with
    | none => answer 3 0 s
    | some l =>
      let s := s.mapLetter p l.id fun x => { x.cancelRest with cut := decide (l.admitted = 0) }
      if l.admitted = 0 then answer 1 0 (s.tryRetire p l.id)
      else answer 2 (l.taker.getD 0) (s.tryRetire p l.id)

/-- R308: PBCANCEL written: the request replaces one that is pending, and is decided here or at the next decision; before READY the write
is discarded (R379). -/
def execPbcancelWrite (pb : Nat) (tag : BitVec 16) (s : State) : Out :=
  if s.stage ≠ 5 then .next s
  else
    let b := s.pb pb
    let s := s.setPb pb { b with cancel := some tag.toNat, cstatus := 0, taker := 0 }
    let (v, s) := s.fresh
    .next (if fld v 0 1 = 1 then s.decideCancel pb else s)

/-! ## Letters that act at the head, and aging (R297, R298) -/

/-- R298: a completion-write letter writes its word once every earlier launch of its post box has completed. -/
def execCompletionWriteLetter (pb : Nat) (s : State) : Out :=
  let s := s.checkHead pb 64
  match s.activeHead pb, (s.pb pb).letters with
  | some l, h :: _ =>
    if l.kind = 1 ∧ h.id = l.id then
      let s := if s.cwRefused ((s.pb pb).sealedTo.map (·.2)) (l.w 5) then s else s.perform (cwHome (l.w 5)) 8 (l.w 6).toNat
      .next (s.retireLetter pb l.id)
    else .next s
  | _, _ => .next s

/-- R298: the word of a completion-wait letter is read; the letter retires when it is at least CWVAL. -/
def execCompletionWaitPoll (pb : Nat) (s : State) : Out :=
  let s := s.checkHead pb 64
  match s.activeHead pb with
  | some l =>
    let a := cwHome (l.w 5)
    if l.kind = 2 ∧ !s.cwRefused ((s.pb pb).sealedTo.map (·.2)) (l.w 5) ∧ !s.badAt a 8 ∧ (l.w 6).toNat ≤ s.load a 8 then
      .next (s.retireLetter pb l.id)
    else .next s
  | none => .next s

/-- R297: a letter passed over at 4,096 decisions moves up a class, or in class 0 becomes reserving, behind those that
qualified before it. -/
def execLetterAging (pb : Nat) (s : State) : Out :=
  match s.activeHead pb with
  | none => .next s
  | some l =>
    if l.passed < 4096 then .next s
    else
      let s' := s.mapLetter pb l.id fun x => { x with passed := 0, cls := x.cls - 1 }
      if l.cls ≠ 0 ∨ (s.reserving.any fun r => r.2 == l.id) then .next s'
      else .next { s' with reserving := s'.reserving ++ [(pb, l.id)] }

/-! ## The letter window and the postmarks (R293, R368, R369, R371, R379) -/

/-- R293: a write of the letter window below 0x78; before READY it is lost (R379). -/
def execLetterWindowWrite (pb off : Nat) (v : W64) (s : State) : Out :=
  let b := s.pb pb
  .next (if s.stage = 5 ∧ pb < 4096 ∧ off % 8 = 0 ∧ off < 0x78 then s.setPb pb { b with win := mset b.win (off / 8) v } else s)

/-- A session by number (R367). -/
def State.session (s : State) (n : Nat) : Session := mget {} (mget {} s.hostPorts (n / 4)).sessions (n % 4)

/-- PMK of a post box under a session (R369). -/
def State.pmk (s : State) (sess pb slot : Nat) : BitVec 256 := Config.hkdf (s.session sess).ems 1 pb slot

/-- The postmark's tag verifies under a live session's PMK (R369). -/
def State.tagOk (s : State) (sess pb slot : Nat) (l : Letter) : Bool :=
  (s.session sess).st == 2 &&
  Config.gcmMac (s.pmk sess pb slot) (BitVec.ofNat 96 (pb % 2 ^ 32 * 2 ^ 64 + (l.w 14).toNat)) (BitVec.ofNat 960 (pack 64 ((l.words.take 15).map (·.toNat)))) == l.w 15

/-- The letter arrived on a running IDE stream of the session's port (R368). -/
def State.onIde (s : State) (sess port : Nat) (ide : Bool) : Bool :=
  ide && port == sess / 4 && (List.range 5).any fun i => mget 0 (mget {} s.hostPorts port).ide i == 2

/-- A letter entered, after the launch entered last; one that finds 64 held is discarded and counted in DROP (R293, R295). -/
def State.enterLetter (s : State) (p : Nat) (l : Letter) : State :=
  let b := s.pb p
  if 64 ≤ b.letters.length then s.setPb p { b with drop := min (b.drop + 1) 65535 }
  else { s.setPb p { b with
      letters := b.letters ++ [{ l with id := s.nextLetter, prev := b.lastLaunch }]
      lastLaunch := if l.launch then some s.nextLetter else b.lastLaunch } with nextLetter := s.nextLetter + 1 }

/-- The tests of R369 in order: a discard, or the letter is entered and LAST advances. -/
def State.postmark (s : State) (p : Nat) (l : Letter) (site k port : Nat) (ide : Bool) : State :=
  let b := s.pb p
  let seq := (l.w 14).toNat
  let dead := s.slotDead site k
  if dead then s.setPb p { b with refused := b.refused + 1 }
  else if !s.onIde b.session port ide then s.setPb p { b with foreign := b.foreign + 1 }
  else if b.halt ∨ b.last = 2 ^ 64 - 1 then s.setPb p { b with refused := b.refused + 1 }
  else if seq = 0 then s.setPb p { b with rep := b.rep + 1 }
  else if !s.tagOk b.session p k l then s.setPb p { b with badTag := b.badTag + 1 }
  else if seq ≤ b.last then s.setPb p { b with rep := b.rep + 1 }
  else if b.last + 1 < seq then s.setPb p { b with skip := b.skip + 1, halt := true, haltWhy := 1 }
  else (s.setPb p { b with last := seq, haltWhy := if seq = 2 ^ 64 - 1 then 2 else b.haltWhy }).enterLetter p l

/-- Records held for a link are written when the post box resumes (R370). -/
def State.releaseHeld (s : State) (p : Nat) : State :=
  let b := s.pb p
  b.held.foldl State.putRecord (s.setPb p { b with held := [] })

/-- R371: a REBIND letter resumes or re-keys its post box, or is discarded. -/
def State.rebind (s : State) (p : Nat) (l : Letter) (port : Nat) (ide : Bool) : State :=
  let b := s.pb p
  let sess := fld (l.w 7) 0 4
  let bd : W384 := BitVec.ofNat 384 (pack 64 ((l.words.drop 8).take 6 |>.map (·.toNat)))
  match b.sealedTo with
  | none => s.setPb p { b with badTag := b.badTag + 1 }
  | some (site, k) =>
    if s.slotDead site k then s.setPb p { b with refused := b.refused + 1 }
    else if s.onIde sess port ide && l.w 14 == 1 && s.tagOk sess p k l && (mget {} (s.site site).slots k).bd == bd then
      (s.setPb p { b with session := sess, last := 1, halt := false, haltWhy := 0 }).releaseHeld p
    else s.setPb p { b with badTag := b.badTag + 1 }

/-- R293, R369, R371: the write of word 0x78 enqueues the letter that the window then holds; none comes through the port of a site that is
out (R380). -/
def execLetterEnqueue (port pb : Nat) (v : W64) (ide : Bool) (s : State) : Out :=
  if s.stage ≠ 5 ∨ 4096 ≤ pb ∨ !(mget {} s.hostPorts port).up then .next s
  else
    let b := s.pb pb
    let l : Letter := { id := 0, words := tab (fun i => mget 0 b.win i) 15 ++ [v] }
    if l.kind = 4 then .next (s.rebind pb l port ide)
    else match b.sealedTo with
      | none => .next (s.enterLetter pb l)
      | some (site, k) => .next (s.postmark pb l site k port ide)

/-- R294: PBSTAT read, which clears DROP; before READY the read is aborted (R379). -/
def execPbstatRead (pb : Nat) (s : State) : Out :=
  let b := s.pb pb
  .next (if s.stage ≠ 5 then { s with reply := .abort }
    else { s.setPb pb { b with drop := 0 } with
      reply := .value (b.drop * 2 ^ 48 + bn b.sealedTo.isSome * 512 + bn b.halt * 256 + b.letters.length) })

end Sys2Proof.Machine
end

