-- ==== Sys2Proof/Machine/Slice.lean ====
section
/-! DEFINITION. The slice controller and the translation hardware: bank power, write queues, row counters, the patrol, channel
retirement, walks, and pgmap (R251, R267 to R290). -/
namespace Sys2Proof.Machine

/-! ## Cache fills and walks (R268, R287) -/

/-- R268: a line that a pref or an access waits for is filled from its home. An uncorrectable error fills nothing and is
logged (R284). -/
def execL1MissFill (cl line : Nat) (s : State) : Out :=
  if !(s.cl cl).l1Miss.contains line then .next s
  else
    let pa := s.lineHome cl line
    if s.badAt pa 128 then
      let s := (s.readAt cl pa 128).logBad cl pa 128
      let c := s.cl cl
      .next (s.setCl cl { c with l1Miss := c.l1Miss.filter (· != line) })
    else .next (s.l1Fill cl line)

/-- R287: a walker reads the tables for va and caches the leaf it finds; a walk that fails caches nothing. -/
def execPageTableWalk (cl va : Nat) (eng : Bool) (s : State) : Out :=
  let a : Agent := { slot := (s.cl cl).ti.slot, monitor := s.isMon cl }
  .next ((s.logWalk cl a va).noteTlb cl a eng va)

/-! ## The local store's banks (R267) -/

/-- A bank put in a power state; OFF loses its data, so that it reads zero once it is woken. -/
def State.lsPower (s : State) (cl b p : Nat) : State :=
  let s := if p = 2 then s.zeroMem (lsAt cl (b * 131072)) 131072 else s
  let c := s.cl cl
  s.setCl cl { c with lsPwr := mset c.lsPwr b p }

/-- A bank brought to ON. -/
def State.lsOn (s : State) (cl b : Nat) : State := s.wakeLs cl (b * 131072) 1

/-- R267: a bank wakes. -/
def execLsBankWake (cl bank : Nat) (s : State) : Out := .next (if bank < 48 then s.lsOn cl bank else s)

/-! ## The write queues (R276, R277) -/

/-- R276: a queue that holds HI entries drains, oldest first, until it holds LO. -/
def execWriteQueueWatermarkDrain (cl ch : Nat) (s : State) : Out :=
  let c := s.cl cl
  let q := mget [] c.wqs ch
  let old := q.take (q.length - c.wqLo)
  .next (if c.wqHi ≤ q.length then s.drainWq cl ch fun e => old.any fun o => o.range == e.range else s)

/-- R276: entries that have waited 4,096 cycles drain. -/
def execWriteQueueAgeDrain (cl ch : Nat) (s : State) : Out :=
  let now := (s.cl cl).cycle
  .next (s.drainWq cl ch fun e => decide (e.born + 4096 ≤ now))

/-! ## Row counters and the patrol (R279, R283) -/

/-- The first slice offset of the row that a counter's number names. -/
def Cluster.rowBase (c : Cluster) (r : Nat) : Nat :=
  let b := r / 2 ^ 15 % 32
  let row := r % 2 ^ 15
  let low := (b % 8) ^^^ (bits row 4 3) ^^^ (bits row 12 3)
  let ch := if r / 2 ^ 20 < 3 then r / 2 ^ 20 else c.leaving
  b / 8 * 0x60000000 + ((row * 64 + low) * c.nChan + ch) * 256

/-- R279: a counter at its threshold, or one whose check fails, has its neighbouring rows refreshed and starts again; a check that
fails is a correctable event. -/
def execRowActivationRefresh (cl row : Nat) (s : State) : Out :=
  let s := if (s.cl cl).rowBad.contains row then s.countEvent cl (sliceAt cl ((s.cl cl).rowBase row)) else s
  let c := s.cl cl
  .next (if c.rowDue row then s.setCl cl (c.refresh row) else s)

/-- R283: the patrol reads a granule of an allocated set and corrects what it finds; what it cannot correct is logged. -/
def execPatrolRead (cl g : Nat) (s : State) : Out :=
  if !(s.cl cl).alloc (g * 256 / 0x60000000) then .next s
  else match s.slicePa cl (256 * g) with
    | none => .next s
    | some pa => .next ((s.correct cl pa 256).logBad cl pa 256)

/-! ## Channel retirement (R273 to R275) -/

/-- No mapped frame lies in the upper third of a quarter. -/
def Cluster.upperFree (c : Cluster) : Bool := (List.range 4).all fun q => mget 0 c.upper q == 0

/-- Retirement of channel ch starts: onto a spare of the site's pool, whose sets wake and hold zeros, by reduction, or held in WAITVAC
(R273). -/
def State.startRetire (s : State) (cl ch : Nat) : State :=
  let c := s.cl cl
  let x := s.site (siteOf cl)
  match x.sparePool with
  | sp :: rest =>
    let on (c : Cluster) (q : Nat) : Cluster :=
      { c with bankPwr := mset c.bankPwr (4 * q + 3) .on, setUsed := mset c.setUsed (4 * q + 3) c.cycle }
    (s.setSite (siteOf cl) { x with sparePool := rest }).setCl cl
      { (List.range 4).foldl on c with chState := .spare, retiring := some (ch, some sp), mbnd := 0 }
  | [] =>
    if c.nChan ≠ 3 then s
    else if c.upperFree then s.setCl cl { c with chState := .reduce, retiring := some (ch, none), mbnd := 0 }
    else s.setCl cl { c with chState := .waitVac, retiring := some (ch, none) }

/-- Retirement of a live channel, where none is under way. A monitor cluster has no channels (R271). -/
def State.retire (s : State) (cl ch : Nat) : State :=
  let c := s.cl cl
  if s.isMon cl ∨ c.chState ≠ .normal ∨ c.nChan ≤ ch then s else s.startRetire cl ch

/-- A write of SLRET.GO: a retirement held in WAITVAC goes on once the upper thirds hold no mapped frame. -/
def State.retireGo (s : State) (cl : Nat) : State :=
  let c := s.cl cl
  if c.chState = .waitVac ∧ c.upperFree then s.setCl cl { c with chState := .reduce, mbnd := 0 } else s

/-- A context's writes to the expert registers of its site take effect (R381). -/
def State.expert (s : State) (cl : Nat) : Bool := (s.site (siteOf cl)).expert

/-- A channel is due to retire: more than CETHR correctable events in the last 2^30 cycles, or a word of it that fails (R273). -/
def State.retireDue (s : State) (cl ch : Nat) : Bool :=
  let c := s.cl cl
  decide (c.cethr < ((mget [] c.chEvents ch).filter fun t => decide (c.cycle < t + 2 ^ 30)).length) ||
    s.bad.any fun w => decide (spaceOf w = 1 ∧ unitOf w = cl ∧ (c.geom (offOf w)).ch = ch)

/-- R273: a channel whose correctable events exceed CETHR, or with an uncorrectable error, starts to retire. -/
def execChannelRetirementStart (cl ch : Nat) (s : State) : Out := .next (if s.retireDue cl ch then s.retire cl ch else s)

/-- R290: a write of SLRET that names a channel. -/
def execSlretRetire (cl ch : Nat) (s : State) : Out := .next (if s.expert cl then s.retire cl ch else s)
/-- R290: a write of SLRET.GO. -/
def execSlretGo (cl : Nat) (s : State) : Out := .next (if s.expert cl then s.retireGo cl else s)

/-- Granules that the move under way has in all (R274). -/
def Cluster.moveSize (c : Cluster) : Nat := if c.chState = .spare then 2 ^ 23 else 2 ^ 24

/-- The granule at a position of the move's order: the quarter and the granule within it (R274). -/
def Cluster.moveAt (c : Cluster) (p : Nat) : Nat × Nat :=
  if c.chState = .spare then (p / 2 ^ 21, p % 2 ^ 21 * c.nChan + c.leaving) else (p / 2 ^ 22, 2 ^ 22 - 1 - p % 2 ^ 22)

/-- A move is under way and has granules left. -/
def Cluster.moving (c : Cluster) : Bool := (c.chState == .spare || c.chState == .reduce) && decide (c.mbnd < c.moveSize)

/-- The failing words of a granule that is copied: each is logged, and what its copy holds is free (R274, R284; log 70). -/
def State.copyBad (s : State) (cl pa : Nat) : State :=
  let ws := s.bad.filter fun w => decide (pa ≤ w ∧ w < pa + 256)
  ws.foldl (fun s w =>
    let (v, s) := (s.logErr cl w).fresh
    let (u, s) := s.fresh
    { s with mem := writeMem s.mem w 32 (v.toNat + u.toNat * 2 ^ 128), bad := s.bad.filter (· != w) }) s

/-- R274, R275: the next granule moves: its entries drain, the sets at both ends wake, and MBND passes it. No value
changes. -/
def execGranuleMove (cl : Nat) (s : State) : Out :=
  let c := s.cl cl
  if !c.moving then .next s
  else
    let (q, g) := c.moveAt c.mbnd
    let x := q * 0x60000000 + 256 * g
    let s := s.drainWq cl (c.geom x).ch fun e => e.range / 4 == x / 256
    let s := ((s.correct cl (sliceAt cl x) 256).activate cl x).copyBad cl (sliceAt cl x)
    let c := s.cl cl
    .next ((s.setCl cl { c with mbnd := c.mbnd + 1 }).activate cl x)

/-- The index that a channel bears once the move has ended, none for the one that is retired (R273, R274). -/
def Cluster.newIx (c : Cluster) (i : Nat) : Option Nat :=
  let d := c.leaving
  if i = d then none
  else if c.chState = .reduce then some (if d < i then i - 1 else i)
  else some (if i = 3 then d else i)

/-- A map by channel, times w and more, with the channels renumbered. -/
def Cluster.renumber {α : Type} (c : Cluster) (w : Nat) (m : Map α) : Map α :=
  m.foldl (fun r e => match c.newIx (e.1 / w) with
    | some i => mset r (i * w + e.1 % w) e.2
    | none => r) []

/-- A map by quarter and channel, with the channels renumbered. -/
def Cluster.renumberSets {α : Type} (c : Cluster) (m : Map α) : Map α :=
  m.foldl (fun r e => match c.newIx (e.1 % 4) with
    | some i => mset r (e.1 / 4 * 4 + i) e.2
    | none => r) []

/-- The channel set that a retirement under way leaves (R273). -/
def Cluster.nextChans (c : Cluster) (ix : Nat) : Option (List Nat) := match c.retiring, c.chState with
  | some (ch, some n), .spare => some (setAt (c.chanList ix) ch n)
  | some (ch, none), .reduce => some ((c.chanList ix).eraseIdx ch)
  | _, _ => c.chans

/-- R273: the move ends: the old channel is retired for good, SLCHAN lists the new set, and what is kept by channel goes by it. -/
def execRetirementComplete (cl : Nat) (s : State) : Out :=
  let c := s.cl cl
  if (c.chState ≠ .spare ∧ c.chState ≠ .reduce) ∨ c.moving then .next s
  else .next (s.setCl cl { c with
    chans := c.nextChans (cl % 128), chState := .normal, retiring := none
    wqs := c.renumber 1 c.wqs, chEvents := c.renumber 1 c.chEvents, rowCnt := c.renumber (2 ^ 20) c.rowCnt
    rowBad := c.rowBad.filterMap fun r => (c.newIx (r / 2 ^ 20)).map fun i => i * 2 ^ 20 + r % 2 ^ 20
    bankPwr := c.renumberSets c.bankPwr, setUsed := c.renumberSets c.setUsed })

/-! ## Bank power (R280, R281) -/

/-- Cycles since the last access of a set. -/
def Cluster.idle (c : Cluster) (k : Nat) : Nat := c.cycle - mget 0 c.setUsed k

/-- The bank set number names a set of a channel in use. -/
def Cluster.isSet (c : Cluster) (k : Nat) : Bool := c.sets.contains k

def State.setPower (s : State) (cl k : Nat) (p : Power) : State :=
  let c := s.cl cl
  s.setCl cl { c with bankPwr := mset c.bankPwr k p }

/-- A set is due for NAP. -/
def Cluster.napDue (c : Cluster) (k : Nat) : Bool := c.isSet k && mget .on c.bankPwr k == .on && decide (c.napIdle ≤ c.idle k)

/-- A set is idle long enough for RETAIN or DEEP, and EFF does not keep it ready. A monitor cluster has no sets (R271). -/
def State.lowDue (s : State) (cl k : Nat) : Bool :=
  let c := s.cl cl
  !s.isMon cl && c.isSet k && decide (c.retIdle ≤ c.idle k ∧ s.eff cl ≤ c.heatOf (k / 4))

/-- A set is due for DEEP: unallocated, DEEPEN set, none of its writes still queued. -/
def State.deepDue (s : State) (cl k : Nat) : Bool :=
  let c := s.cl cl
  s.lowDue cl k && mget .on c.bankPwr k != .deep && !c.alloc (k / 4) && c.deepen &&
    !(mget [] c.wqs (k % 4)).any fun e => e.range * 64 / 0x60000000 == k / 4

/-- Bytes and words of bank set k hold zero from now. -/
def State.zeroSet (s : State) (cl k : Nat) : State :=
  let c := s.cl cl
  let mine (a : Nat) : Bool := spaceOf a == 1 && unitOf a == cl && offOf a / 0x60000000 == k / 4 && (c.geom (offOf a)).ch == k % 4
  { s with mem := s.mem.filter fun m => !mine m.1, bad := s.bad.filter fun w => !mine w, soft := s.soft.filter fun w => !mine w }

/-- R281: an idle set enters NAP. -/
def execBankSetNap (cl bs : Nat) (s : State) : Out := .next (if !s.isMon cl && (s.cl cl).napDue bs then s.setPower cl bs .nap else s)

/-- R281: an idle set whose HEAT is at or above EFF enters RETAIN. -/
def execBankSetRetain (cl bs : Nat) (s : State) : Out :=
  .next (if s.lowDue cl bs && (s.cl cl).setReady bs then s.setPower cl bs .retain else s)

/-- R281: an idle unallocated set enters DEEP, where PWRPOL lets it. Its data are lost: it reads zero once it has woken. -/
def execBankSetDeep (cl bs : Nat) (s : State) : Out := .next (if s.deepDue cl bs then (s.setPower cl bs .deep).zeroSet cl bs else s)

/-- R281: a set wakes. -/
def execBankSetWake (cl bs : Nat) (s : State) : Out := .next (if (s.cl cl).isSet bs then s.readySet cl bs else s)

/-- The sets that EFF now governs wake (R281). -/
def State.wakeGoverned (s : State) (cl : Nat) : State :=
  let c := s.cl cl
  (c.sets.filter fun k => decide (c.heatOf (k / 4) < s.eff cl) && !c.setReady k).foldl (fun s k => s.readySet cl k) s

/-! ## pgmap (R251, R288, R354) -/

/-- R251: pgmap. -/
def execPgmap (t : BitVec 3) (a b : BitVec 6) (s : State) : Out :=
  gate 1 [.x a.toNat, .x b.toNat] [] s fun s =>
    let (va, s) := s.readX a.toNat
    let (e, s) := s.readX b.toNat
    let z := fld e 7 2
    andThen (s.tlRoom t.toNat 1) s fun s =>
      if z < 3 ∧ va.toNat % 2 ^ pageBits z ≠ 0 then s.trapNow (alignTrap va (2 ^ pageBits z))
      else .next (s.withOp t.toNat 1 fun s op =>
        let c := s.myCl
        s.setMyCl { c with pgmaps := c.pgmaps ++ [{ op := op, va := va, pte := e, sealedCtx := s.me.sealedCtx }] })

/-- The table at a level on the way to va: its slice offset, or none where a pointer is missing (R288). -/
def State.tableFor (s : State) (cl : Nat) (a : Agent) (va : Nat) : Nat → Nat → Nat → Option Nat
  | 0, _, t => some t
  | n + 1, level, t =>
    match s.slicePa cl (t + 8 * bits va (15 + 11 * level) 11) with
    | none => none
    | some pa =>
      let e : W64 := BitVec.ofNat 64 (s.load pa 8)
      if s.refused cl pa a || s.badAt pa 8 || fld e 0 1 == 0 || fld e 1 1 == 1 || ptrMalformed level e then none
      else s.tableFor cl a va n (level - 1) (fld e 14 34 * 2 ^ 14)

/-- The tables above a leaf read: what the reads wake, and a failing entry logged (R281, R284). -/
def State.readTables (s : State) (cl : Nat) (a : Agent) (va n t : Nat) : State :=
  ((s.walkPath cl a va 2 t).take n).foldl (fun s pa => (s.readAt cl pa 8).logBad cl pa 8 5) s

/-- A leaf's page meets the sets of quarter q: its live part, N × 512 MiB (R272, R280). -/
def Cluster.leafMeets (c : Cluster) (e : W64) (q : Nat) : Bool :=
  let f := fld e 15 33 * 2 ^ 15
  decide (f < q * 0x60000000 + c.nChan * 2 ^ 29 ∧ q * 0x60000000 < f + 2 ^ pageBits (fld e 7 2))

/-- The page meets the upper third of quarter q, [1 GiB, 1.5 GiB) of it. -/
def leafUpper (e : W64) (q : Nat) : Bool :=
  let f := fld e 15 33 * 2 ^ 15
  decide (f < (q + 1) * 0x60000000 ∧ q * 0x60000000 + 0x40000000 < f + 2 ^ pageBits (fld e 7 2))

/-- A slice leaf that the bank map counts. -/
def isSliceLeaf (e : W64) : Bool := fld e 0 1 == 1 && fld e 1 1 == 1 && fld e 6 1 == 0

/-- The bank map with a leaf counted, or taken back (R280). -/
def Cluster.countLeaf (c : Cluster) (e : W64) (add : Bool) : Cluster :=
  if !isSliceLeaf e then c
  else
    let step (n : Nat) : Nat := if add then n + 1 else n - 1
    (List.range 4).foldl (fun c q =>
      let k := q * 8 + fld e 61 3
      let c := if c.leafMeets e q then { c with heat := mset c.heat k (step (mget 0 c.heat k)) } else c
      if leafUpper e q then { c with upper := mset c.upper q (step (mget 0 c.upper q)) } else c) c

/-- The frames of a leaf, by number (R354). -/
def State.leafFrames (s : State) (cl : Nat) (e : W64) : List Nat :=
  let n := min (2 ^ (pageBits (fld e 7 2) - 15)) 196608
  (List.range n).filterMap fun i => (s.leafHome cl (fld e 7 2) e (i * 2 ^ 15)).map frameOf

/-- What a pgmap's seal rules say of its entry: refused, or the frames to be tagged and the slot plus 1 (R354). -/
def State.sealRule (s : State) (cl : Nat) (p : PgCmd) : Option (List Nat × Nat) :=
  if fld p.pte 0 1 = 0 then some ([], 0)
  else if !p.sealedCtx then (if fld p.pte 56 1 = 1 then none else some ([], 0))
  else
    let k := (p.op.agent.slot).getD 0
    let fs := s.leafFrames cl p.pte
    let tag (f : Nat) : Nat := mget 0 (s.site (siteOf cl)).tags f
    if fld p.pte 56 1 = 1 ∧ fld p.pte 50 6 ≠ k then none
    else if fs.any fun f => tag f != 0 && tag f != k + 1 then none
    else some (fs.filter fun f => tag f == 0, k + 1)

/-- The entry written, the old leaf's counts taken back where it can be read (log 70), the sets of a new slice leaf woken, frames tagged, and the
cluster's cached translations of the page dropped (R251, R288). -/
def State.writeLeaf (s : State) (cl : Nat) (p : PgCmd) (pa : Nat) (fs : List Nat) (tag : Nat) : State :=
  let old : W64 := if s.badAt pa 8 then 0 else BitVec.ofNat 64 (s.load pa 8)
  let s := match s.l1Line cl pa with
    | some line => s.l1Flush cl line
    | none => s
  let s := if isSliceLeaf p.pte && !s.isMon cl then
      ((s.cl cl).sets.filter fun k => (s.cl cl).leafMeets p.pte (k / 4)).foldl (fun s k => s.readySet cl k) s
    else s
  let s := s.perform pa 8 p.pte.toNat
  let x := s.site (siteOf cl)
  let s := if fs.isEmpty then s else s.setSite (siteOf cl) { x with tags := fs.foldl (fun m f => mset m f tag) x.tags }
  let c := s.cl cl
  let c := if s.isMon cl then c else (c.countLeaf old false).countLeaf p.pte true
  let size := 2 ^ pageBits (fld p.pte 7 2)
  let keep (e : TlbEnt) : Bool := !meets (e.vpn * 2 ^ pageBits e.level) (2 ^ pageBits e.level) p.va.toNat size
  s.setCl cl { c with tlb := c.tlb.filter keep, engTlb := c.engTlb.filter keep }

/-- One pgmap carried out, or its failure recorded (R251, R288). -/
def State.runPgmap (s : State) (cl : Nat) (p : PgCmd) : State :=
  let z := fld p.pte 7 2
  let bad := z == 3 || (fld p.pte 0 1 == 1 && (fld p.pte 1 1 == 0 || leafMalformed z p.pte))
  if s.opDead p.op then s
  else if fld p.va 48 16 ≠ 0 then s.opFail p.op (5, p.va)
  else if p.va.toNat < lsTop then s.opFail p.op (12, p.va)
  else if bad then s.opFail p.op (12, p.va)
  else
    let r := (s.cl cl).ptroot
    let s := if fld r 0 1 = 0 then s else s.readTables cl p.op.agent p.va.toNat (2 - z) (fld r 14 34 * 2 ^ 14)
    match (if fld r 0 1 = 0 then none else s.tableFor cl p.op.agent p.va.toNat (2 - z) 2 (fld r 14 34 * 2 ^ 14)) with
    | none => s.opFail p.op (5, p.va)
    | some t =>
      match s.slicePa cl (t + 8 * bits p.va.toNat (15 + 11 * z) 11), s.sealRule cl p with
      | none, _ => s.opFail p.op (5, p.va)
      | some _, none => s.opFail p.op (12, p.va)
      | some pa, some (fs, tag) =>
        if s.refused cl pa p.op.agent then s.opFail p.op (5, p.va)
        else (s.writeLeaf cl p pa fs tag).opDone p.op

/-- R251: the oldest pgmap of a cluster completes. -/
def execPgmapCompletion (cl : Nat) (s : State) : Out :=
  let c := s.cl cl
  match c.pgmaps with
  | [] => .next s
  | p :: rest => .next ((s.setCl cl { c with pgmaps := rest }).runPgmap cl p)

end Sys2Proof.Machine
end

