-- ==== Sys2Proof/Machine/Csr.lean ====
section
/-! DEFINITION. The system registers: their numbers, levels, reads and writes, csrr and csrw, and the register writes and reads that are
steps of their own (R4, R26 to R34, R106, R249, R290, R318, R345, R372, R381). -/
namespace Sys2Proof.Machine

/-! ## The number space (R27, R28) -/

/-- Numbers of registers that exist (R28, R33, R290, R318, R345, R372). -/
def csrAllocated (n : Nat) : Bool :=
  decide (n < 4) || decide (0x010 ≤ n ∧ n < 0x018) || decide (0x040 ≤ n ∧ n < 0x04E ∧ n ≠ 0x047) || decide (0x080 ≤ n ∧ n < 0x100) ||
  [0x100, 0x101, 0x102, 0x104, 0x108, 0x109, 0x10A, 0x10B, 0x110, 0x111, 0x112, 0x114, 0x115, 0x118, 0x119, 0x11A].contains n ||
  decide (0x200 ≤ n ∧ n < 0x207) || decide (0x208 ≤ n ∧ n < 0x20C) || decide (0x210 ≤ n ∧ n < 0x21A) ||
  decide (0x308 ≤ n ∧ n < 0x30B) || decide (0x310 ≤ n ∧ n < 0x312) || decide (0x318 ≤ n ∧ n < 0x326) ||
  decide (0x330 ≤ n ∧ n < 0x335) || n == 0x338 ||
  decide (0x400 ≤ n ∧ n < 0x409) || decide (0x410 ≤ n ∧ n < 0x414) || decide (0x418 ≤ n ∧ n < 0x41C)

/-- The level a read needs (Table 6). -/
def csrReadLevel (n : Nat) : Nat :=
  if n < 0x010 ∨ (0x080 ≤ n ∧ n < 0x100) ∨ n ∈ [0x042, 0x043, 0x046, 0x04C, 0x04D] then 0 else if n < 0x400 then 1 else 2

/-- The level a write needs (Table 6); a write to a register that is RO to users is ignored there. -/
def csrWriteLevel (n : Nat) : Nat := if n < 0x010 ∨ (0x080 ≤ n ∧ n < 0x100) then 0 else if n < 0x400 then 1 else 2

/-- NOM of a stepping-latency class (R33). -/
def nomOf (n : Nat) : Nat := [1, 3, 4, 4, 2, 4, 2, 3, 6, 6, 8].getD (n - 0x080) 0

/-- An entry of the stepping latency table: PHYS is fused, and never below NOM (R33). -/
def latEntry (n : Nat) : W64 :=
  if 0x08A < n then 0 else BitVec.ofNat 64 (min 255 (nomOf n + Config.physSlack (n - 0x080)) * 256 + nomOf n)

/-! ## Reads -/

/-- An owner register: 4 bits a resource, from the first (R32). -/
def ownWord (m : Map Nat) (first n : Nat) : Nat :=
  pack 4 (tab (fun i => match mget 0 m (first + i) with
    | 0 => 0
    | k + 1 => 8 + k) n)

/-- Contexts and clusters, 0x000 to 0x04D (R28 to R34, R106). -/
def State.readLow (s : State) (n : Nat) : Nat :=
  let c := s.me
  let x := s.myCl
  match n with
  | 0x000 => c.fctl.toNat
  | 0x001 => c.vflags.toNat
  | 0x002 => c.ccount % 2 ^ 64
  | 0x003 => x.cycle
  | 0x010 => (c.ctxstat s.cur).toNat
  | 0x011 => c.trapcause.toNat
  | 0x012 => fld c.trapPc 2 46 * 4
  | 0x013 => c.trapAddr.toNat
  | 0x014 => c.trapInfo.toNat
  | 0x015 => c.trapVec.toNat
  | 0x016 => c.stkSpill.toNat
  | 0x017 => c.ckptBase.toNat
  | 0x040 => x.lsBase
  | 0x041 => x.lsLim
  | 0x042 => bn x.sbMode
  | 0x043 => s.eff s.clNo * 2 ^ 12 + pack 3 (tab (fun k => (s.ctx (4 * s.clNo + k)).decl) 4)
  | 0x044 => x.recBase.toNat
  | 0x045 => x.recLim
  | 0x046 => s.mySite.moncl
  | 0x048 => ownWord x.accOwn 0 8
  | 0x049 => ownWord x.obOwn 0 16
  | 0x04A => ownWord x.obOwn 16 16
  | 0x04B => ownWord x.mfmtOwn 0 2
  | 0x04C => s.mySite.clen.toNat % 2 ^ 64
  | _ => s.mySite.clen.toNat / 2 ^ 64

/-- A state of a bank set in BMAP (R290). -/
def Power.code : Power → Nat
  | .on => 0
  | .nap => 1
  | .retain => 2
  | .deep => 3

/-- BMAP.q (R290). -/
def Cluster.bmap (c : Cluster) (q : Nat) : Nat :=
  sumTo (fun h => mget 0 c.heat (q * 8 + h)) 8 % 2 ^ 32 * 2 ^ 32 + pack 2 (tab (fun ch => (mget .on c.bankPwr (q * 4 + ch)).code) 3) * 64 +
    bn (c.alloc q) * 8 + c.heatOf q

/-- SLCHAN (R290). -/
def State.slchan (s : State) (cl : Nat) : Nat :=
  let c := s.cl cl
  let l := c.chanList (cl % 128)
  pack 8 (tab (fun i => l.getD i 0xFF) 3) * 2 ^ 24 + c.nChan * 2 ^ 16 + (s.site (siteOf cl)).sparePool.length % 256 * 256 +
    (match c.chState with
      | .normal => 0
      | .spare => 1
      | .reduce => 2
      | .waitVac => 3)

/-- Translation and memory, 0x100 to 0x11A (R290). -/
def State.readMemReg (s : State) (n : Nat) : Nat :=
  let x := s.myCl
  match n with
  | 0x100 => x.ptroot.toNat
  | 0x101 => pack 2 (tab (fun k => mget 0 x.lsPwr k) 32)
  | 0x102 => pack 2 (tab (fun k => mget 0 x.lsPwr (32 + k)) 16)
  | 0x104 => bn x.deepen * 2 ^ 40 + x.retIdle * 2 ^ 16 + x.napIdle
  | 0x108 => x.bmap 0
  | 0x109 => x.bmap 1
  | 0x10A => x.bmap 2
  | 0x10B => x.bmap 3
  | 0x110 => s.slchan s.clNo
  | 0x111 => x.cethr * 2 ^ 32
  | 0x112 => x.mbnd % 2 ^ 24
  | 0x114 => x.wqHi * 256 + x.wqLo
  | 0x115 => x.rhThr
  | 0x118 => x.ceCnt
  | 0x119 => x.merrAddr.toNat
  | _ => x.merrStat

def WorkQ.count (q : WorkQ) : Nat := q.tail - q.head - q.gone.length - bn q.closed

/-- The queue and the heap that WQSEL and HPSEL select at the issuing context's site. -/
def State.myQueue (s : State) : WorkQ := s.mySite.queue s.me.wqSel
def State.myHeap (s : State) : Heap := s.mySite.heap s.me.hpSel

/-- Gangs, queues and heaps, 0x200 to 0x219 (R318). -/
def State.readSchedReg (s : State) (n : Nat) : Nat :=
  let x := s.mySite
  let q := s.myQueue
  let h := s.myHeap
  match n with
  | 0x200 => s.myCl.ti.team
  | 0x201 => bn s.myCl.saveFail
  | 0x203 => s.myCl.clSave
  | 0x204 => x.pmBase
  | 0x205 => x.asBase
  | 0x206 => x.cvBase + bn x.cvEn
  | 0x208 => s.me.wqSel
  | 0x209 => q.owner * 2 ^ 49 + bn q.v * 2 ^ 48 + q.team * 2 ^ 32 + q.log2 * 2 ^ 27 + q.base
  | 0x20A => bn q.closed * 2 ^ 49 + bn q.frozen * 2 ^ 48 + q.count
  | 0x20B => q.frec
  | 0x210 => s.me.hpSel
  | 0x211 => h.owner * 2 ^ 49 + bn h.v * 2 ^ 48 + h.team * 2 ^ 32 + h.age * 2 ^ 16 + h.rshift
  | 0x212 => h.cap
  | 0x213 => h.floor
  | 0x214 => h.tol.toNat
  | 0x215 => h.init.toNat
  | 0x216 => h.res.toNat
  | 0x217 => bn h.drained * 2 ^ 50 + bn h.frozen * 2 ^ 49 + (h.tasks.filter fun e => e.2.st == 2).length * 2 ^ 32 +
      (h.tasks.filter fun e => e.2.st == 1).length
  | 0x219 => h.frec
  | _ => 0

/-- The site carries an Iczer port (R321). -/
def State.hasPort (s : State) (p : Nat) : Bool := decide (p < 32 ∧ portSite p = s.siteNo) && s.mySite.present

/-- SOSTAT of a site: the channels whose head runs, and those that hold commands, none running (R345). -/
def Site.sostat (x : Site) : Nat :=
  let on (k : Nat) : List SortCmd := x.office.filter fun c => c.ch == k && c.run != 2
  ofBits (fun k => (on k).any fun c => c.run == 1) 8 + 256 * ofBits (fun k => !(on k).isEmpty && !((on k).any fun c => c.run == 1)) 8

/-- The fabric, 0x308 to 0x338 (R345). -/
def State.readFabReg (s : State) (n : Nat) : Nat :=
  let x := s.myCl
  let p := s.me.iczSel
  let y := s.port p
  let here (v : Nat) : Nat := if s.hasPort p then v else 0
  match n with
  | 0x308 => min x.rtcMisses (2 ^ 32 - 1) * 2 ^ 32 + x.rtc.length
  | 0x30A => (x.tokens.filter fun e => e.2.state == 2).length * 2 ^ 16 + (x.tokens.filter fun e => e.2.state == 1).length
  | 0x310 => s.mySite.mbWait
  | 0x311 => s.mySite.sostat
  | 0x330 => p
  | 0x331 => here (y.key % 256 * 2 ^ 24 + y.peer % 256 * 2 ^ 16 + y.peerPort % 32 * 2 ^ 8 + 4 + y.state)
  | 0x332 => here (y.sent % 2 ^ 48)
  | 0x333 => here (min y.fail (2 ^ 32 - 1))
  | 0x334 => here y.limit
  | 0x338 => s.panelId
  | _ =>
    if 0x318 ≤ n ∧ n < 0x326 then
      let l := s.link s.siteNo (n - 0x318)
      min l.retrain (2 ^ 32 - 1) * 256 + l.spares * 32 + l.width
    else 0

/-- Frames tagged to slot k of a site (R372). -/
def Site.frames (x : Site) (k : Nat) : Nat := (x.tags.filter fun e => e.2 == k + 1).length

/-- A key slot by number; slot 0 reports BOUND while it is installed (R346). -/
def Site.keySlot (x : Site) (k : Nat) : KeySlot := mget {} x.slots k
def SlotState.code : SlotState → Nat
  | .empty => 0
  | .loaded => 1
  | .bound => 2
  | .rotating => 3
  | .zeroised => 4

/-- PMCNT (R372). -/
def PostBox.pmcnt (b : PostBox) : Nat :=
  min b.rep 4095 * 2 ^ 52 + min b.badTag 4095 * 2 ^ 40 + min b.foreign 4095 * 2 ^ 28 + min b.refused 4095 * 2 ^ 16 + min b.skip 65535

/-- SCRUBPROG (R372). -/
def Scrub.word (c : Scrub) : Nat :=
  bn c.active * 2 ^ 63 + c.result * 2 ^ 61 + c.slot * 2 ^ 48 + c.entry * 2 ^ 40 + c.n * 2 ^ 32 + c.unit

/-- Key slots, scrub, rotation, seals and postmarks, 0x400 to 0x41B (R372). -/
def State.readKeyReg (s : State) (n : Nat) : Nat :=
  let x := s.mySite
  let k := x.keySlot s.me.ksSel
  let c := s.myCl
  let l := mget 0 x.resLock s.me.resSel
  let b := s.pb s.me.pmSel
  match n with
  | 0x400 => s.me.ksSel
  | 0x401 => k.pbCount * 2 ^ 20 + k.pbFirst * 2 ^ 8 + k.session * 16 + k.st.code
  | 0x402 => x.frames s.me.ksSel
  | 0x403 => bn c.kbActive * 2 ^ 63 + c.kbSlot * 2 ^ 56 + c.kbPos % 2 ^ 25
  | 0x404 => ofBits (fun i => mget 0 x.resLock i != 0) 64
  | 0x405 => ofBits (fun i => mget 0 x.resLock (64 + i) != 0) 20
  | 0x406 => s.me.resSel
  | 0x407 => match l with
    | 0 => 0
    | k + 1 => 64 + k
  | 0x408 => x.scrub.word
  | 0x410 => x.sealHdr
  | 0x411 => x.sealSlot
  | 0x412 => x.sealPar.1 * 2 ^ 24 + x.sealPar.2.1 * 2 ^ 8 + x.sealPar.2.2
  | 0x413 => bn x.sealPending * 2 ^ 63 + x.sealPb
  | 0x418 => s.me.pmSel
  | 0x419 => b.last
  | 0x41A => b.haltWhy * 64 + bn b.sealedTo.isSome * 16 + b.session
  | _ => b.pmcnt

/-- What a read returns; WO registers read 0 (R4). -/
def State.csrValue (s : State) (n : Nat) : W64 :=
  if 0x080 ≤ n ∧ n < 0x100 then latEntry n
  else BitVec.ofNat 64 (if n < 0x100 then s.readLow n else if n < 0x200 then s.readMemReg n else if n < 0x300 then s.readSchedReg n
    else if n < 0x400 then s.readFabReg n else s.readKeyReg n)

/-- Fields of access RC cleared by a read of cluster cl, or of a port or post box (R4). -/
def State.clearCe (s : State) (cl : Nat) : State :=
  let c := s.cl cl
  s.setCl cl { c with ceCnt := 0 }
def State.clearMerr (s : State) (cl : Nat) : State :=
  let c := s.cl cl
  s.setCl cl { c with merrStat := 0 }
def State.clearRtc (s : State) (cl : Nat) : State :=
  let c := s.cl cl
  s.setCl cl { c with rtcMisses := 0 }
def State.clearPm (s : State) (p : Nat) : State :=
  let b := s.pb p
  s.setPb p { b with rep := 0, badTag := 0, foreign := 0, refused := 0, skip := 0 }

/-- What a read clears. -/
def State.csrClear (s : State) (n : Nat) : State :=
  match n with
  | 0x118 => s.clearCe s.clNo
  | 0x11A => s.clearMerr s.clNo
  | 0x308 => s.clearRtc s.clNo
  | 0x333 => if s.hasPort s.me.iczSel then s.setPort s.me.iczSel { s.port s.me.iczSel with fail := 0 } else s
  | 0x41B => s.clearPm s.me.pmSel
  | _ => s

/-! ## Writes -/

/-- LSBASE and LSLIM written; an OFF bank brought inside the bounds wakes and reads zero (R31, R267). -/
def State.setLsBounds (s : State) (cl lo hi : Nat) : State :=
  let c := s.cl cl
  let lo := min lo 48
  let hi := min hi 48
  let s := s.setCl cl { c with lsBase := lo, lsLim := hi }
  ((List.range 48).filter fun b => decide (lo ≤ b ∧ b < hi) && mget 0 c.lsPwr b == 2).foldl (fun s b => s.lsOn cl b) s

/-- One field of LSPWR written (R267, R290). -/
def State.setBankPower (s : State) (cl b v : Nat) : State :=
  let c := s.cl cl
  let old := mget 0 c.lsPwr b
  let v := if v = 2 ∧ c.lsBase ≤ b ∧ b < c.lsLim then 1 else v
  if v = 3 then s
  else
    if old = v then s else s.lsPower cl b v

/-- LSPWR.j written, where the site's expert registers are open (R381). -/
def State.setLsPwr (s : State) (cl j : Nat) (v : W64) : State :=
  if !s.expert cl then s
  else (List.range (if j = 0 then 32 else 16)).foldl (fun s k => s.setBankPower cl (32 * j + k) (fld v (2 * k) 2)) s

/-- Every translation of a cluster invalidated, as by tlbinv with B = 0 (R238, R287). -/
def State.dropTlb (s : State) (cl : Nat) : State := s.invTlb cl 0 0

/-- PTROOT written (R287, R290). -/
def State.setPtroot (s : State) (cl : Nat) (v : W64) : State :=
  let c := s.cl cl
  (s.setCl cl { c with ptroot := BitVec.ofNat 64 (fld v 14 34 * 2 ^ 14 + fld v 0 1) }).dropTlb cl

/-- CKPTBASE written: every register of the context is dirty from now (R106). -/
def Ctx.setCkpt (c : Ctx) (v : W64) : Ctx :=
  { c with ckptBase := BitVec.ofNat 64 (fld v 15 33 * 2 ^ 15), dirty := BitVec.allOnes 104 }

/-- TRAPVEC and STKSPILL as written (R106). -/
def trapVecOf (v : W64) : W64 := BitVec.ofNat 64 (fld v 2 46 * 4)
def stkSpillOf (v : W64) : W64 := BitVec.ofNat 64 (fld v 6 58 * 64)

/-- Context g stops for good: pops and barrier waits withdrawn, then as exit (R117, R307). -/
def State.stopCtx (s : State) (g : Nat) : State :=
  let s := s.withdraw g
  let c := s.ctx g
  s.setCtx g { c with live := .exiting, taskFaults := [], memErrs := [], fence := none, killed := false }

/-- Context g is killed: a bundle whose pop has been answered issues first (R226, R307). -/
def State.killCtx (s : State) (g : Nat) : State :=
  let c := s.ctx g
  if c.live = .run ∨ c.live = .stopped then (if s.answered g then s.setCtx g { c with killed := true } else s.stopCtx g) else s

/-- WQCFG written: the queue is emptied, neither frozen nor closed; pops that wait under another assignment are answered
NOQUEUE (R313, log 17). -/
def State.setWqcfg (s : State) (site i : Nat) (v : W64) : State :=
  let q := (s.site site).queue i
  let n := fld v 27 5
  let log2 := if 4 ≤ n ∧ n ≤ 16 then n else 4
  let q' : WorkQ := { q with
    owner := fld v 49 15, ownTeam := (s.cl (fld v 51 13)).ti.team, v := fld v 48 1 == 1, team := fld v 32 16, log2 := log2, base := fld v 3 23 * 8
    head := 0, tail := 0, gone := [], taken := [], closed := false, frozen := false }
  s.setQueue site i (if q'.v && q'.team == q.team then q' else { q' with waits := answerAll false 6 q.waits })

/-- A heap reset as by HPCTL.RESET (R315). -/
def Heap.reset (h : Heap) : Heap :=
  { h with tasks := [], drained := false, frozen := false, pops := 0, res := h.init, waits := answerAll false 2 h.waits }

def capOf (v : W64) : Nat := let n := fld v 0 17; if n = 0 then 1 else min n 65536

/-- A heap register of the issuing context's site written, serialised as an arrival (R315, R318). -/
def State.writeHeap (s : State) (n : Nat) (v : W64) : State :=
  let h := s.myHeap
  let h := { h with ops := h.ops + 1 }
  let h' : Heap := match n with
    | 0x211 => { h with
        owner := fld v 49 15, ownTeam := (s.cl (fld v 51 13)).ti.team, v := fld v 48 1 == 1, team := fld v 32 16, age := fld v 16 16, rshift := fld v 0 6 }
    | 0x212 => { h with cap := capOf v }.reset
    | 0x213 => if (unpack f32 (fld v 0 32)).isNan then h else { h with floor := fld v 0 32 }
    | 0x214 => { h with tol := v }
    | 0x215 => { h with init := v }
    | 0x218 => if fld v 0 1 = 1 then h.reset else h
    | _ => { h with frec := fld v 6 20 * 64 }
  s.setHeap s.siteNo s.me.hpSel (h'.settle (h.waits.length + 1))

/-- Contexts and clusters written (R28 to R32, R106). R32 gives no rule for a RECBASE below 0x80_0000: it is stored as written, and
records are then read through the local-store window's checks (DESIGN CHOICE, log 72). -/
def State.writeLow (s : State) (n : Nat) (v : W64) : State :=
  let c := s.me
  let x := s.myCl
  match n with
  | 0x000 => s.setMe { c with fctl := fctlOf v }
  | 0x001 => s.setMe { c with vflags := vflagsOf v }
  | 0x010 => s.setMe { c with ppriv := pprivOf (s.isMon s.clNo) (fld v 6 2) }
  | 0x011 => s.setMe (c.setTrapcause v)
  | 0x012 => s.setMe { c with trapPc := trapVecOf v }
  | 0x013 => s.setMe { c with trapAddr := v }
  | 0x014 => s.setMe { c with trapInfo := v }
  | 0x015 => s.setMe { c with trapVec := trapVecOf v }
  | 0x016 => s.setMe { c with stkSpill := stkSpillOf v }
  | 0x017 => s.setMe (c.setCkpt v)
  | 0x040 => s.setLsBounds s.clNo (fld v 0 6) x.lsLim
  | 0x041 => s.setLsBounds s.clNo x.lsBase (fld v 0 6)
  | 0x042 => s.setMyCl { x with sbMode := fld v 0 1 == 1 }
  | 0x044 => s.setMyCl { x with recBase := BitVec.ofNat 64 (fld v 6 42 * 64) }
  | 0x045 => s.setMyCl { x with recLim := min (fld v 0 17) 65536 }
  | _ => s

/-- Translation and memory written (R290, R381). -/
def State.writeMemReg (s : State) (n : Nat) (v : W64) : State :=
  let x := s.myCl
  let open_ := s.expert s.clNo
  match n with
  | 0x100 => s.setPtroot s.clNo v
  | 0x101 => s.setLsPwr s.clNo 0 v
  | 0x102 => s.setLsPwr s.clNo 1 v
  | 0x104 => if open_ then s.setMyCl { x with deepen := fld v 40 1 == 1, retIdle := max 4096 (fld v 16 24), napIdle := max 16 (fld v 0 16) } else s
  | 0x111 =>
    if !open_ then s
    else
      let s := s.setMyCl { x with cethr := fld v 32 32 }
      if fld v 8 1 = 1 then s.retireGo s.clNo else s.retire s.clNo (fld v 0 2)
  | 0x114 => if open_ && decide (fld v 0 6 < fld v 8 6) then s.setMyCl { x with wqHi := fld v 8 6, wqLo := fld v 0 6 } else s
  | 0x115 => if open_ then s.setMyCl { x with rhThr := max 256 (fld v 0 12) } else s
  | _ => s

/-- Gangs, queues and heaps written (R307, R315, R318). -/
def State.writeSchedReg (s : State) (n : Nat) (v : W64) : State :=
  let c := s.me
  let x := s.myCl
  let y := s.mySite
  match n with
  | 0x201 => if fld v 0 1 = 1 then s.setMyCl { x with saveFail := false } else s
  | 0x202 => s.killCtx (fld v 0 15)
  | 0x203 => s.setMyCl { x with clSave := fld v 23 25 * 2 ^ 23 }
  | 0x204 => s.setSite s.siteNo { y with pmBase := fld v 17 9 * 2 ^ 17 }
  | 0x205 => s.setSite s.siteNo { y with asBase := fld v 3 23 * 8 }
  | 0x206 => s.setSite s.siteNo { y with cvBase := fld v 5 21 * 32, cvEn := fld v 0 1 == 1 }
  | 0x208 => s.setMe { c with wqSel := fld v 0 10 }
  | 0x209 => s.setWqcfg s.siteNo c.wqSel v
  | 0x20B => s.setQueue s.siteNo c.wqSel { s.myQueue with frec := fld v 6 20 * 64 }
  | 0x210 => s.setMe { c with hpSel := fld v 0 4 }
  | _ => if n ∈ [0x211, 0x212, 0x213, 0x214, 0x215, 0x218, 0x219] then s.writeHeap n v else s

/-- Every cached token and replica of a cluster dropped (R345). -/
def State.dropRtc (s : State) (cl : Nat) : State :=
  let c := s.cl cl
  s.setCl cl { c with rtc := [], replicas := [] }

/-- The fabric written (R345, R381). -/
def State.writeFabReg (s : State) (n : Nat) (v : W64) : State :=
  let c := s.me
  let y := s.mySite
  match n with
  | 0x309 => if fld v 0 1 = 1 then s.dropRtc s.clNo else s
  | 0x310 => if s.expert s.clNo then s.setSite s.siteNo { y with mbWait := fld v 0 5 } else s
  | 0x330 => s.setMe { c with iczSel := fld v 0 5 }
  | 0x334 =>
    if s.expert s.clNo && s.hasPort c.iczSel then
      s.setPort c.iczSel { s.port c.iczSel with limit := max (2 ^ 20) (min (fld v 0 48) (2 ^ 47)) }
    else s
  | _ => s

/-- The letter that waits for the monitor's patching is answered: patched, or retired as REFUSED (R362). -/
def State.answerSeal (s : State) (site : Nat) (done : Bool) : State :=
  let x := s.site site
  if !x.sealPending then s
  else
    let s := s.setSite site { x with sealPending := false }
    match (s.pb x.sealPb).letters.find? fun l => l.patch == 1 with
    | none => s
    | some l =>
      if done then s.mapLetter x.sealPb l.id fun l => { l with patch := 2 }
      else (s.mapLetter x.sealPb l.id fun l => { l with patch := 2, refused := true, closed := true }).tryRetire x.sealPb l.id

/-- Key slots and seals written (R372). -/
def State.writeKeyReg (s : State) (n : Nat) (v : W64) : State :=
  let c := s.me
  let y := s.mySite
  match n with
  | 0x400 => s.setMe { c with ksSel := fld v 0 6 }
  | 0x406 => s.setMe { c with resSel := fld v 0 7 }
  | 0x410 => s.setSite s.siteNo { y with sealHdr := fld v 0 48 }
  | 0x411 => s.setSite s.siteNo { y with sealSlot := fld v 0 6 }
  | 0x412 => s.setSite s.siteNo { y with sealPar := (fld v 24 8, fld v 8 16, fld v 0 8) }
  | 0x413 => if fld v 61 1 = 1 then s.answerSeal s.siteNo false else if fld v 62 1 = 1 then s.answerSeal s.siteNo true else s
  | 0x418 => s.setMe { c with pmSel := fld v 0 12 }
  | _ => s

/-- A register of the issuing context written (R249). -/
def State.csrWrite (s : State) (n : Nat) (v : W64) : State :=
  if n < 0x080 then s.writeLow n v else if n < 0x200 then s.writeMemReg n v else if n < 0x300 then s.writeSchedReg n v
  else if n < 0x400 then s.writeFabReg n v else s.writeKeyReg n v

/-! ## csrr, csrw and eret (R249, R250) -/

/-- The checks of a system-register access: an unallocated number, then the level (R27, R249). That the number is tested at issue under
a true guard, and not with the encodings of R68, is the model's reading (DESIGN CHOICE, log 18). -/
def csrTrap (s : State) (n lvl : Nat) : Option Trap :=
  if !csrAllocated n then some { cause := 0x01, reason := 2 }
  else if s.me.priv < lvl then some { cause := 0x03, addr := BitVec.ofNat 64 n, reason := 2 }
  else none

/-- What precedes the scoreboard in a slot that names a system register (R99). -/
def csrEarly (s : State) : Instr → Option Trap
  | .csrr _ n => csrTrap s n.toNat (csrReadLevel n.toNat)
  | .csrw _ n => csrTrap s n.toNat (csrWriteLevel n.toNat)
  | _ => none

/-- R249: csrr. -/
def execCsrr (d : BitVec 6) (n : BitVec 12) (s : State) : Out :=
  match csrTrap s n.toNat (csrReadLevel n.toNat) with
  | some t => s.trapNow t
  | none => gate 0 [] [.x d.toNat] s fun s => .next ((s.fix 1 (.x d.toNat (s.csrValue n.toNat))).csrClear n.toNat)

/-- R249: csrw, at t + 1. -/
def execCsrw (d : BitVec 6) (n : BitVec 12) (s : State) : Out :=
  match csrTrap s n.toNat (csrWriteLevel n.toNat) with
  | some t => s.trapNow t
  | none => gate 0 [.x d.toNat] [] s fun s =>
    let (v, s) := s.readX d.toNat
    .next { s with issue := { s.issue with late := s.issue.late ++ [.csr n.toNat v] } }

/-- R105, R250: eret. The bundle step calls it when every other slot has taken effect. -/
def execEret (s : State) : Out := gate 1 [] [] s fun s => .next (s.setMe s.me.eret)

/-! ## Register writes and reads as steps of their own -/

/-- R106: CKPTBASE of a context written. -/
def execCkptbaseWrite (ctx : Nat) (v : W64) (s : State) : Out := .next (s.setCtx ctx ((s.ctx ctx).setCkpt v))

/-- R106: TRAPCAUSE.DISCARD of a context written: its shadow buffer is emptied. -/
def execTrapcauseDiscard (ctx : Nat) (s : State) : Out :=
  let c := s.ctx ctx
  .next (s.setCtx ctx { c with shadow := [], trapShadow := false })

/-- R31, R267: the bank bounds of a cluster written. -/
def execLsboundsWrite (cl lo hi : Nat) (s : State) : Out := .next (s.setLsBounds cl lo hi)
/-- R267, R290: LSPWR.j of a cluster written. -/
def execLspwrWrite (cl j : Nat) (v : W64) (s : State) : Out := .next (if j < 2 then s.setLsPwr cl j v else s)
/-- R287, R290: PTROOT of a cluster written. -/
def execPtrootWrite (cl : Nat) (v : W64) (s : State) : Out := .next (s.setPtroot cl v)
/-- R313: WQCFG of a queue written. -/
def execWqcfgWrite (site q : Nat) (v : W64) (s : State) : Out := .next (s.setWqcfg site q v)
/-- R315: HPCTL.RESET of a heap written. -/
def execHpctlReset (site h : Nat) (s : State) : Out :=
  let x := (s.site site).heap h
  .next (s.setHeap site h { x with ops := x.ops + 1 }.reset)
/-- R315: HPCAP of a heap written. -/
def execHpcapWrite (site h : Nat) (v : W64) (s : State) : Out :=
  let x := (s.site site).heap h
  .next (s.setHeap site h { x with ops := x.ops + 1, cap := capOf v }.reset)
/-- R307: GMKILL written with a context's number. -/
def execGmkillWrite (ctx : Nat) (s : State) : Out := .next (s.killCtx ctx)
/-- R345: RTCDROP.ALL of a cluster written. -/
def execRtcdropAll (cl : Nat) (s : State) : Out := .next (s.dropRtc cl)
/-- R290: CECNT of a cluster read, which clears it. -/
def execCecntRead (cl : Nat) (s : State) : Out := .next { s.clearCe cl with reply := .value (s.cl cl).ceCnt }
/-- R290: MERRSTAT of a cluster read, which clears it. -/
def execMerrstatRead (cl : Nat) (s : State) : Out := .next { s.clearMerr cl with reply := .value (s.cl cl).merrStat }
/-- R345: RTCSTAT of a cluster read, which clears MISSES. -/
def execRtcstatRead (cl : Nat) (s : State) : Out :=
  .next { s.clearRtc cl with reply := .value (min (s.cl cl).rtcMisses (2 ^ 32 - 1) * 2 ^ 32 + (s.cl cl).rtc.length) }
/-- R345: ICZERR of a port read, which clears it. -/
def execIczerrRead (port : Nat) (s : State) : Out :=
  .next { s.setPort port { s.port port with fail := 0 } with reply := .value (min (s.port port).fail (2 ^ 32 - 1)) }
/-- R372: PMCNT of a post box read, which clears it. -/
def execPmcntRead (pb : Nat) (s : State) : Out := .next { s.clearPm pb with reply := .value (s.pb pb).pmcnt }
/-- R362: SEALREQ.DONE of a site written. -/
def execSealreqDone (site : Nat) (s : State) : Out := .next (s.answerSeal site true)
/-- R362: SEALREQ.REFUSE of a site written. -/
def execSealreqRefuse (site : Nat) (s : State) : Out := .next (s.answerSeal site false)

end Sys2Proof.Machine
end

