-- ==== Sys2Proof/Machine/Segment.lean ====
section
/-! DEFINITION. Signed segments: the header and its checks, segenter, sealing and patching of blocks, segseal (R358 to R363). -/
namespace Sys2Proof.Machine

/-! ## Reading (R300, R359) -/

/-- Words read through a cluster's tables at SUPER, with read permission (R300). -/
def State.readWords (s : State) (cl : Nat) (a : Agent) (va : Nat) : Nat → Except Trap (List W64)
  | 0 => .ok []
  | n + 1 =>
    match s.addrCheck cl a false (BitVec.ofNat 64 va) 8 .read with
    | .error t => .error t
    | .ok pa =>
      if s.badAt pa 8 then .error { cause := 0x12, addr := BitVec.ofNat 64 va, reason := 1 }
      else match s.readWords cl a (va + 8) n with
        | .error t => .error t
        | .ok ws => .ok (BitVec.ofNat 64 (s.load pa 8) :: ws)

/-- Words as one little-endian number. -/
def wordsNat (ws : List W64) : Nat := pack 64 (ws.map (·.toNat))

/-! ## The header (R358) -/

/-- The fields of a segment header, its words, its patch entries and its tag entries. -/
structure SegHdr where
  words : List W64
  patch : List W64 := []
  tags : List W64 := []
  deriving DecidableEq, Repr

def SegHdr.w (h : SegHdr) (i : Nat) : W64 := h.words.getD i 0
def SegHdr.isSealed (h : SegHdr) : Bool := fld (h.w 1) 0 1 == 1
def SegHdr.lsBase (h : SegHdr) : Nat := fld (h.w 1) 8 6
def SegHdr.lsLim (h : SegHdr) : Nat := fld (h.w 1) 16 6
def SegHdr.segid (h : SegHdr) : Nat := fld (h.w 1) 32 32
def SegHdr.text (h : SegHdr) : Nat := (h.w 2).toNat
def SegHdr.nCode (h : SegHdr) : Nat := fld (h.w 3) 0 32
def SegHdr.nConst (h : SegHdr) : Nat := fld (h.w 3) 32 32
def SegHdr.const (h : SegHdr) : Nat := (h.w 4).toNat
def SegHdr.tagsAt (h : SegHdr) : Nat := (h.w 5).toNat
def SegHdr.entry (h : SegHdr) : Nat := (h.w 6).toNat
def SegHdr.patchAt (h : SegHdr) : Nat := (h.w 7).toNat
def SegHdr.nPatch (h : SegHdr) : Nat := (h.w 8).toNat
def SegHdr.digest (h : SegHdr) : W384 := BitVec.ofNat 384 (wordsNat ((h.words.drop 16).take 6))
def SegHdr.pub (h : SegHdr) : BitVec 768 := BitVec.ofNat 768 (wordsNat ((h.words.drop 22).take 12))
def SegHdr.sig (h : SegHdr) : BitVec 768 := BitVec.ofNat 768 (wordsNat ((h.words.drop 34).take 12))

/-- FORMAT of the header (R358, R359). -/
def SegHdr.formatOk (h : SegHdr) (va : Nat) : Bool :=
  va % 64 == 0 && h.w 0 == 0x53474831 && fld (h.w 1) 1 7 == 0 && fld (h.w 1) 14 2 == 0 && fld (h.w 1) 22 10 == 0 &&
  decide (h.lsBase ≤ 48 ∧ h.lsLim ≤ 48) && h.text % 256 == 0 && h.const % 256 == 0 && h.tagsAt % 16 == 0 && h.patchAt % 8 == 0 &&
  h.entry % 4 == 0 && decide (h.text ≤ h.entry ∧ h.entry < h.text + 256 * h.nCode) && decide (h.nPatch ≤ 65535) &&
  ((List.range 7).all fun i => h.w (9 + i) == 0) && h.w 46 == 0 && h.w 47 == 0

/-- FORMAT of a patch entry: no other bit, a parameter of 0 to 2, kind PARAM (R358). -/
def patchOk (e : W64) : Bool := fld e 48 16 == 0 && fld e 40 8 == 8 && decide (fld e 32 8 < 3)

/-- Why a segment is turned away: a read that failed, or a check with its reason and detail (R300, R359). -/
inductive SegFail where
  | read (t : Trap)
  | check (reason detail : Nat)
  deriving DecidableEq, Repr

/-- A segment that has passed its checks: the header and the constants opened. -/
structure SegOk where
  hdr : SegHdr
  consts : List Nat
  slot : Nat
  deriving DecidableEq, Repr

/-- VERSION of a block, from its two tag words. -/
def SegHdr.version (h : SegHdr) (i : Nat) : Nat := fld (h.tags.getD (2 * i + 1) 0) 0 32

/-- The slot whose code key opens the segment, where SIGNER holds (R359). -/
def State.segSlot (s : State) (cl : Nat) (team : Option Nat) (h : SegHdr) : Option Nat :=
  let x := s.site (siteOf cl)
  let who := Config.sha384 96 h.pub.toNat
  if h.isSealed then
    match team with
    | none => none
    | some k =>
      let y := x.keySlot k
      if (y.st = .bound ∨ y.st = .rotating) ∧ y.signer = who then some k else none
  else if (x.keySlot 0).st = .bound ∧ (x.keySlot 0).signer = who then some 0 else none

/-- Constant block i opened, as one number; its sealed text lies at TEXT + 256 × i (R359, log 19). -/
def State.openConst (s : State) (cl : Nat) (a : Agent) (h : SegHdr) (slot i : Nat) : Except SegFail Nat :=
  match s.readWords cl a (h.text + 256 * i) 32 with
  | .error t => .error (.read t)
  | .ok ws =>
    match Config.gcmOpen (s.codeKey (siteOf cl) slot) (blockNonce h.segid i (h.version i)) (BitVec.ofNat 2048 (wordsNat ws)) (h.tags.getD (2 * i) 0) with
    | none => .error (.check 5 i)
    | some p => .ok p.toNat

/-- The constants opened in order. -/
def State.openConsts (s : State) (cl : Nat) (a : Agent) (h : SegHdr) (slot : Nat) : List Nat → Except SegFail (List Nat)
  | [] => .ok []
  | i :: is => match s.openConst cl a h slot i with
    | .error e => .error e
    | .ok p => match s.openConsts cl a h slot is with
      | .error e => .error e
      | .ok ps => .ok (p :: ps)

/-- A page is mapped ENC under slot k (R359, R355). -/
def State.encPage (s : State) (cl : Nat) (a : Agent) (va k : Nat) : Bool :=
  match s.leafFor cl a false va with
  | .ok (_, e) => fld e 56 1 == 1 && fld e 50 6 == k
  | .error _ => false

/-- The header at va, its patch list and its tag table, with FORMAT checked (R358, R359). -/
def State.readSegHdr (s : State) (cl : Nat) (a : Agent) (va : Nat) : Except SegFail SegHdr :=
  if va % 64 ≠ 0 then .error (.check 1 0)
  else match s.readWords cl a va 48 with
    | .error t => .error (.read t)
    | .ok ws =>
      let h : SegHdr := { words := ws }
      if !h.formatOk va then .error (.check 1 0)
      else match s.readWords cl a h.patchAt h.nPatch with
        | .error t => .error (.read t)
        | .ok ps =>
          if !ps.all patchOk then .error (.check 1 0)
          else match s.readWords cl a h.tagsAt (2 * (h.nCode + h.nConst)) with
            | .error t => .error (.read t)
            | .ok ts => .ok { h with patch := ps, tags := ts }

/-- The checks of R359 after FORMAT, in order. A header the site has verified before skips SIGNATURE and DIGEST. -/
def State.segChecks (s : State) (cl : Nat) (a : Agent) (team : Option Nat) (h : SegHdr) : Except SegFail SegOk :=
  let seen := (s.site (siteOf cl)).verified.contains (Config.sha384 384 (wordsNat h.words))
  let lists := wordsNat (h.tags ++ h.patch)
  if !seen && !Config.ecdsaOk h.pub h.sig 272 (wordsNat (h.words.take 34)) then .error (.check 2 0)
  else if !seen && Config.sha384 (8 * (h.tags.length + h.patch.length)) lists != h.digest then .error (.check 3 0)
  else match s.segSlot cl team h with
    | none => .error (.check 4 0)
    | some k => match s.openConsts cl a h k (List.range' h.nCode h.nConst) with
      | .error e => .error e
      | .ok ps =>
        if h.isSealed && !((List.range h.nConst).all fun j => s.encPage cl a (h.const + 256 * j) k) then .error (.check 6 0)
        else .ok { hdr := h, consts := ps, slot := k }

/-- The whole check of the segment at va (R359). -/
def State.segCheck (s : State) (cl : Nat) (a : Agent) (team : Option Nat) (va : Nat) : Except SegFail SegOk :=
  match s.readSegHdr cl a va with
  | .error e => .error e
  | .ok h => s.segChecks cl a team h

/-- The site keeps the digest of a verified header, and of 15 before it (R359). -/
def State.noteVerified (s : State) (cl : Nat) (h : SegHdr) : State :=
  let x := s.site (siteOf cl)
  let d := Config.sha384 384 (wordsNat h.words)
  s.setSite (siteOf cl) { x with verified := (d :: x.verified.filter (· != d)).take 16 }

/-- The segment that a context runs (R359). -/
def SegOk.segment (o : SegOk) : Segment :=
  { segid := o.hdr.segid, text := BitVec.ofNat 64 o.hdr.text, nblk := o.hdr.nCode, tags := BitVec.ofNat 64 o.hdr.tagsAt, slot := o.slot }

/-! ## segenter (R359) -/

/-- SEGMENT (R359). -/
def segTrap (va : W64) (reason detail : Nat) : Trap := { cause := 0x17, addr := va, reason := reason, detail := detail }

/-- A block written at its home, the L1's lines of it written back and dropped first. -/
def State.putBlock (s : State) (cl pa v : Nat) : State :=
  let s := match s.l1Line cl pa with
    | some line => (s.l1Flush cl line).l1Flush cl (line + 1)
    | none => s
  s.perform pa 256 v

/-- The constants written in order from CONST. -/
def State.putConsts (s : State) (cl : Nat) (a : Agent) (va : Nat) : List Nat → Except Trap State
  | [] => .ok s
  | p :: ps =>
    match s.addrCheck cl a false (BitVec.ofNat 64 va) 256 .write with
    | .error t => .error t
    | .ok pa => (s.putBlock cl pa p).putConsts cl a (va + 256) ps

/-- R359: segenter, a waiting instruction whose checks end at once. -/
def execSegenter (a : BitVec 6) (s : State) : Out :=
  gate 1 [.x a.toNat] [] s fun s =>
    let (va, s) := s.readX a.toNat
    let s := s.drainMine
    let ag := s.agentOf s.cur
    match s.segCheck s.clNo ag s.myCl.ti.slot va.toNat with
    | .error (.read t) => s.trapNow t
    | .error (.check r d) => s.trapNow (segTrap va r d)
    | .ok o =>
      match s.putConsts s.clNo ag o.hdr.const o.consts with
      | .error t => s.trapNow t
      | .ok s =>
        let s := s.noteVerified s.clNo o.hdr
        let s := { s with issue := { s.issue with late := s.issue.late ++ [Late.lsBounds o.hdr.lsBase o.hdr.lsLim] } }
        let c := s.me
        .next ((s.setMe { c with seg := o.segment, fetchBuf := none }).transfer (BitVec.ofNat 64 o.hdr.entry))

/-! ## Sealing and patching blocks (R87, R300, R361, R362) -/

/-- The 32 bits at slot i of a block. -/
def blkGet (p i : Nat) : Nat := bits p (32 * i) 32

/-- Slot i of a block set to v. -/
def blkSet (p i v : Nat) : Nat := p % 2 ^ (32 * i) + v % 2 ^ 32 * 2 ^ (32 * i) + p / 2 ^ (32 * i + 32) * 2 ^ (32 * i + 32)

/-- A PARAM relocation at slot i: a movi after an ext takes the value in both, any other word becomes the value (R71,
R87; log 20). -/
def patchSlot (p i v : Nat) : Nat :=
  let w := blkGet p i
  let e := blkGet p (i - 1)
  if i ≠ 0 ∧ bits w 21 6 = 0x0E ∧ bits e 21 6 = 0x3F then
    blkSet (blkSet p i (w / 2 ^ 15 * 2 ^ 15 + v % 2 ^ 15)) (i - 1) (e / 2 ^ 21 * 2 ^ 21 + v / 2 ^ 15 % 2 ^ 21)
  else blkSet p i v

/-- The patch entries that fall within block i, applied with the values of `.ncl`, `.ngang` and `.nsite`. -/
def patchBlock (es : List W64) (i : Nat) (vals : List Nat) (p : Nat) : Nat :=
  (es.filter fun e => fld e 0 32 / 64 == i).foldl (fun p e => patchSlot p (fld e 0 32 % 64) (vals.getD (fld e 32 8) 0)) p

/-- A block sealed at home pa under a slot's code key with the version after v, and its tag entry at home ta written
(R358, R361). -/
def State.sealBlock (s : State) (cl : Nat) (segid i v slot pa ta p : Nat) : State :=
  let ver := (v + 1) % 2 ^ 32
  let (text, tag) := Config.gcmSeal (s.codeKey (siteOf cl) slot) (blockNonce segid i ver) (BitVec.ofNat 2048 p)
  let s := s.putBlock cl pa text.toNat
  let s := match s.l1Line cl ta with
    | some line => s.l1Flush cl line
    | none => s
  s.perform ta 16 (tag.toNat + ver * 2 ^ 64)

/-- A block and its tag entry found: their homes and the version (R361). -/
def State.blockHomes (s : State) (cl : Nat) (a : Agent) (acc : Acc) (text tags i : Nat) : Except Trap (Nat × Nat × Nat) :=
  match s.addrCheck cl a false (BitVec.ofNat 64 (text + 256 * i)) 256 acc with
  | .error t => .error t
  | .ok pa => match s.addrCheck cl a false (BitVec.ofNat 64 (tags + 16 * i)) 16 acc with
    | .error t => .error t
    | .ok ta =>
      if s.badAt pa 256 then .error { cause := 0x12, addr := BitVec.ofNat 64 (text + 256 * i), reason := 1 }
      else if s.badAt ta 16 then .error { cause := 0x12, addr := BitVec.ofNat 64 (tags + 16 * i), reason := 1 }
      else .ok (pa, ta, bits (s.load ta 16) 64 32)

/-- The block at home pa opened under its current entry at home ta. -/
def State.openAt (s : State) (cl segid i v slot pa ta : Nat) : Option Nat :=
  (Config.gcmOpen (s.codeKey (siteOf cl) slot) (blockNonce segid i v) (BitVec.ofNat 2048 (s.load pa 256)) (BitVec.ofNat 64 (s.load ta 8))).map (·.toNat)

/-- Words from va read as the issuing context's own loads at SUPER, each through the L1 where it caches the home (R127, R361). -/
def State.ownLoads (s : State) (va : Nat) : Nat → Except Trap (List W64 × State)
  | 0 => .ok ([], s)
  | n + 1 =>
    let a : W64 := BitVec.ofNat 64 va
    match s.addrCheck s.clNo (s.agentOf s.cur) false a 8 .read with
    | .error t => .error t
    | .ok pa => match (s.noteTlb s.clNo (s.agentOf s.cur) false va).loadVia s.clNo pa 8 with
      | (none, _) => .error { cause := 0x12, addr := a, reason := 1 }
      | (some v, s) => match s.ownLoads (va + 8) n with
        | .error t => .error t
        | .ok (ws, s) => .ok (BitVec.ofNat 64 v :: ws, s)

/-- Words written from va as the issuing context's own stores at SUPER (R127, R361). -/
def State.ownStores (s : State) (va : Nat) : List Nat → Except Trap State
  | [] => .ok s
  | v :: vs => match s.addrCheck s.clNo (s.agentOf s.cur) false (BitVec.ofNat 64 va) 8 .write with
    | .error t => .error t
    | .ok pa => ((s.noteTlb s.clNo (s.agentOf s.cur) false va).storeVia s.clNo pa 8 v).ownStores (va + 8) vs

/-- The n words of a number, the lowest first. -/
def wordsOf (v n : Nat) : List Nat := tab (fun i => bits v (64 * i) 64) n

/-- What segseal does to one block (R361): it reads the block and its tag entry, and writes both, as the context's own loads and
stores, so that what a fetch reads of them is what `dclean` and `fence` have made visible (R363). -/
def State.segsealBlock (s : State) (patch : Bool) (h : SegHdr) (slot i : Nat) : Except Trap State :=
  match s.ownLoads (h.text + 256 * i) 32 with
  | .error t => .error t
  | .ok (ws, s) => match s.ownLoads (h.tagsAt + 16 * i) 2 with
    | .error t => .error t
    | .ok (es, s) =>
      let v := bits (wordsNat es) 64 32
      let key := s.codeKey s.siteNo slot
      let plain : Option Nat :=
        if patch then
          let (nsite, ngang, ncl) := s.mySite.sealPar
          (Config.gcmOpen key (blockNonce h.segid i v) (BitVec.ofNat 2048 (wordsNat ws)) (es.getD 0 0)).map fun p =>
            patchBlock h.patch i [ncl, ngang, nsite] p.toNat
        else some (wordsNat ws)
      match plain with
      | none => .error (segTrap (BitVec.ofNat 64 s.mySite.sealHdr) 8 i)
      | some p =>
        let ver := (v + 1) % 2 ^ 32
        let (text, tag) := Config.gcmSeal key (blockNonce h.segid i ver) (BitVec.ofNat 2048 p)
        match s.ownStores (h.text + 256 * i) (wordsOf text.toNat 32) with
        | .error t => .error t
        | .ok s => s.ownStores (h.tagsAt + 16 * i) [tag.toNat, ver]

/-- The blocks from i on, n of them: the state, how many are left undone, and the trap that stopped them. -/
def State.segsealRun (s : State) (patch : Bool) (h : SegHdr) (slot i : Nat) : Nat → State × Nat × Trap
  | 0 => (s, 0, { cause := 0 })
  | n + 1 => match s.segsealBlock patch h slot i with
    | .error t => (s, n + 1, t)
    | .ok s => s.segsealRun patch h slot (i + 1) n

/-- The header at SEALHDR and, in mode 1, its patch list, read as the context's own loads (R361). -/
def State.sealHeader (s : State) (patch : Bool) : Except Trap (SegHdr × State) :=
  match s.ownLoads s.mySite.sealHdr 48 with
  | .error t => .error t
  | .ok (ws, s) =>
    let h : SegHdr := { words := ws }
    match (if patch then s.ownLoads h.patchAt (min h.nPatch 65535) else .ok ([], s)) with
    | .error t => .error t
    | .ok (ps, s) => .ok ({ h with patch := ps }, s)

/-- The issuing context's accesses performed before segseal's own, banks included: it keeps its program order (R255, R361). -/
def State.drainEvery (s : State) : State := s.drainOwn s.cur fun _ => true

/-- segseal in either mode (R361): RANGE, then the blocks of [A, A + B[47:0]) in order. A block that fails traps, and the
blocks before it stay resealed. It is held in BLOCK while an earlier bundle's access waits at a pigeonhole bank (R255). -/
def segseal (patch : Bool) (a b : BitVec 6) (s : State) : Out :=
  gate 2 [.x a.toNat, .x b.toNat] [] s fun s =>
    let (x, s) := s.readX a.toNat
    let (y, s) := s.readX b.toNat
    let len := fld y 0 48
    if s.pigPending s.cur then s.hold .block
    else match s.drainEvery.sealHeader patch with
    | .error t => s.trapNow t
    | .ok (h, s) =>
      let i := (x.toNat - h.text) / 256
      if x.toNat % 256 ≠ 0 ∨ len % 256 ≠ 0 ∨ x.toNat < h.text ∨ h.text + 256 * h.nCode < x.toNat + len ∨ h.text % 256 ≠ 0 then
        s.trapNow (segTrap (BitVec.ofNat 64 s.mySite.sealHdr) 9 0)
      else
        match s.segsealRun patch h s.mySite.sealSlot i (len / 256) with
        | (s, 0, _) => .next s
        | (s', n, t) => ({ s' with issue := { s'.issue with resealed := some (patch, i, len / 256 - n) } } : State).trapNow t

/-- The blocks that a segseal resealed before the one that trapped, done again on the state before the bundle, whose other
effects are void (R100, R361). -/
def State.reseal (s : State) (i : Issue) : State :=
  match i.resealed with
  | none => s
  | some (patch, k, n) => match s.drainEvery.sealHeader patch with
    | .error _ => s
    | .ok (h, s) => (s.segsealRun patch h s.mySite.sealSlot k n).1

/-- R361: segseal in mode 0. -/
def execSegsealSeal (a b : BitVec 6) (s : State) : Out := segseal false a b s
/-- R361: segseal in mode 1. -/
def execSegsealPatch (a b : BitVec 6) (s : State) : Out := segseal true a b s

end Sys2Proof.Machine
end

