-- ==== Sys2Proof/Machine/KeySlots.lean ====
section
/-! DEFINITION. Key slots: kslot, key rotation, and the scrub engine (R346 to R357, R364). -/
namespace Sys2Proof.Machine

/-! ## Operand blocks (R348) -/

/-- n words of the issuing cluster's local store. -/
def State.lsWords (s : State) (a n : Nat) : List W64 := tab (fun i => BitVec.ofNat 64 (s.load (lsAt s.clNo (a + 8 * i)) 8)) n

/-- Words written to the local store. -/
def State.putLsWords (s : State) (a : Nat) (ws : List W64) : State := s.perform (lsAt s.clNo a) (8 * ws.length) (wordsNat ws)

/-- The checks of a block's address: ALIGN to 64, then LSBOUND for all n bytes of it (R348, R364). -/
def State.blockTrap (s : State) (a : W64) (n : Nat) : Option Trap :=
  if a.toNat % 64 ≠ 0 then some (alignTrap a 64) else if s.myCl.lsOk a.toNat n then none else some (lsboundTrap a)

/-- The key slots of the issuing site. -/
def State.slotOf (s : State) (k : Nat) : KeySlot := s.mySite.keySlot k
def State.setSlot (s : State) (site k : Nat) (y : KeySlot) : State :=
  let x := s.site site
  s.setSite site { x with slots := mset x.slots k y }

/-- A rotation of the slot, or a scrub for it, runs (R348). -/
def State.slotBusy (s : State) (k : Nat) : Bool :=
  let x := s.mySite
  (x.keySlot k).st == .rotating || (x.scrub.active && x.scrub.slot == k)

/-- A kslot operation: its checks, its operand block of n bytes, of which rd are read, and the status of k, given OP and the slot,
which answers a new state where the status is OK (R348). -/
def kslotOp (n rd : Nat) (d a b : BitVec 6) (s : State) (k : State → Nat → Nat → W64 → Nat × State) : Out :=
  gate 2 [.x a.toNat, .x b.toNat] [.x d.toNat] s fun s =>
    let (x, s) := s.readX a.toNat
    let (y, s) := s.readX b.toNat
    let s := s.drainMine
    match s.blockTrap y n with
    | some t => s.trapNow t
    | none =>
      let pa := lsAt s.clNo y.toNat
      let s := if rd = 0 then s else s.readAt s.clNo pa rd
      if rd ≠ 0 ∧ s.badAt pa rd then .next ((s.logBad s.clNo pa rd 1).blockErr y)
      else
        let (st, s') := k s (fld x 0 3) (fld x 8 6) y
        .next ((if st = 0 then s' else s).status d st)

/-! ## Query and zeroise (R352) -/

/-- The block of a query (R352). -/
def State.queryBlock (s : State) (k : Nat) : List W64 :=
  let y := s.slotOf k
  let words (v : W384) : List W64 := tab (fun i => BitVec.ofNat 64 (bits v.toNat (64 * i) 64)) 6
  if k = 0 then [BitVec.ofNat 64 y.st.code, 0] ++ words y.signer ++ words 0
  else [BitVec.ofNat 64 (y.st.code + y.session * 16 + y.pbFirst * 256 + y.pbCount * 2 ^ 20), BitVec.ofNat 64 (s.mySite.frames k)] ++
    words y.signer ++ words y.bd

/-- R352: kslot, query; and BADARG for OP 5 to 7. -/
def execKslotQuery (d a b : BitVec 6) (s : State) : Out :=
  kslotOp 112 0 d a b s fun s op k y =>
    if 5 ≤ op then (5, s)
    else (0, s.putLsWords y.toNat (s.queryBlock k))

/-- Rotations of a slot stop where they stand (R352). -/
def State.stopRotation (s : State) (site k : Nat) : State :=
  { s with clusters := mmap (fun n c => if siteOf n = site ∧ c.kbSlot = k then { c with kbActive := false } else c) s.clusters }

/-- A slot's keys erased, and its state ZEROISED unless it was EMPTY (R352, R365). -/
def State.zeroiseSlot (s : State) (site k : Nat) : State :=
  let y := (s.site site).keySlot k
  if y.st = .empty then s
  else (s.setSlot site k { y with st := .zeroised, dataKey := 0, codeKey := 0, newKey := 0 }).stopRotation site k

/-- R348, R352: kslot, zeroise, which does not read B. A scrub of the slot that runs makes it BUSY; a rotation it stops. -/
def execKslotZeroise (d a _ : BitVec 6) (s : State) : Out :=
  gate 2 [.x a.toNat] [.x d.toNat] s fun s =>
    let (x, s) := s.readX a.toNat
    let s := s.drainMine
    let k := fld x 8 6
    .next (if k = 0 then s.status d 1
      else if s.mySite.scrub.active && s.mySite.scrub.slot == k then s.status d 4
      else (s.zeroiseSlot s.siteNo k).status d 0)

/-! ## Install and rotate (R349, R357) -/

/-- The keys of an install block opened: the status, and the 96 bytes (R349). -/
def State.unwrap (s : State) (k : Nat) (ws : List W64) : Nat × BitVec 768 :=
  let w (i : Nat) : W64 := ws.getD i 0
  let sess := fld (w 0) 0 4
  if fld (w 0) 4 60 ≠ 0 ∨ fld (w 2) 32 32 ≠ 0 ∨ w 3 ≠ 0 then (5, 0)
  else if (s.session sess).st ≠ 2 then (3, 0)
  else
    let aad := pack 64 ((ws.take 10).map (·.toNat) ++ [s.siteNo, k])
    match Config.gcmUnwrap (Config.hkdf (s.session sess).ems 0 0 0) (BitVec.ofNat 96 ((w 1).toNat + fld (w 2) 0 32 * 2 ^ 64)) aad
        (BitVec.ofNat 768 (wordsNat ((ws.drop 10).take 12))) (BitVec.ofNat 128 (wordsNat ((ws.drop 22).take 2))) with
    | none => (2, 0)
    | some p => (0, p)

/-- SIGNER of an install block. -/
def blockSigner (ws : List W64) : W384 := BitVec.ofNat 384 (wordsNat ((ws.drop 4).take 6))

/-- R349: kslot, install. A site whose monitor cluster has failed has no slot to install in (R380). -/
def execKslotInstall (d a b : BitVec 6) (s : State) : Out :=
  kslotOp 192 192 d a b s fun s _ k y =>
    let ws := s.lsWords y.toNat 24
    if k = 0 then (1, s)
    else if s.slotBusy k then (4, s)
    else if (s.slotOf k).st ≠ .empty ∨ !s.mySite.sealOk then (1, s)
    else match s.unwrap k ws with
      | (0, p) => (0, s.setSlot s.siteNo k {
          st := .loaded, dataKey := p.setWidth 512, codeKey := (p >>> 512).setWidth 256, signer := blockSigner ws })
      | (st, _) => (st, s)

/-- A slice holds a frame tagged to slot k. -/
def State.sliceHas (s : State) (cl k : Nat) : Bool :=
  (s.site (siteOf cl)).tags.any fun e => e.2 == k + 1 && spaceOf (e.1 * 2 ^ 15) == 1 && unitOf (e.1 * 2 ^ 15) == cl

/-- The clusters of a site whose slices hold frames of slot k. -/
def State.slicesOf (s : State) (site k : Nat) : List Nat :=
  ((List.range 84).map fun i => site * 128 + i).filter fun cl => s.sliceHas cl k

/-- R349, R357: kslot, rotate. A slice on which another slot's rotation runs makes it BUSY. -/
def execKslotRotate (d a b : BitVec 6) (s : State) : Out :=
  kslotOp 192 192 d a b s fun s _ k y =>
    let ws := s.lsWords y.toNat 24
    let slot := s.slotOf k
    let cls := s.slicesOf s.siteNo k
    if k = 0 then (1, s)
    else if s.slotBusy k || cls.any fun cl => (s.cl cl).kbActive then (4, s)
    else if slot.st ≠ .bound then (1, s)
    else if blockSigner ws ≠ slot.signer then (5, s)
    else match s.unwrap k ws with
      | (0, p) =>
        let s := s.setSlot s.siteNo k { slot with st := .rotating, newKey := p.setWidth 512 }
        (0, cls.foldl (fun s cl =>
          let c := s.cl cl
          s.setCl cl { c with kbActive := true, kbSlot := k, kbPos := 0 }) s)
      | (st, _) => (st, s)

/-- Granules of a slice. -/
def sliceGranules : Nat := 25165824

/-- The engine is past the granule at kbPos. -/
def State.passGranule (s : State) (cl : Nat) : State :=
  let c := s.cl cl
  s.setCl cl { c with kbPos := c.kbPos + 1, kbActive := decide (c.kbPos + 1 < sliceGranules) }

/-- The granule at kbPos is one of the slot's, and holds ciphertext (R356, R357; log 42). -/
def State.rotates (s : State) (cl : Nat) : Bool :=
  let c := s.cl cl
  let pa := sliceAt cl (256 * c.kbPos)
  (s.slicePa cl (256 * c.kbPos)).isSome && mget 0 (s.site (siteOf cl)).tags (frameOf pa) == c.kbSlot + 1 &&
    c.encFrames.contains (256 * c.kbPos / 2 ^ 15)

/-- R357: the rotation engine of a slice passes its next granule. One of the slot's is decrypted under the old key and encrypted under
the new, in the one step that moves POS; a granule of another slot is skipped. No value changes. -/
def execKeyRotationGranule (cl : Nat) (s : State) : Out :=
  let c := s.cl cl
  if !c.kbActive then .next s
  else if !s.rotates cl then .next (s.passGranule cl)
  else
    let us := tab (fun i => keyed (sliceAt cl (256 * c.kbPos + 64 * i)) (c.kbSlot + 1)) 4
    .next ((us.map fun a => (a, s.unitText a)).foldl (fun s e => s.unitPut e.1 (2 ^ 64 - 1) e.2) ((s.activate cl (256 * c.kbPos)).passGranule cl))

/-- R357: when every slice has finished, the old key is erased and the slot returns to BOUND. -/
def execKeyRotationComplete (site : Nat) (s : State) : Out :=
  let x := s.site site
  match x.slots.find? fun e => e.2.st == .rotating && !s.clusters.any fun c => siteOf c.1 == site && c.2.kbActive && c.2.kbSlot == e.1 with
  | some (k, y) => .next (s.setSlot site k { y with st := .bound, dataKey := y.newKey, newKey := 0 })
  | none => .next s

/-! ## Range words (R350) -/

def rgKind (w : W64) : Nat := fld w 62 2
def rgCl (w : W64) : Nat := fld w 55 7
def rgCount (w : W64) : Nat := fld w 47 8 + 1
def rgFirst (w : W64) : Nat := fld w 0 47

/-- The home of unit i of a range word on a site: a local-store bank, a slice frame, a pigeonhole frame; none where it
does not exist. -/
def State.rgUnit (s : State) (site : Nat) (w : W64) (i : Nat) : Option Nat :=
  let cl := site * 128 + rgCl w
  match rgKind w with
  | 1 => if rgCl w < 84 ∧ rgFirst w < 64 ∧ rgFirst w + i < 48 then some (lsAt cl ((rgFirst w + i) * 131072)) else none
  | 2 => if rgCl w < 84 ∧ rgFirst w % 2 ^ 15 = 0 ∧ !s.isMon cl then s.slicePa cl (rgFirst w + i * 2 ^ 15) else none
  | 3 => if rgFirst w % 2 ^ 15 = 0 ∧ rgFirst w + i * 2 ^ 15 < monBase then some (pigAt site (rgFirst w + i * 2 ^ 15)) else none
  | _ => none

/-- Every unit of a range word. -/
def State.rgUnits (s : State) (site : Nat) (w : W64) : List (Option Nat) := tab (s.rgUnit site w) (rgCount w)

/-! ## Bind (R351) -/

/-- No instance, running or saved out, holds a cluster. -/
def State.clFree (s : State) (cl : Nat) : Bool := !s.teams.any fun t => t.2.clusters.contains cl

/-- A range word that bind accepts: none, or frames that exist and are untagged, of a free cluster that is not locked. -/
def State.bindRange (s : State) (w : W64) : Bool :=
  let site := s.siteNo
  let untagged (u : Option Nat) : Bool := match u with
    | some pa => mget 0 s.mySite.tags (frameOf pa) == 0
    | none => false
  match rgKind w with
  | 0 => true
  | 2 => (s.rgUnits site w).all untagged && s.clFree (site * 128 + rgCl w) && mget 0 s.mySite.resLock (rgCl w) == 0
  | 3 => (s.rgUnits site w).all untagged
  | _ => false

/-- The binding digest (R351). -/
def State.bindingDigest (s : State) (k first count sess : Nat) : W384 :=
  Config.sha384 136 (s.panelId + s.siteNo * 2 ^ 64 + k * 2 ^ 128 + (s.slotOf k).signer.toNat * 2 ^ 192 + first * 2 ^ 576 + count * 2 ^ 640 +
    (s.session sess).th.toNat * 2 ^ 704)

/-- The effects of a bind (R351). -/
def State.bindSlot (s : State) (k : Nat) (y : W64) (first count sess : Nat) (rs : List W64) : State :=
  let site := s.siteNo
  let x := s.mySite
  let fs := (rs.filter fun w => rgKind w == 2 || rgKind w == 3).flatMap fun w => (s.rgUnits site w).filterMap id
  let cls := (rs.filter fun w => rgKind w == 2).map rgCl
  let bd := s.bindingDigest k first count sess
  let s := s.setSite site { x with
    tags := fs.foldl (fun m pa => mset m (frameOf pa) (k + 1)) x.tags
    resLock := cls.foldl (fun m c => mset m c (k + 1)) x.resLock }
  let s := (List.range count).foldl (fun s i =>
    let b := s.pb (first + i)
    s.setPb (first + i) { b with sealedTo := some (site, k), session := sess, last := 0, halt := false, haltWhy := 0 }) s
  let s := s.setSlot site k { s.slotOf k with st := .bound, bd := bd, session := sess, pbFirst := first, pbCount := count }
  s.putLsWords (y.toNat + 0x38) (tab (fun i => BitVec.ofNat 64 (bits bd.toNat (64 * i) 64)) 6)

/-- R351: kslot, bind. -/
def execKslotBind (d a b : BitVec 6) (s : State) : Out :=
  kslotOp 112 112 d a b s fun s _ k y =>
    let ws := s.lsWords y.toNat 14
    let w0 := ws.getD 0 0
    let first := fld w0 0 12
    let count := fld w0 12 7
    let sess := fld w0 20 4
    let rs := (ws.drop 1).take 6
    let boxOk (i : Nat) : Bool := decide (first + i < 4096) && (s.pb (first + i)).letters.isEmpty && (s.pb (first + i)).sealedTo.isNone
    if k = 0 then (1, s)
    else if s.slotBusy k then (4, s)
    else if (s.slotOf k).st ≠ .loaded then (1, s)
    else if fld w0 19 1 ≠ 0 ∨ fld w0 24 40 ≠ 0 ∨ count = 0 ∨ 64 < count ∨ ws.getD 13 0 ≠ 0 ∨ !rs.all s.bindRange ∨ !(List.range count).all boxOk then (5, s)
    else if (s.session sess).st ≠ 2 then (3, s)
    else (0, s.bindSlot k y first count sess rs)

/-! ## The scrub engine (R364) -/

/-- A range word that a scrub of slot k accepts. -/
def State.scrubRange (s : State) (k : Nat) (w : W64) : Bool :=
  let locked := mget 0 s.mySite.resLock (rgCl w) == k + 1
  rgKind w != 0 && (s.rgUnits s.siteNo w).all fun u => match u with
    | none => false
    | some pa => (locked && rgKind w != 3) || (rgKind w != 1 && mget 0 s.mySite.tags (frameOf pa) == k + 1)

/-- R364: scrub. -/
def execScrub (d a : BitVec 6) (s : State) : Out :=
  gate 2 [.x a.toNat] [.x d.toNat] s fun s =>
    let (x, s) := s.readX a.toNat
    let s := s.drainMine
    match s.blockTrap x 8 with
    | some t => s.trapNow t
    | none =>
      let h := (s.lsWords x.toNat 1).getD 0 0
      let k := fld h 0 6
      let n := fld h 8 8
      match s.blockTrap x (8 * (n + 1)) with
      | some t => s.trapNow t
      | none =>
        let s := s.readAt s.clNo (lsAt s.clNo x.toNat) (8 * (n + 1))
        if s.badAt (lsAt s.clNo x.toNat) (8 * (n + 1)) then .next ((s.logBad s.clNo (lsAt s.clNo x.toNat) (8 * (n + 1)) 1).blockErr x)
        else
          let ws := (s.lsWords x.toNat (n + 1)).drop 1
          if s.mySite.scrub.active then .next (s.status d 4)
          else if (s.slotOf k).st ≠ .zeroised then .next (s.status d 1)
          else if n = 0 ∨ !ws.all (s.scrubRange k) then .next (s.status d 5)
          else
            let y := s.mySite
            .next ((s.setSite s.siteNo { y with scrub := { active := true, slot := k, entry := 1, n := n, words := ws } }).status d 0)

/-- One unit zeroed at its home with fresh code, and a frame's tag freed (R284, R364). -/
def State.scrubHome (s : State) (site pa : Nat) (bank : Bool) : State :=
  let s := (s.wake pa (if bank then 131072 else 32768)).zeroMem pa (if bank then 131072 else 32768)
  let x := s.site site
  if bank then s else s.setSite site { x with tags := mset x.tags (frameOf pa) 0 }

/-- The scrub engine of a site runs: it has a list, and the site is not in a restart (R364, R365). -/
def State.scrubs (s : State) (site : Nat) : Bool := (s.site site).scrub.active && (s.site site).stage.isNone && s.stage != 4

/-- R364: the engine zeroes the next unit; where the entry has none left it goes on to the next entry. -/
def execScrubUnit (site : Nat) (s : State) : Out :=
  let c := (s.site site).scrub
  let w := c.words.getD (c.entry - 1) 0
  let put (s : State) (c : Scrub) : State := s.setSite site { s.site site with scrub := c }
  if !s.scrubs site then .next s
  else if rgCount w ≤ c.unit then .next (if c.entry < c.n then put s { c with entry := c.entry + 1, unit := 0 } else s)
  else
    let s := match s.rgUnit site w c.unit with
      | some pa => s.scrubHome site pa (rgKind w == 1)
      | none => s
    .next (put s { c with unit := c.unit + 1 })

/-- A slot with no tagged frame left becomes EMPTY: its clusters are unlocked, its post boxes emptied and no longer
sealed (R364). -/
def State.emptySlot (s : State) (site k : Nat) : State :=
  let x := s.site site
  let s := s.setSite site { x with resLock := mmap (fun _ v => if v = k + 1 then 0 else v) x.resLock, slots := mset x.slots k {} }
  { s with pbs := mmap (fun _ b => if b.sealedTo = some (site, k) then
      { b with sealedTo := none, letters := [], halt := false, haltWhy := 0, session := 0, last := 0, held := [] } else b) s.pbs }

/-- R364, R365: the end of the list: DONE, or INCOMPLETE; not while the site restarts. -/
def execScrubComplete (site : Nat) (s : State) : Out :=
  let x := s.site site
  let c := x.scrub
  if !s.scrubs site ∨ c.entry ≠ c.n ∨ c.unit < rgCount (c.words.getD (c.n - 1) 0) then .next s
  else
    let clean := x.frames c.slot == 0
    let s := s.setSite site { x with scrub := { c with active := false, result := if clean then 1 else 2 } }
    .next (if clean then s.emptySlot site c.slot else s)

end Sys2Proof.Machine
end

