-- ==== Sys2Proof/Machine/Dispatcher.lean ====
section
/-! DEFINITION. The panel dispatcher: readiness, arbitration, placement, admission and pre-emption requests (R295 to R304, R344, R353,
R362). -/
namespace Sys2Proof.Machine

/-! ## Placement (R301, R302, R353) -/

/-- Things sorted by a key, largest first; equal keys keep their order. -/
def insDown {α : Type} (key : α → Nat) (x : α) : List α → List α
  | [] => [x]
  | y :: ys => if key x ≤ key y then y :: insDown key x ys else x :: y :: ys
def sortDown {α : Type} (key : α → Nat) (l : List α) : List α := l.foldl (fun r x => insDown key x r) []

/-- A site that gives clusters to letters: in service, supplied, not restarting (R376, R384). -/
def Site.open_ (x : Site) : Bool := x.present && !x.off && x.stage.isNone

/-- A cluster held by an instance that is not saved out (R305). -/
def State.clHeld (s : State) (cl : Nat) : Bool := s.teams.any fun t => t.2.phase != .saved && t.2.clusters.contains cl

/-- A cluster that a letter may take: enabled, not the monitor's, not held, and locked to the letter's own slot or to none (R302,
R353). -/
def State.clMay (s : State) (slot : Option (Nat × Nat)) (site ix : Nat) : Bool :=
  let x := s.site site
  bit x.clen.toNat ix && ix != x.moncl && !s.clHeld (site * 128 + ix) &&
  (match slot with
    | none => mget 0 x.resLock ix == 0
    | some (sealed, k) => site == sealed && mget 0 x.resLock ix == k + 1)

/-- The clusters of a site that a letter may take, lowest first, those already taken for it left out. -/
def State.freeAt (s : State) (slot : Option (Nat × Nat)) (taken : List Nat) (site : Nat) : List Nat :=
  if (s.site site).open_ then
    ((List.range 84).filter fun ix => s.clMay slot site ix && !taken.contains (site * 128 + ix)).map fun ix => site * 128 + ix
  else []

/-- Pages of gang g's data at a site, by the placement map (R301). -/
def State.mapCount (s : State) (pmap g site : Nat) : Nat :=
  if pmap = 0 then 0 else s.load (pigAt 0 ((s.site 0).pmBase + pmap * 131072 + g * 128 + 2 * site)) 2

/-- Gang g's site order (R301). -/
def State.siteOrder (s : State) (pmap : Nat) (slot : Option (Nat × Nat)) (taken : List Nat) (g : Nat) : List Nat :=
  let n (p : Nat) : Nat := s.mapCount pmap g p
  let full := (List.range 64).filter fun p => n p != 0
  let rest := (List.range 64).filter fun p => n p == 0
  sortDown n full ++ sortDown (fun p => (s.freeAt slot taken p).length) rest

/-- The clusters of gangs g and after, n of them, of ncl clusters each, in order of rank (R302). -/
def State.placeGangs (s : State) (pmap ncl : Nat) (slot : Option (Nat × Nat)) (taken : List Nat) (g : Nat) : Nat → Option (List Nat)
  | 0 => some []
  | n + 1 =>
    match (s.siteOrder pmap slot taken g).find? fun p => decide (ncl ≤ (s.freeAt slot taken p).length) with
    | none => none
    | some p =>
      let mine := (s.freeAt slot taken p).take ncl
      (s.placeGangs pmap ncl slot (taken ++ mine) (g + 1) n).map fun r => mine ++ r

/-- The slot a post box is sealed to takes letters while BOUND or ROTATING (R353). -/
def State.boxOpen (s : State) (p : Nat) : Bool := match (s.pb p).sealedTo with
  | none => true
  | some (site, k) => let st := ((s.site site).keySlot k).st; st == .bound || st == .rotating

/-- The placement of one instance of a letter, none where it does not fit. -/
def State.placement (s : State) (p : Nat) (l : Letter) : Option (List Nat) :=
  if s.boxOpen p then s.placeGangs l.pmap l.ncl (s.pb p).sealedTo [] 0 l.gangs else none

/-! ## The letter's segment (R300, R359, R362) -/

/-- The root that entry ASPACE of a site's address-space table names (R302, R318). -/
def State.rootOf (s : State) (site aspace : Nat) : W64 := BitVec.ofNat 64 (s.load (pigAt site ((s.site site).asBase + 8 * aspace)) 8)

/-- The state in which a cluster's tables are those of a letter, nothing cached: what its segment is read through (R300). -/
def State.asLetter (s : State) (cl : Nat) (l : Letter) : State :=
  let c := s.cl cl
  let v := s.rootOf (siteOf cl) l.aspace
  s.setCl cl { c with ptroot := BitVec.ofNat 64 (fld v 14 34 * 2 ^ 14 + fld v 0 1), tlb := [], engTlb := [] }

/-- The uncorrectable error by which a read of the letter's segment failed, logged for the cluster (R284). -/
def State.logLetter (s : State) (cl : Nat) (l : Letter) (slot : Option Nat) (t : Trap) : State :=
  let c := s.cl cl
  let s := (s.asLetter cl l).logFor cl { slot := slot } t
  let d := s.cl cl
  s.setCl cl { c with merrAddr := d.merrAddr, merrStat := d.merrStat }

/-- The letter's segment checked as on a cluster of its placement. -/
def State.letterSegment (s : State) (cl : Nat) (slot : Option Nat) (l : Letter) : Except SegFail SegOk :=
  (s.asLetter cl l).segCheck cl { slot := slot } slot l.segVa.toNat

/-- The number of sites of a placement, `.nsite` (R85). -/
def sitesOf (cls : List Nat) : Nat := (cls.map siteOf).dedup.length

/-- The letter's shape lies in every range its segment declares (R300). -/
def paramsOk (h : SegHdr) (l : Letter) (nsite : Nat) : Bool :=
  Config.paramOk h.digest 0 l.ncl && Config.paramOk h.digest 1 l.gangs && Config.paramOk h.digest 2 nsite

/-- What the first placement of a letter finds: its header cannot be read, or is turned away; the monitor is to be asked, or the answer
waited for; a header that has passed; or that an earlier placement has found all this (R300). -/
inductive Finding where
  | bad (t : Trap) | refused | ask (o : SegOk) | wait | go (o : SegOk) | again (g : Segment × Nat × Nat)
  deriving DecidableEq, Repr

/-- The segment read and checked at the letter's first placement, its ranges, and for a sealed post box the monitor's patching (R300,
R362). -/
def State.finding (s : State) (p : Nat) (l : Letter) (cls : List Nat) : Finding :=
  let slot := (s.pb p).sealedTo
  match l.seg with
  | some g => if slot.isNone ∨ l.patch = 2 then .again g else .wait
  | none => match s.letterSegment (cls.headD 0) (slot.map (·.2)) l with
    | .error (.read t) => .bad t
    | .error (.check _ _) => .refused
    | .ok o =>
      if !paramsOk o.hdr l (sitesOf cls) then .refused
      else match slot with
        | none => .go o
        | some (site, _) => if (s.site site).sealPending then .wait else .ask o

/-- What a letter keeps of its checked segment. -/
def SegOk.kept (o : SegOk) : Segment × Nat × Nat := (o.segment, o.hdr.lsBase, o.hdr.lsLim)

/-- The parameter values given to the monitor of the segment's site (R362). -/
def State.askSeal (s : State) (p : Nat) (l : Letter) (nsite : Nat) (o : SegOk) : State :=
  match (s.pb p).sealedTo with
  | none => s
  | some (site, _) =>
    let x := s.site site
    (s.setSite site { x with sealPar := (nsite, l.gangs, l.ncl), sealPending := true, sealPb := p }).mapLetter p l.id fun l =>
      { l with patch := 1, nsite := some nsite, seg := some o.kept }

/-! ## Admission (R302) -/

/-- The lowest number from n on that is not used. -/
def lowestFree (used : List Nat) (n : Nat) : Nat → Nat
  | 0 => n
  | k + 1 => if used.contains n then lowestFree used (n + 1) k else n

/-- The team number that the next instance bears. -/
def State.newTeam (s : State) : Nat := lowestFree (s.teams.map (·.1)) 1 s.teams.length

/-- An instance admitted: its clusters are held for it, and the letter counts it. -/
def State.admitLetter (s : State) (p : Nat) (l : Letter) (cls : List Nat) (g : Segment × Nat × Nat) : State :=
  let t : Team := {
    pb := p, letter := l.id, words := l.words, clusters := cls, slot := (s.pb p).sealedTo.map (·.2), seg := g.1
    lsBase := g.2.1, lsLim := g.2.2, order := s.nextAdmit, cls := l.cls, joinAt := (s.cl (cls.headD 0)).cycle }
  let s := s.mapLetter p l.id fun l => { l with
    admitted := l.admitted + 1, passed := 0, taker := l.taker.or cls.head?, nsite := l.nsite.or (some (sitesOf cls)), seg := some g }
  { s with teams := mset s.teams s.newTeam t, nextAdmit := s.nextAdmit + 1, reserving := s.reserving.filter fun r => r.2 != l.id }

/-- How a letter's turn ends: passed over, admitted, or dealt with otherwise. -/
inductive Turn where
  | passed | admitted | other
  deriving DecidableEq, Repr

/-- The letter retires without a further instance (R300). -/
def State.turnAway (s : State) (p : Nat) (l : Letter) (bad : Bool) : State :=
  (s.mapLetter p l.id fun l => { l with closed := true, bad := l.bad || bad, refused := l.refused || !bad }).tryRetire p l.id

/-- A letter's turn at a decision. -/
def State.turn (s : State) (p : Nat) (l : Letter) : State × Turn :=
  match s.placement p l with
  | none => (s, .passed)
  | some cls => match s.finding p l cls with
    | .bad t => ((s.logLetter (cls.headD 0) l ((s.pb p).sealedTo.map (·.2)) t).turnAway p l true, .other)
    | .refused => (s.turnAway p l false, .other)
    | .ask o => ((s.noteVerified (cls.headD 0) o.hdr).askSeal p l (sitesOf cls) o, .other)
    | .wait => (s, .passed)
    | .go o => ((s.noteVerified (cls.headD 0) o.hdr).admitLetter p l cls o.kept, .admitted)
    | .again g => (s.admitLetter p l cls g, .admitted)

/-! ## Arbitration (R295 to R297) -/

/-- The ready letter of a post box: a DEPENDENT launch once the launch before it has completed (R295). -/
def State.readyLetter (s : State) (p : Nat) : Option Letter :=
  match s.activeHead p with
  | none => none
  | some l =>
    let past := l.prev.all fun k => (s.letter p k).isNone
    if l.launch && (!l.dependent || past) then some l else none

/-- The ready letters, with their post boxes in order of number. -/
def State.readyLetters (s : State) : List (Nat × Letter) := s.pbs.filterMap fun e => (s.readyLetter e.1).map fun l => (e.1, l)

/-- The post boxes of a class in the order they are served: those after the last served first (R296). -/
def serveOrder (last : Option Nat) (l : List (Nat × Letter)) : List (Nat × Letter) := match last with
  | none => l
  | some p => (l.filter fun e => decide (p < e.1)) ++ l.filter fun e => decide (e.1 ≤ p)

/-- The first of a list of letters whose turn does not pass it over; with credit, one credit is consumed and its post box is
the last served in its class. -/
def State.takeTurn (s : State) : List (Nat × Letter) → State × Turn
  | [] => (s, .passed)
  | (p, l) :: r => match s.turn p l with
    | (_, .passed) => s.takeTurn r
    | (s', .admitted) =>
      let b := s'.pb p
      ({ s'.setPb p { b with credit := b.credit - 1 } with served := mset s'.served l.cls (p + 1) }, .admitted)
    | r => r

/-- Every post box of a class has its credit refilled to its weight (R296). -/
def State.refill (s : State) (c : Nat) : State :=
  { s with pbs := mmap (fun _ b => if (b.head.map (·.cls)).getD b.cls = c then { b with credit := b.weight + 1 } else b) s.pbs }

/-- One class served by weighted round robin; boxes whose letter does not fit hold no other back. Where no ready box has credit left the
class is refilled, whether or not a letter then fits (R296). -/
def State.serveClass (s : State) (c : Nat) : State × Turn :=
  let last := match mget 0 s.served c with
    | 0 => none
    | p + 1 => some p
  let all := serveOrder last (s.readyLetters.filter fun e => e.2.cls == c)
  match s.takeTurn (all.filter fun e => (s.pb e.1).credit != 0) with
  | (s, .passed) =>
    if all.isEmpty then (s, .passed)
    else match (s.refill c).takeTurn all with
      | (u, .passed) => (if all.any fun e => (s.pb e.1).credit != 0 then s else u, .passed)
      | r => r
  | r => r

/-- The classes served in order (R296). -/
def State.serveFrom (s : State) (c : Nat) : Nat → State × Turn
  | 0 => (s, .passed)
  | n + 1 => match s.serveClass c with
    | (s, .passed) => s.serveFrom (c + 1) n
    | r => r

/-- After an admission the ready letters that it left out count it; a letter that was not ready starts again (R297). -/
def State.countPassed (s : State) (ready : List (Nat × Letter)) : State :=
  let f (p : Nat) (l : Letter) : Letter := match ready.find? fun e => e.1 == p && e.2.id == l.id with
    | some e => if l.admitted = e.2.admitted then { l with passed := l.passed + 1 } else l
    | none => { l with passed := 0 }
  { s with pbs := mmap (fun p b => { b with letters := b.letters.map (f p) }) s.pbs }

/-! ## Pre-emption requests (R304) -/

/-- A running team that may be pre-empted: a launch with PREEMPTIBLE, no save of it having failed. -/
def Team.mayStop (t : Team) : Bool :=
  t.phase == .running && !t.noSave && fld (t.words.getD 0 0) 5 1 == 1 && fld (t.words.getD 0 0) 0 4 == 0

/-- The team pre-empted next: the lowest effective class, then the latest admission. -/
def State.victim (s : State) : Option Nat :=
  ((sortDown (fun (e : Nat × Team) => e.2.cls * (s.nextAdmit + 1) + e.2.order) (s.teams.filter fun e => e.2.mayStop)).head?).map (·.1)

def State.setTeam (s : State) (n : Nat) (t : Team) : State := { s with teams := mset s.teams n t }
def State.team (s : State) (n : Nat) : Option Team := (s.teams.find? fun e => e.1 == n).map (·.2)

/-- A pre-emption requested of one more team for a letter, where none is stopping yet. -/
def State.requestStop (s : State) (id : Nat) : State :=
  if s.teams.any fun e => e.2.phase == .stopping then s
  else match s.victim.bind fun n => (s.team n).map fun t => (n, t) with
    | some (n, t) => s.setTeam n { t with phase := .stopping, savedFor := some id }
    | none => s

/-! ## The decision (R296, R297, R305, R308) -/

/-- The letter that reserves: the first that qualified and is ready (R297). -/
def State.reserver (s : State) : Option (Nat × Letter) :=
  s.reserving.findSome? fun r => ((s.readyLetter r.1).filter fun l => l.id == r.2).map fun l => (r.1, l)

/-- A pre-empted team all of whose clusters are free again, the letter it was pre-empted for no longer waiting for them (R304,
R305). -/
def State.mayResume (s : State) (t : Team) : Bool :=
  t.phase == .saved && (t.clusters.all fun cl => !s.clHeld cl && (s.site (siteOf cl)).open_) &&
    !(s.reserver.any fun r => t.savedFor == some r.2.id)

/-- At most one admission. -/
def State.admitOne (s : State) : State :=
  if s.teams.any fun e => s.mayResume e.2 then s
  else
    let ready := s.readyLetters
    match s.reserver with
    | some (p, l) => match s.turn p l with
      | (_, .passed) => if (s.pb p).preempt ∧ (s.placement p l).isNone then s.requestStop l.id else s
      | (s, .admitted) => s.countPassed ready
      | (s, .other) => s
    | none => match s.serveFrom 0 4 with
      | (s, .admitted) => s.countPassed ready
      | (s, _) => s

/-- R296: a scheduling decision: the heads are checked, one instance is admitted, then pending cancels are decided. -/
def execSchedulingDecision (s : State) : Out :=
  if s.stage ≠ 5 then .next s
  else
    let s := (s.pbs.map (·.1)).foldl (fun s p => s.checkHead p 64) s
    let s := s.admitOne
    .next ((s.pbs.map (·.1)).foldl (fun s p => s.decideCancel p) s)

end Sys2Proof.Machine
end

