-- ==== Sys2Proof/Machine/Teams.lean ====
section
/-! DEFINITION. The gang managers: starting an instance and patching its code, joins, the end of a context and of an instance (R9, R117,
R246, R265, R300, R302, R303, R312, R344, R386). -/
namespace Sys2Proof.Machine

/-! ## The end of a context (R117) -/

/-- What ends as soon as a context is exiting: its drains and other streams, and its lock requests without a grant. -/
def State.dropStreams (s : State) (g : Nat) : State :=
  let cl := g / 4
  let asks := (s.cl cl).lockAsks.filter fun a => a.1.ctx == g
  let asked (m : Msg) : Bool := match m.act with
    | .lockReq _ r => r.op.ctx == g
    | _ => false
  let s := asks.foldl (fun s a =>
    let d := (s.rankCl cl a.2.2).getD cl
    let f := mget {} (s.cl d).frank a.2.1
    if d < 8192 then s.setFrank d a.2.1 { f with queue := f.queue.filter fun r => r.op.ctx != g } else s) s
  let s := { s with
    net := s.net.filter fun m => !asked m
    dispatches := s.dispatches.map fun (d : DispatchRec) => ({ d with streams := d.streams.filter fun x => x.2 != g } : DispatchRec) }
  let c := s.cl cl
  let s := s.setCl cl { c with
    lockAsks := c.lockAsks.filter fun a => a.1.ctx != g
    engines := mmap (fun _ e => { e with drains := e.drains.filter fun d => d.ctx != g }) c.engines }
  asks.foldl (fun s a => s.opDone a.1) s

/-- The commands of a context's rings on a timeline that wait for rows. -/
def Ctx.ringOps (c : Ctx) (t : Nat) : List Op :=
  (c.rings.flatMap fun r => r.2.ops).filter fun op => op.tl == t

/-- Every engine operation of a timeline has completed locally, ring commands that wait apart, or it is in ERROR. -/
def Ctx.tlOver (c : Ctx) (t : Nat) : Bool :=
  let x := c.tl t
  x.err.isSome || decide (x.issue - x.done ≤ x.fin.length + (c.ringOps t).length)

/-- Results of context g that are known land (R91); its fixed-latency writes have nothing left to order (R90). -/
def State.landAll (s : State) (g : Nat) : State :=
  let s := (s.ctx g).tlErrs.foldl (fun s e => s.tryTlErr g e.1) (s.landFmts g)
  let c := s.ctx g
  s.setCtx g { c with pending := [] }.settleKnown

/-- Steps 1 and 2 of R117 are done. -/
def Ctx.settled (c : Ctx) : Bool := c.inflight.isEmpty && (List.range 8).all c.tlOver

/-- Step 3: every ring begins to be freed as wrfree frees it, and queue registers are unbound. -/
def State.freeRings (s : State) (g : Nat) : State :=
  let c := s.ctx g
  let s := s.setCtx g { c with
    rings := mmap (fun _ r => { r with freeing := r.freeing.or (some []), bind := none }) c.rings
    qs := mmap (fun _ q => { q with bound := none }) c.qs, vqs := mmap (fun _ q => { q with bound := none }) c.vqs }
  c.rings.foldl (fun s r => s.ringSettle g r.1) s

/-- Step 4: what a context owns is released, its phase counts as 0, and its gang's barriers go on without it. -/
def State.releaseOwned (s : State) (g : Nat) : State :=
  let c := s.cl (g / 4)
  let drop (m : Map Nat) : Map Nat := mmap (fun _ v => if v = g % 4 + 1 then 0 else v) m
  let x := s.ctx g
  ((s.setCl (g / 4) { c with accOwn := drop c.accOwn, obOwn := drop c.obOwn, mfmtOwn := drop c.mfmtOwn }).setCtx g { x with phase := 0 }).barExit g

/-- A wait that stands on no timeline. -/
def State.exitOp (s : State) (g win : Nat) : Op := { s.plainOp with ctx := g, num := win + 1, user := s.userOf g, agent := s.agentOf g }

/-- Step 5: locks released as wunlock releases them, access epochs ended as wcompl ends them. -/
def State.endEpochs (s : State) (g : Nat) : State :=
  let cl := g / 4
  let c := s.cl cl
  let free := c.locks.filter fun l => l.1 == g && !c.winWaits.any fun q => decide (q.act = .unlock l.2.1 l.2.2.1) && q.op.ctx == g
  let s := free.foldl (fun s l =>
    let mine (a : Access) : Bool := a.op.ctx == g && a.win == l.2.1 && a.rank == l.2.2.1 && decide (a.tag = .lock l.2.2.2)
    s.waitFor cl { op := s.exitOp g l.2.1, ids := (s.cl cl).accIds mine, act := .unlock l.2.1 l.2.2.1 }) s
  let c := s.cl cl
  let begun := c.epochs.filter fun e => e.ctx == g && e.ending.isNone && e.start.isNone
  let s := s.setCl cl { c with epochs := c.epochs.filter fun e => !(e.ctx == g && e.start.isSome) }
  begun.foldl (fun s e =>
    let op := s.exitOp g e.win
    let c := s.cl cl
    let s := s.setCl cl { c with epochs := c.epochs.map fun x => if x = e then { x with ending := some (op, e.count) } else x }
    let mine (a : Access) : Bool := a.op.ctx == g && a.win == e.win && (match a.tag with
      | .post _ => true
      | _ => false)
    s.waitFor cl { op := op, ids := (s.cl cl).accIds mine, act := .compl e.win e.first e.count }) s

/-- The current task of an exiting context: a heap task still RUNNING is done (R246); it ends (R243). -/
def State.endTask (s : State) (g : Nat) : State :=
  let c := s.ctx g
  match c.task with
  | none => s
  | some k =>
    let s := s.setCtx g { c with task := none }
    let h := (s.site k.site).heap k.ix
    if k.heap ∧ (h.task (fld k.word 0 16)).st = 2 then s.setHeap k.site k.ix (h.finish (fld k.word 0 16)).1 else s

/-- The instance that holds a cluster. -/
def State.teamAt (s : State) (cl : Nat) : Option (Nat × Team) := s.teams.find? fun t => t.2.phase != .saved && t.2.clusters.contains cl

/-- The first exit on a trap is kept with the instance, and with its letter (R299). -/
def State.noteExit (s : State) (g : Nat) : State :=
  match (s.ctx g).exitTrap, s.teamAt (g / 4) with
  | some t, some (n, x) =>
    (s.setTeam n { x with trap := x.trap.or (some t.cause) }).mapLetter x.pb x.letter fun l => { l with cause := l.cause.or (some t.cause) }
  | _, _ => s

/-- R117: the end of an exiting context, once its results have landed, its operations have completed and its rings are freed. -/
def execContextExitCompletion (ctx : Nat) (s : State) : Out :=
  if (s.ctx ctx).live ≠ .exiting then .next s
  else
    let s := (s.dropStreams ctx).landAll ctx
    if !(s.ctx ctx).settled then .next s
    else
      let s := s.freeRings ctx
      if !(s.ctx ctx).rings.isEmpty then .next s
      else
      let s := ((((s.releaseOwned ctx).endEpochs ctx).endTask ctx).noteExit ctx)
      let c := s.ctx ctx
      .next (s.setCtx ctx { c with
        live := .off, rstack := [], lbuf := none, shadow := [], trapShadow := false, tlErrs := [], taskFaults := [], memErrs := [], fence := none
        waiting := false, sqr := {} })

/-! ## The end of an instance (R265, R299, R303) -/

/-- The contexts of a list of clusters. -/
def ctxsOf (cls : List Nat) : List Nat := cls.flatMap fun cl => [4 * cl, 4 * cl + 1, 4 * cl + 2, 4 * cl + 3]

/-- The accesses of a context have all been performed (R265). -/
def State.quietMem (s : State) (g : Nat) : Bool := (s.ctx g).posted.isEmpty && !s.pigPending g

/-- The number that stands for context g of a saved team n in what its remote operations leave under way (R108). -/
def parkedCtx (n g : Nat) : Nat := (n + 1) * 2 ^ 40 + g

/-- An access of a team that is saved out: accepted, and not yet known to be applied (R108). -/
def Access.parked (a : Access) : Bool := decide (2 ^ 40 ≤ a.op.ctx)

/-- The answer to an access that has been accepted: it has been applied (R210). -/
def Msg.appliedTo (m : Msg) : Option Packet := match m.act with
  | .applied p _ => some p
  | _ => none

/-- Nothing of a cluster's remote operations and page-table updates is under way, but for those of teams saved out. -/
def Cluster.quiet (c : Cluster) : Bool :=
  (c.accs.all Access.parked) && c.rtcWait.isEmpty && c.seqHeld.isEmpty && c.winWaits.isEmpty && c.held.isEmpty && c.pgmaps.isEmpty

/-- Nothing of an instance is under way any more: every context has exited, its accesses performed, and every remote operation has
passed VIS or failed. -/
def State.teamOver (s : State) (t : Team) : Bool :=
  ((ctxsOf t.clusters).all fun g => (s.ctx g).live == .off && s.quietMem g) && (t.clusters.all fun cl => (s.cl cl).quiet) &&
  s.net.all fun m => (m.appliedTo.any fun p => decide (2 ^ 40 ≤ p.op.ctx)) ||
    !(t.clusters.contains m.src || (t.clusters.contains m.dst && decide (m.src < 8192)))

/-- The L1 of a cluster cleaned and invalidated, its replicas dropped (R265). -/
def State.cleanL1 (s : State) (cl : Nat) : State :=
  let s := (s.cl cl).l1.foldl (fun s l => s.l1Flush cl l.line) s
  let c := s.cl cl
  s.setCl cl { c with l1 := [], l1Miss := [], replicas := [] }

/-- A cluster as its instance leaves it: windows, communicators, barriers and ownership gone, format pairs 8:8 (R173, R303). Accumulators and
operand slots are zeroed at the end of each team instance, which R18 asks for at the end of each launch (DESIGN CHOICE, log 98). -/
def State.releaseCluster (s : State) (cl : Nat) : State :=
  let s := (s.zeroMem (obAt cl 0) (32 * 17920)).zeroMem (accAt cl 0) (8 * 16384)
  let c := s.cl cl
  s.setCl cl { c with
    ti := {}, accOwn := [], obOwn := [], mfmtOwn := [], obMeta := [], loader := [], ostats := [], engines := [], opTlb := []
    frank := [], tokens := [], rtc := [], rtcWait := [], accs := c.accs.filter Access.parked, winWaits := [], fences := [], shut := [], epochs := [], posts := []
    locks := [], lockAsks := [], unacked := [], winSeq := [], seqOut := [], seqLive := [], seqHeld := [], resolved := [], resolvedAbove := [], held := []
    commCancel := [], commSeq := [], heads := [], cancels := [], bars := [], gone := [], recCache := [] }

/-- The queues and heaps assigned to a team are reset and no longer assigned (R303, R313, R315). -/
def Site.freeTeam (x : Site) (n : Nat) : Site :=
  { x with
    queues := mmap (fun _ q => if q.v ∧ q.team = n then
      { q with v := false, head := 0, tail := 0, gone := [], taken := [], closed := false, frozen := false, waits := answerAll false 6 q.waits } else q) x.queues
    heaps := mmap (fun _ h => if h.v ∧ h.team = n then { h.reset with v := false } else h) x.heaps }

/-- The clusters of a team let go (R303). -/
def State.freeTeam (s : State) (n : Nat) (t : Team) : State :=
  let s := t.clusters.foldl (fun s cl => (s.cleanL1 cl).releaseCluster cl) s
  { s with
    teams := s.teams.filter fun e => e.1 != n
    winColls := s.winColls.filter fun c => c.team != n
    dispatches := s.dispatches.filter fun d => d.team != n
    sites := mmap (fun _ x => { x.freeTeam n with office := x.office.filter fun c => !t.clusters.contains c.cl }) s.sites }

/-- The letter's count of an instance that has ended, and of those with a trap exit (R299, R344). -/
def Letter.endOne (l : Letter) (trap : Option Nat) (failed : Bool) : Letter :=
  { l with
    ended := l.ended + 1, ntrap := l.ntrap + bn trap.isSome
    refused := l.refused || failed }

/-! ## Patching (R300, R362) -/

/-- The PARAM relocations of block i applied in a cluster's frames; none where a translation or a read fails. -/
def State.patchOne (s : State) (cl : Nat) (h : SegHdr) (vals : List Nat) (i : Nat) : Except (Option Trap) State :=
  match s.blockHomes cl {} .read h.text h.tagsAt i with
  | .error t => .error (some t)
  | .ok (pa, ta, v) => match s.openAt cl h.segid i v 0 pa ta with
    | none => .error none
    | some p => .ok (s.sealBlock cl h.segid i v 0 pa ta (patchBlock h.patch i vals p))

/-- Blocks patched in order, those before one that fails staying resealed (R361, R362). -/
def State.patchAll (s : State) (cl : Nat) (h : SegHdr) (vals : List Nat) : List Nat → State × Option (Option Trap)
  | [] => (s, none)
  | i :: is => match s.patchOne cl h vals i with
    | .error e => (s, some e)
    | .ok s => s.patchAll cl h vals is

/-- The blocks that a patch list names, each once. -/
def SegHdr.patchBlocks (h : SegHdr) : List Nat := (h.patch.map fun e => fld e 0 32 / 64).dedup

/-! ## Starting an instance (R9, R302, R386) -/

/-- The team a cluster serves, at its place in the rank order. -/
def Team.info (t : Team) (n i : Nat) : TeamInfo :=
  let ncl := fld (t.words.getD 3 0) 16 8
  let join := fld (t.words.getD 0 0) 0 4 == 3
  { team := n, gang := i / ncl, gangIx := i % ncl, gangSize := ncl, rbase := if join then fld (t.words.getD 8 0) 16 17 else 0
    ranks := t.clusters, slot := t.slot }

/-- The gang manager's work on one cluster but for its contexts: the rank table, PTROOT, the banks, barriers, caches and
CLSAVE (R302, R305, R317). -/
def State.prepare (s : State) (n : Nat) (t : Team) (cl i : Nat) : State :=
  let (v, s) := s.fresh
  let s := s.setPtroot cl (s.rootOf (siteOf cl) (fld (t.words.getD 3 0) 32 16))
  let c := s.cl cl
  let ncl := fld (t.words.getD 3 0) 16 8
  (s.setCl cl { c with
    ti := t.info n i, bars := tab (fun o => (o, ({ e := 4 * ncl } : Bar))) 16, gone := [], recCache := [], icache := [], l1 := [], l1Miss := []
    replicas := [], clSave := fld v 23 25 * 2 ^ 23 }).setLsBounds cl t.lsBase t.lsLim

/-- Why an instance does not start: a patch failed, or the segment's checks (R300, R359). -/
inductive StartFail where
  | bad (why : Option (Nat × Trap)) | refused
  deriving DecidableEq, Repr

/-- Clusters prepared, checked and patched in order of rank, up to the first that fails. Each cluster's contexts take the segment of its own
copy of the header; a cluster already patched for the letter has been checked for it (R300, R359). -/
def State.prepareAll (s : State) (n : Nat) (t : Team) (l : Letter) : List (Nat × Nat) → State × Option StartFail
  | [] => (s, none)
  | (cl, i) :: r =>
    let s := s.prepare n t cl i
    if ((s.letter t.pb t.letter).map fun l => l.patched.contains cl) = some true then s.prepareAll n t l r
    else match s.segCheck cl { slot := t.slot } t.slot l.segVa.toNat with
    | .error (.read e) => (s, some (.bad (some (cl, e))))
    | .error (.check _ _) => (s, some .refused)
    | .ok o =>
      let s := (s.noteVerified cl o.hdr).mapLetter t.pb t.letter fun l => { l with segs := mset l.segs cl o.segment }
      if o.hdr.isSealed ∨ t.slot.isSome then s.prepareAll n t l r
      else match s.patchAll cl o.hdr [l.ncl, l.gangs, l.nsite.getD 0] o.hdr.patchBlocks with
        | (s, some e) => (s, some (.bad (e.map fun e => (cl, e))))
        | (s, none) => (s.mapLetter t.pb t.letter fun l => { l with patched := cl :: l.patched }).prepareAll n t l r

/-- The vectors of a context that starts (R386). -/
def State.vectors (s : State) (g : Nat) : W64 × W64 × W64 :=
  let site := siteOf (g / 4)
  let x := s.site site
  let word (i : Nat) : W64 := BitVec.ofNat 64 (s.load (pigAt site (x.cvBase + 32 * (4 * (g / 4 % 128) + g % 4) + 8 * i)) 8)
  if x.cvEn then (word 0, word 1, word 2) else (0, 0, 0)

/-- The segment of an instance as its header reads on a cluster (R359). -/
def State.segOf (s : State) (t : Team) (cl : Nat) : Segment := ((s.letter t.pb t.letter).bind fun l => (l.segs.find? fun e => e.1 == cl).map (·.2)).getD t.seg

/-- A context begins a team instance (R9, R302, R312, R386): the sequencer is to read the entry record. -/
def State.startCtx (s : State) (t : Team) (g : Nat) : State :=
  let (a, b, c) := s.vectors g
  let entry := t.words.getD 2 0
  let x : Ctx := {
    live := .run, pc := entry, xs := [(32, t.words.getD 4 0)], sealedCtx := t.slot.isSome, seg := s.segOf t (g / 4)
    trapVec := trapVecOf a, stkSpill := stkSpillOf b, sqr := { record := entry, step := 1, active := true } }
  s.setCtx g (x.setCkpt c)

/-- Every context of an instance starts. -/
def State.startAll (s : State) (n : Nat) (t : Team) : State :=
  (ctxsOf t.clusters).foldl (fun s g => s.startCtx t g) (s.setTeam n { t with phase := .running })

/-- The instance does not start: its placement is released, and the letter ends as R300 says. -/
def State.abandon (s : State) (n : Nat) (t : Team) (why : StartFail) : State :=
  let s := t.clusters.foldl (fun s cl => s.releaseCluster cl) { s with teams := s.teams.filter fun e => e.1 != n }
  let s := match why, s.letter t.pb t.letter with
    | .bad (some (cl, e)), some l => s.logLetter cl l t.slot e
    | _, _ => s
  let f (l : Letter) : Letter := match why with
    | .bad _ => { l.cancelRest with ended := l.ended + 1, bad := true }
    | .refused => { l with ended := l.ended + 1, closed := true, refused := true }
  (s.mapLetter t.pb t.letter f).tryRetire t.pb t.letter

/-! ## Joins (R343, R344) -/

/-- A rank of another part: a cluster of another panel, which only that part's report says (log 14). -/
def State.farRank (s : State) (l : Letter) : Nat × State :=
  let (v, s) := s.fresh
  let k := fld v 32 8 % l.npanel
  let k := if k = l.pidx then (k + 1) % l.npanel else k
  (8192 * (l.panel k + 1) + fld v 0 13, s)

/-- The rank tables exchanged: the table of the whole team. -/
def State.fullRanks (s : State) (l : Letter) (cls : List Nat) : Nat → List Nat × State
  | 0 => ([], s)
  | n + 1 =>
    let (r, s) := s.fullRanks l cls n
    if l.rbase ≤ n ∧ n < l.rbase + cls.length then (r ++ [cls.getD (n - l.rbase) 0], s)
    else
      let (x, s) := s.farRank l
      (r ++ [x], s)

/-- Every part has reported: the contexts start with the whole team's ranks. -/
def State.joined (s : State) (n : Nat) (t : Team) (l : Letter) : State :=
  let (ranks, s) := s.fullRanks l t.clusters l.tsize
  let s := t.clusters.foldl (fun s cl =>
    let c := s.cl cl
    s.setCl cl { c with ti := { c.ti with ranks := ranks } }) s
  s.startAll n { t with started := true }

/-- A JOIN part of this panel that has reported starts once every part has; else it waits (R344). -/
def State.joinIfHeard (s : State) (n : Nat) (t : Team) (l : Letter) : State :=
  if (List.range l.npanel).all t.heard.contains then s.joined n t l else s.setTeam n t

/-- R302, R344: every gang manager has finished its steps: the contexts start, or a JOIN part waits for the others. -/
def execGangStart (team : Nat) (s : State) : Out :=
  match s.team team with
  | none => .next s
  | some t =>
    if t.phase ≠ .placed then .next s
    else match s.letter t.pb t.letter with
      | none => .next s
      | some l =>
        match s.prepareAll team t l t.clusters.zipIdx with
        | (s, some e) => .next (s.abandon team t e)
        | (s, none) => .next (if l.kind = 3 then s.joinIfHeard team { t with phase := .joining, heard := l.pidx :: t.heard } l else s.startAll team t)

/-- The letter that an instance was admitted for, as its words say, which outlives it. -/
def Team.asLetter (t : Team) : Letter := { id := t.letter, words := t.words }

/-- Every part of a started JOIN team has completed, or the join has failed (R344). -/
def Team.lastPart (t : Team) : Bool := !t.started || t.failed || (List.range t.asLetter.npanel).all t.finished.contains

/-- R344: a part of the team reports its reservation; and, once the team has started, that it has completed: with the last the clusters
that completed here are let go (log 30). -/
def execJoinReport (team part : Nat) (s : State) : Out :=
  match s.team team with
  | none => .next s
  | some t =>
    let l := t.asLetter
    if l.kind ≠ 3 ∨ l.npanel ≤ part ∨ part = l.pidx then .next s
    else if t.started then
      let t := { t with finished := if t.finished.contains part then t.finished else part :: t.finished }
      .next (if t.lastPart ∧ t.finished.contains l.pidx then s.freeTeam team t else s.setTeam team t)
    else if (t.phase ≠ .placed ∧ t.phase ≠ .joining) ∨ t.heard.contains part then .next s
    else
      let t := { t with heard := part :: t.heard }
      .next (if t.phase = .joining then s.joinIfHeard team t l else s.setTeam team t)

/-- R344: a part that has not heard from every part within TMO × 2^20 cycles of its reservation, as its first cluster counts them, releases
its clusters, and its letter is refused. -/
def execJoinTimeout (team : Nat) (s : State) : Out :=
  match s.team team with
  | none => .next s
  | some t =>
    if t.asLetter.kind = 3 ∧ (t.phase = .placed ∨ t.phase = .joining) ∧
        t.joinAt + t.asLetter.tmo * 2 ^ 20 ≤ (s.cl (t.clusters.headD 0)).cycle then
      .next (s.abandon team t .refused)
    else .next s

/-- R265, R303: an instance completes, and its launch with it when it is the last. A part of a JOIN team completes and has its record, but
its clusters, with the team's windows, are let go when the last part has completed (R344; log 30). -/
def execInstanceCompletion (team : Nat) (s : State) : Out :=
  match s.team team with
  | none => .next s
  | some t =>
    let me := t.asLetter.pidx
    if (t.phase ≠ .running ∧ t.phase ≠ .stopping) ∨ !s.teamOver t ∨ (t.started ∧ t.finished.contains me) then .next s
    else
      let t' := { t with finished := me :: t.finished }
      let s := if t'.lastPart then s.freeTeam team t else s.setTeam team t'
      .next ((s.mapLetter t.pb t.letter fun l => l.endOne t.trap t.failed).tryRetire t.pb t.letter)

/-- R344: another part fails: a part that has started ends REFUSED once its contexts are stopped as for GMKILL. -/
def execJoinPartFailure (team : Nat) (s : State) : Out :=
  match s.team team with
  | none => .next s
  | some t =>
    if fld (t.words.getD 0 0) 0 4 ≠ 3 then .next s
    else if t.phase = .joining then .next (s.abandon team t .refused)
    else if t.phase = .running then
      .next ((ctxsOf t.clusters).foldl (fun s g => s.killCtx g) (s.setTeam team { t with failed := true }))
    else .next s

end Sys2Proof.Machine
end

