-- ==== Sys2Proof/Machine/Save.lean ====
section
/-! DEFINITION. Pre-emption: the stop of a context, the save of a team to its checkpoint and cluster save areas, and its
resumption (R104, R107 to R110, R200, R304 to R306, R316, R355). -/
namespace Sys2Proof.Machine

/-! ## The stop (R104, R107) -/

/-- The sequencer stands where a record lets its context stop: no record runs, a record or an iteration of a preemptible one has
been entered and no bundle of it has issued, or the running record's flag is 1 and it is outside its kernel. -/
def SeqState.maySave (q : SeqState) : Bool := !q.active || q.fresh || (lrPreempt q.words && q.part != 2)

/-- The context stands at a pre-emption point (R107). -/
def State.atStop (s : State) (g : Nat) : Bool :=
  let c := s.ctx g
  c.live == .run && !s.answered g &&
  (c.waiting || ((c.shadow.isEmpty || c.pending.isEmpty) && c.cstate != .compensate &&
    (c.sqr.step == 0 || c.sqr.susp) && (c.priv != 0 || c.sqr.maySave)))

/-- The context's team has been asked to stop, and the context stands at a pre-emption point (R107). -/
def State.stopDue (s : State) (g : Nat) : Bool := ((s.teamAt (g / 4)).any fun t => t.2.phase == .stopping) && s.atStop g

/-- R107: a context of a team asked to stop stops at its pre-emption point. -/
def execContextPreemptionStop (ctx : Nat) (s : State) : Out :=
  if s.stopDue ctx then
    let s := (s.withdraw ctx).landFmts ctx
    let c := (s.ctx ctx).toShadow
    .next (s.setCtx ctx { c with
      live := .stopped, cstate := .preempted, waiting := false, waitLeft := some (c.waitLeft.getD (s.peekWait ctx c.pc)) })
  else .next s

/-! ## What a save waits for (R108) -/

/-- Context g is ready to be saved: stopped or gone, its results landed, its accesses performed, its operations complete but for ring
commands, of which some rows may not have been started (R108, R200). -/
def State.ctxQuiet (s : State) (g : Nat) : Bool :=
  let c := s.ctx g
  (c.rings.all fun r => r.2.part.isNone) && (c.live == .off || c.live == .stopped) && c.inflight.isEmpty && s.quietMem g && (c.live == .off || (List.range 8).all c.tlOver)

/-- A cluster is ready for its team to be saved: of its accesses only the news that they have been applied is still to come, so that VIS
may stand below DONE (R108). -/
def Cluster.savable (c : Cluster) : Bool := ({ c with accs := c.accs.filter fun a => a.unacc != 0 } : Cluster).quiet

/-- The whole team is ready: no access of it is under way to a memory, and no message of it travels but for answers. -/
def State.teamQuiet (s : State) (t : Team) : Bool :=
  ((ctxsOf t.clusters).all s.ctxQuiet) &&
  (t.clusters.all fun cl => (s.cl cl).savable && (s.officeOf cl).all fun x => x.cl != cl) &&
  s.net.all fun m => m.appliedTo.isSome || !(t.clusters.contains m.src || t.clusters.contains m.dst)

/-- What the remote operations of a list of clusters have under way changes from one numbering of contexts to another. -/
def State.renumber (s : State) (cls : List Nat) (f : Nat → Nat) : State :=
  let s := cls.foldl (fun s cl =>
    let c := s.cl cl
    s.setCl cl { c with accs := c.accs.map fun a => { a with op := { a.op with ctx := f a.op.ctx } } }) s
  { s with net := s.net.map fun m => if !cls.contains m.dst then m else match m.act with
    | .applied p fl => { m with act := .applied { p with op := { p.op with ctx := f p.op.ctx } } fl }
    | _ => m }

/-- The timelines of a team's contexts go on while it is out: they stand under the numbers of parked contexts, and what is under way names
those (R108, R109). -/
def State.parkTimelines (s : State) (n : Nat) (t : Team) : State :=
  let gs := ctxsOf t.clusters
  let s := s.renumber t.clusters fun g => if gs.contains g then parkedCtx n g else g
  gs.foldl (fun s g => s.setCtx (parkedCtx n g) { tls := (s.ctx g).tls }) s

/-- A saved team's timelines come back, with the flags that its operations have set since (R108, R209). -/
def State.unparkTimelines (s : State) (n : Nat) (t : Team) : State :=
  let gs := ctxsOf t.clusters
  let s := s.renumber t.clusters fun g => if decide ((n + 1) * 2 ^ 40 ≤ g ∧ g < (n + 2) * 2 ^ 40) then g % 2 ^ 40 else g
  let s := gs.foldl (fun s g =>
    let p := s.ctx (parkedCtx n g)
    s.setCtx g { s.ctx g with tls := p.tls, vflags := (s.ctx g).vflags ||| p.vflags }) s
  { s with ctxs := s.ctxs.filter fun e => !decide ((n + 1) * 2 ^ 40 ≤ e.1 ∧ e.1 < (n + 2) * 2 ^ 40) }

/-- What a saved team that ends leaves under way is forgotten (R377). -/
def State.dropParked (s : State) (n : Nat) (t : Team) : State :=
  let mine (g : Nat) : Bool := decide ((n + 1) * 2 ^ 40 ≤ g ∧ g < (n + 2) * 2 ^ 40)
  let s := t.clusters.foldl (fun s cl =>
    let c := s.cl cl
    s.setCl cl { c with accs := c.accs.filter fun a => !mine a.op.ctx }) s
  { s with ctxs := s.ctxs.filter fun e => !mine e.1 }

/-! ## The checkpoint area (Table 23) -/

/-- A write of the area: offset, bytes, value. -/
abbrev Put := Nat × Nat × Nat

/-- A specifier, a file number and the value of a buffered write. -/
def Wr.specFile : Wr → Nat × Nat × Nat
  | .x n a => (n, 0, a.toNat)
  | .v n a => (n, 1, a.toNat)
  | .c n a => (n, 2, bn a)
  | .p n a => (n, 3, a.toNat)
  | .flags => (0, 4, 0)

/-- Flags NV, DZ, OF, UF, NX from bit 15 down to 11 (Table 23). -/
def Shadow.word (e : Shadow) : Nat :=
  e.wr.specFile.1 + e.wr.specFile.2.1 * 256 + e.fl.toNat * 2 ^ 11 + e.k * 2 ^ 16 + bn e.toV * 2 ^ 20 + bn e.noVal * 2 ^ 21

/-- The words that are always written, up to the return stack. -/
def Ctx.headWords (c : Ctx) (g : Nat) : List Nat :=
  let l := c.lbuf.getD { body := 0, len := 0, pos := 0, left := 0 }
  let q := c.sqr
  [c.pc.toNat, c.ccount % 2 ^ 64, c.waitLeft.getD 0 % 16 + c.shadow.length * 256 + bn c.trapShadow * 2 ^ 16,
    fld l.body 0 48 + l.len * 2 ^ 48 + l.pos * 2 ^ 56, l.left, bn l.suspended, q.record.toNat, q.iter,
    c.fctl.toNat, c.vflags.toNat, (c.ctxstat g).toNat, c.trapcause.toNat, c.trapPc.toNat, c.trapAddr.toNat, c.trapInfo.toNat, c.trapVec.toNat,
    c.stkSpill.toNat, ofBits c.getC 8, c.phase, c.rstack.length,
    q.part + bn q.trun * 4 + bn q.ovr.isSome * 8 + q.step * 16 + bn q.active * 128, q.trip % 2 ^ 64, (q.ovr.getD 0).toNat, q.retPt.toNat,
    0, 0, 0, 0, 0, 0, 0, 0]

/-- The registers of one file with dirty bit base + i, each of n bytes from an offset. -/
def dirtyPuts (c : Ctx) (off n base lo hi : Nat) (v : Nat → Nat) : List Put :=
  ((List.range' lo (hi - lo)).filter fun i => c.dirty.getLsbD (base + i)).map fun i => (off + n * i, n, v i)

/-- The state word of a queue register: count, pending pushes, bound, and the stream's number, which the spec leaves to
the device (id). -/
def queueWord (count pushes : Nat) (bound : Bool) (id : Nat) : Nat :=
  count + pushes * 16 + bn bound * 256 + (if bound then id % 65536 * 65536 else 0)

/-- A timeline's block: ISSUE, DONE, VIS and its error word (R236). -/
def Timeline.block (t : Timeline) : List Nat :=
  [t.issue % 2 ^ 64, t.done % 2 ^ 64, t.vis % 2 ^ 64, match t.err with
    | none => 0
    | some e => (t.errWord e).toNat]

/-- Everything that a save of context g writes, with id for the streams of its queue registers. -/
def Ctx.areaPuts (c : Ctx) (g id : Nat) : List Put :=
  [(0, 256, pack 64 (c.headWords g))] ++
  dirtyPuts c 0x100 8 0 1 32 (fun i => (c.getX i).toNat) ++
  dirtyPuts c 0x200 8 32 0 16 (fun i => (c.getX (32 + i)).toNat) ++
  dirtyPuts c 0x280 8 96 1 8 (fun i => (c.getP i).toNat) ++
  [(0x2C0, 128, pack 64 (c.rstack.reverse.map fun e => e.word.toNat)),
    (0x340, 256, pack 64 ((List.range 8).flatMap fun t => (c.tl t).block)),
    (0x840, 128, pack 64 (tab (fun i => queueWord (c.getQ i).ents.length (c.shadowPushes (.x (48 + i))) (c.getQ i).bound.isSome id) 16)),
    (0x8C0, 32, pack 64 (tab (fun i => queueWord (c.getVQ i).ents.length (c.shadowPushes (.v (28 + i))) (c.getVQ i).bound.isSome id) 4)),
    (0x8E0, 1824, 0), (0x3E00, 512, 0)] ++
  dirtyPuts c 0x440 64 48 0 16 (fun i => pack 64 ((c.getQ i).ents.map (·.toNat))) ++
  dirtyPuts c 0x1000 256 64 0 28 (fun i => (c.getV i).toNat) ++
  dirtyPuts c 0x2C00 1024 92 0 4 (fun i => pack 2048 ((c.getVQ i).ents.map (·.toNat))) ++
  (c.shadow.zipIdx.map fun e => (0x3C00 + 8 * e.2, 8, e.1.word)) ++
  c.shadow.zipIdx.map fun e => (0x4000 + 256 * e.2, 256, e.1.wr.specFile.2.2)

/-! ## Saving (R109, R305, R306, R355) -/

/-- The home of a save area's page, by a write at SUPER; for a sealed team it must be an ENC page in a frame tagged to its
slot. -/
def State.savePage (s : State) (cl : Nat) (slot : Option Nat) (va : Nat) : Option Nat :=
  if va < lsTop then none
  else match s.addrCheck cl { slot := slot } false (BitVec.ofNat 64 va) 8 .write with
    | .error _ => none
    | .ok pa => match slot with
      | none => some pa
      | some k =>
        if s.encPage cl { slot := slot } va k && mget 0 (s.site (siteOf cl)).tags (frameOf pa) == k + 1 then some pa else none

/-- Every page of a cluster's save area can be written. -/
def State.clSaveOk (s : State) (cl : Nat) (slot : Option Nat) : Bool :=
  (List.range 256).all fun i => (s.savePage cl slot ((s.cl cl).clSave + i * 32768)).isSome

/-- The checkpoint area of context g can be written, where it is to be saved. -/
def State.ckptOk (s : State) (slot : Option Nat) (g : Nat) : Bool :=
  (s.ctx g).live != .stopped || (s.savePage (g / 4) slot (s.ctx g).ckptBase.toNat).isSome

/-- The checkpoint area of a stopped context written, and its dirty bits cleared (R109). -/
def State.writeArea (s : State) (slot : Option Nat) (g : Nat) : State :=
  match s.savePage (g / 4) slot (s.ctx g).ckptBase.toNat with
  | none => s
  | some pa =>
    let (v, s) := s.fresh
    let c := s.ctx g
    let s := (c.areaPuts g (fld v 0 16)).foldl (fun s p => s.perform (pa + p.1) p.2.1 p.2.2) s
    s.setCtx g { c with dirty := 0, live := .saved }

/-- The local store within the bounds, accumulators and operand slots of a cluster, as memory (R305). -/
def State.claimedMem (s : State) (cl : Nat) : List Host.Cell :=
  let c := s.cl cl
  s.mem.filter fun m =>
    decide (lsAt cl (c.lsBase * 131072) ≤ m.1 ∧ m.1 < lsAt cl (c.lsLim * 131072)) ||
    decide (obAt cl 0 ≤ m.1 ∧ m.1 < obAt cl (32 * 17920)) || decide (accAt cl 0 ≤ m.1 ∧ m.1 < accAt cl (8 * 16384))

/-- A cluster without the team that has left it: its claimed state, windows, barriers and translations are parked. -/
def Cluster.vacate (c : Cluster) : Cluster :=
  { c with
    ti := {}, accOwn := [], obOwn := [], mfmtOwn := [], obMeta := [], loader := [], ostats := [], engines := [], frank := [], tokens := [], rtc := []
    fences := [], shut := [], epochs := [], posts := [], locks := [], lockAsks := [], winSeq := [], seqOut := [], seqLive := [], resolved := []
    opTlb := [], resolvedAbove := [], commCancel := [], commSeq := [], heads := [], cancels := [], bars := [], gone := [], recCache := [], tlb := [], engTlb := [] }

/-- What a save leaves in a cluster's save area: its layout, and so each byte, is the device's own (R305, log 41). -/
def State.writeClSave (s : State) (cl : Nat) (slot : Option Nat) : State :=
  let img := Config.saveImage s.free
  let put (s : State) (e : Nat × BitVec 8) : State :=
    let o := e.1 % 0x800000
    match s.savePage cl slot ((s.cl cl).clSave + o / 32768 * 32768) with
    | some pa => s.perform (pa + o % 32768) 1 e.2.toNat
    | none => s
  img.foldl put { s with free := s.free + 1 }

/-- The team saved: areas written, claimed state parked, clusters free (R305). -/
def State.saveTeam (s : State) (n : Nat) (t : Team) : State :=
  let s := t.clusters.foldl (fun s cl => s.cleanL1 cl) s
  let s := ((ctxsOf t.clusters).filter fun g => (s.ctx g).live == .stopped).foldl (fun s g => s.writeArea t.slot g) s
  let s := t.clusters.foldl (fun s cl => s.writeClSave cl t.slot) s
  let s := s.parkTimelines n t
  let park (cl : Nat) : Parked := { cl := cl, cluster := s.cl cl, ctxs := tab (fun k => s.ctx (4 * cl + k)) 4 }
  let t' := { t with phase := .saved, parked := t.clusters.map park, parkedMem := t.clusters.flatMap s.claimedMem, savedAt := s.nextAdmit }
  let s := t.clusters.foldl (fun s cl =>
    let s := s.setCl cl (s.cl cl).vacate
    (List.range 4).foldl (fun s k => s.setCtx (4 * cl + k) {}) s) s
  { s.setTeam n t' with nextAdmit := s.nextAdmit + 1 }

/-- A context goes on after a stop: its buffered writes re-enter the pipeline (R105, R109). -/
def Ctx.resume (c : Ctx) : Ctx := if c.live = .stopped ∨ c.live = .saved then { c.replay with live := .run, cstate := .fetch } else c

/-- A save that faults: every context runs on, the clusters whose areas failed set SAVEFAIL, and the instance is not
pre-empted again (R306). -/
def State.failSave (s : State) (n : Nat) (t : Team) (failed : List Nat) : State :=
  let s := (ctxsOf t.clusters).foldl (fun s g => s.setCtx g (s.ctx g).resume) s
  let s := failed.foldl (fun s cl =>
    let c := s.cl cl
    s.setCl cl { c with saveFail := true }) s
  s.setTeam n { t with phase := .running, noSave := true }

/-- R108, R109, R305, R306: the save of a team whose contexts have all stopped. -/
def execContextSave (team : Nat) (s : State) : Out :=
  match s.team team with
  | none => .next s
  | some t =>
    if t.phase ≠ .stopping then .next s
    else
      let s := ((ctxsOf t.clusters).filter fun g => (s.ctx g).live == .stopped).foldl (fun s g =>
        let s := (s.ctx g).tlErrs.foldl (fun s e => s.tryTlErr g e.1) s
        s.setCtx g (s.ctx g).settleKnown) s
      if !s.teamQuiet t ∨ (ctxsOf t.clusters).all (fun g => (s.ctx g).live == .off) then .next s
      else
        let failed := t.clusters.filter fun cl => !(s.clSaveOk cl t.slot && (ctxsOf [cl]).all (s.ckptOk t.slot))
        .next (if failed.isEmpty then s.saveTeam team t else s.failSave team t failed)

/-! ## Resumption (R109, R305, R316) -/

/-- Word i of a saved area. -/
def areaWord (v i : Nat) : W64 := BitVec.ofNat 64 (v / 2 ^ (64 * i))

/-- A buffered write read back. -/
def savedShadow (d v : Nat) : Shadow :=
  let n := bits d 0 8
  { wr := match bits d 8 3 with
      | 0 => .x n (BitVec.ofNat 64 v)
      | 1 => .v n (BitVec.ofNat 2048 v)
      | 2 => .c n (v % 2 == 1)
      | 3 => .p n (BitVec.ofNat 64 v)
      | _ => .flags
    noVal := bit d 21, k := bits d 16 4, fl := BitVec.ofNat 5 (bits d 11 5), toV := bit d 20 }

/-- The registers and words of Table 23 loaded from the area's bytes (get offset, bytes) into what stayed with the cluster
(R30, R109). -/
def Ctx.loadArea (c : Ctx) (mon : Bool) (get : Nat → Nat → Nat) : Ctx :=
  let h := get 0 256
  let w (i : Nat) : W64 := areaWord h i
  let lb := w 3
  let st := w 20
  let shn := min 64 (fld (w 2) 8 8)
  let n := min 16 (fld (w 19) 0 5)
  { c with
    pc := w 0, ccount := (w 1).toNat, waitLeft := some (fld (w 2) 0 4)
    lbuf := if fld lb 48 7 = 0 then none else
      some { body := BitVec.ofNat 64 (fld lb 0 48), len := fld lb 48 7, pos := fld lb 56 7, left := (w 4).toNat, suspended := fld (w 5) 0 1 == 1 }
    sqr := { c.sqr with
      record := w 6, iter := (w 7).toNat, part := fld st 0 2, trun := fld st 2 1 == 1, ovr := if fld st 3 1 = 1 then some (w 22) else none
      step := fld st 4 3, active := fld st 7 1 == 1, trip := (w 21).toNat, retPt := w 23, susp := fld st 4 3 != 0 && c.sqr.susp }
    fctl := fctlOf (w 8), vflags := vflagsOf (w 9), priv := min (fld (w 10) 0 2) (if mon then 2 else 1), ppriv := pprivOf mon (fld (w 10) 6 2)
    trapWrem := fld (w 11) 24 4, trapCause := fld (w 11) 0 8, trapPc := trapVecOf (w 12), trapAddr := w 13, trapInfo := w 14, trapVec := trapVecOf (w 15)
    stkSpill := stkSpillOf (w 16), cs := BitVec.ofNat 8 (fld (w 17) 0 8), phase := fld (w 18) 0 3
    rstack := ((List.range n).map fun i => RetEntry.ofWord (areaWord (get 0x2C0 128) i)).reverse
    xs := tab (fun i => (i, areaWord (get 0x100 256) i)) 32 ++ tab (fun i => (32 + i, areaWord (get 0x200 128) i)) 16
    ps := tab (fun i => (i, areaWord (get 0x280 64) i)) 8
    vs := tab (fun i => (i, BitVec.ofNat 2048 (get (0x1000 + 256 * i) 256))) 28
    qs := tab (fun i =>
      let q := get (0x840 + 8 * i) 8
      (i, ({ ents := tab (areaWord (get (0x440 + 64 * i) 64)) (min 8 (bits q 0 4)), bound := if bit q 8 then (c.getQ i).bound else none } : XQueue))) 16
    vqs := tab (fun i =>
      let q := get (0x8C0 + 8 * i) 8
      (i, ({
        ents := tab (fun j => BitVec.ofNat 2048 (get (0x2C00 + 1024 * i + 256 * j) 256)) (min 4 (bits q 0 4))
        bound := if bit q 8 then (c.getVQ i).bound else none } : VQueue))) 4
    shadow := tab (fun i => savedShadow (get (0x3C00 + 8 * i) 8) (get (0x4000 + 256 * i) 256)) shn
    trapShadow := fld (w 2) 16 1 == 1 && shn != 0
    dirty := 0, live := .saved, cstate := .preempted }

/-- The checkpoint area of a saved context read, and the context resumed with it; where the area cannot be read, with what
stayed (log 25). -/
def State.restoreCtx (s : State) (g : Nat) (slot : Option Nat) (c : Ctx) : State :=
  if c.live ≠ .saved then s.setCtx g c
  else
    match s.addrCheck (g / 4) { slot := slot } false c.ckptBase 8 .read with
    | .error _ => s.setCtx g c.resume
    | .ok pa =>
      let s := (s.readAt (g / 4) pa 32768).logBad (g / 4) pa 32768
      if s.badAt pa 32768 then s.setCtx g c.resume
      else s.setCtx g (c.loadArea (s.isMon (g / 4)) fun off n => s.load (pa + off) n).resume

/-- A cluster with the state that its team had left (R305): what belongs to the launch comes back, what belongs to the
cluster's own hardware stays. -/
def Cluster.reoccupy (c p : Cluster) : Cluster :=
  { p with
    cycle := c.cycle, lsPwr := c.lsPwr, deepen := c.deepen, retIdle := c.retIdle, napIdle := c.napIdle, heat := c.heat, upper := c.upper
    bankPwr := c.bankPwr, chans := c.chans, chState := c.chState, retiring := c.retiring, cethr := c.cethr, mbnd := c.mbnd, wqHi := c.wqHi
    wqLo := c.wqLo, rhThr := c.rhThr, ceCnt := c.ceCnt, merrAddr := c.merrAddr, merrStat := c.merrStat, tlb := [], engTlb := [], tlbInv := c.tlbInv
    rtcInv := c.rtcInv, l1 := [], l1Miss := [], icache := [], wqs := c.wqs, rowCnt := c.rowCnt, primary := c.primary, setUsed := c.setUsed
    chEvents := c.chEvents, rowBad := c.rowBad, slc := c.slc, slcBad := c.slcBad, encFrames := c.encFrames, accs := c.accs, kbActive := c.kbActive, kbSlot := c.kbSlot, kbPos := c.kbPos, saveFail := c.saveFail
    rtcMisses := c.rtcMisses }

/-- The team goes on where it stopped. -/
def State.resumeTeam (s : State) (n : Nat) (t : Team) : State :=
  let s := t.parked.foldl (fun s p => (s.setCl p.cl ((s.cl p.cl).reoccupy p.cluster)).setLsBounds p.cl p.cluster.lsBase p.cluster.lsLim) s
  let s := t.parked.foldl (fun s p =>
    let lo := lsAt p.cl (p.cluster.lsBase * 131072)
    let s := s.zeroMem lo ((p.cluster.lsLim - p.cluster.lsBase) * 131072)
    (s.zeroMem (obAt p.cl 0) (32 * 17920)).zeroMem (accAt p.cl 0) (8 * 16384)) s
  let s := { s with mem := t.parkedMem.foldl (fun m (e : Host.Cell) => writeByte m e.1 e.2) s.mem }
  let s := t.parked.foldl (fun s p =>
    p.ctxs.zipIdx.foldl (fun s e => s.restoreCtx (4 * p.cl + e.2) t.slot e.1) s) s
  (s.unparkTimelines n t).setTeam n { t with phase := .running, parked := [], parkedMem := [], savedFor := none }

/-- R305: the team that was saved first of those whose clusters are all free resumes. -/
def execTeamResumption (team : Nat) (s : State) : Out :=
  match s.team team with
  | none => .next s
  | some t =>
    if s.mayResume t ∧ !(s.teams.any fun e => s.mayResume e.2 && decide (e.2.savedAt < t.savedAt)) then .next (s.resumeTeam team t)
    else .next s

end Sys2Proof.Machine
end

