-- ==== Sys2Proof/Machine/Panel.lean ====
section
/-! DEFINITION. The management core: start-up, resets, links of the host ports, host accesses, SPDM and IDE_KM, power and cooling
(R346, R365 to R368, R370, R373 to R385). -/
namespace Sys2Proof.Machine

/-! ## Slot 0 and measurements (R346, R366) -/

/-- MEAS := SHA-384(MEAS ‖ m) (R366). -/
def State.extend (s : State) (k : Nat) (m : W384) : State :=
  { s with measured := mset s.measured k (Config.sha384 96 ((mget 0 s.measured k).toNat + m.toNat * 2 ^ 384)) }

/-- Slot 0 of a site installed: its keys and SIGNER are the device's own (R346; log 6). -/
def State.installSlot0 (s : State) (site : Nat) : State :=
  let x := s.site site
  let k : KeySlot := {
    st := .bound, dataKey := Config.platformData site, codeKey := Config.platformCode site, signer := Config.platformSigner site }
  s.setSite site { x with slots := mset x.slots 0 k }

/-- The maker's root key that the management firmware carries has the fused hash, and its signature over the firmware holds (R366). -/
def romOk : Bool :=
  decide (Config.sha384 96 Config.mgmtKey.toNat = Config.rootHash) && Config.ecdsaOk Config.mgmtKey Config.mgmtSig Config.mgmtImage.1 Config.mgmtImage.2

/-- SHA-384 of a public key, which a certificate's signature is over (R366). -/
def keyHash (k : BitVec 768) : W384 := Config.sha384 96 k.toNat

/-- The alias key derived from the identity key and MEAS0 to MEAS3, and the chain of certificate slot 0: each key with the signature over
it (R366). -/
def State.certify (s : State) : State :=
  let k := Config.aliasKey s.devIdentity (tab (fun i => mget 0 s.measured i) 4)
  { s with devAlias := k, certs := [s.devIdentity, Config.rootSign, k, Config.sign s.devIdentity (keyHash k)] }

/-- A fresh 384-bit value (log 6). -/
def State.fresh384 (s : State) : W384 × State :=
  (List.range 6).foldl (fun (a : W384 × State) i =>
    let (w, s) := a.2.fresh
    (a.1 + BitVec.ofNat 384 (w.toNat * 2 ^ (64 * i)), s)) (0, s)

/-- After READY the monitor firmware may have the management core extend one of MEAS8 to MEAS15; when, which and with what digest is free
(R366; log 100). -/
def State.measureMore (s : State) : State :=
  let (v, s) := s.fresh
  if v.getLsbD 0 then
    let (m, s) := s.fresh384
    s.extend (8 + fld v 1 3) m
  else s

/-! ## A site leaves service (R370, R376, R377) -/

/-- The site of a host port (R373). -/
def hostSite (port : Nat) : Nat := [0, 7, 56, 63].getD port 0

/-- A host port's link goes down, or is reset hot: sessions and streams end, and the post boxes sealed under its sessions halt; the site's
log has it (R370, R382). -/
def State.linkDown (s : State) (port : Nat) : State :=
  let s := s.logLink (hostSite port) 4
  let h := mget {} s.hostPorts port
  { s with
    hostPorts := mset s.hostPorts port { h with conn := 0, sessions := [], ide := [] }
    pbs := mmap (fun _ b => if b.sealedTo.isSome ∧ b.session / 4 = port then { b with halt := true, haltWhy := 3 } else b) s.pbs }

/-- What is assigned to a team that is saved out is freed; its clusters are other teams' (R303). -/
def State.freeSaved (s : State) (n : Nat) (t : Team) : State :=
  let s := s.dropParked n t
  { s with
    teams := s.teams.filter fun e => e.1 != n
    winColls := s.winColls.filter fun c => c.team != n
    dispatches := s.dispatches.filter fun d => d.team != n
    sites := mmap (fun _ x => x.freeTeam n) s.sites }

/-- The instances that hold a cluster of a site end: contexts of the site stop at once, others are killed; a JOIN part fails;
the letter's remaining instances are cancelled (R308, R344, R377). -/
def State.endTeam (s : State) (site n : Nat) (t : Team) : State :=
  let s := s.mapLetter t.pb t.letter fun l =>
    let l := { l with cause := l.cause.or (some 0x12) }
    if l.admittedAll then l else l.cancelRest
  let join := fld (t.words.getD 0 0) 0 4 == 3
  if t.phase = .running ∨ t.phase = .stopping then
    let s := s.setTeam n { t with phase := .running, noSave := true, trap := t.trap.or (some 0x12), failed := t.failed || join }
    (ctxsOf t.clusters).foldl (fun s g =>
      if siteOf (g / 4) = site then s.setCtx g {} else s.killCtx g) s
  else
    let s := if t.phase = .saved then s.freeSaved n t else s.freeTeam n t
    (s.mapLetter t.pb t.letter fun l => l.endOne (some 0x12) join).tryRetire t.pb t.letter

/-- A message of a site that restarts is lost; an operation whose packet it was records UNREACHABLE (R324). -/
def State.dropMsgs (s : State) (site : Nat) : State :=
  (s.net.filter fun m => siteOf m.dst == site || siteOf m.src == site).foldl (fun s m => s.discard m 8) s

/-- What a cluster keeps through a warm reset of its site: its channels and their retirement (R376, R378). -/
def Cluster.warm (c : Cluster) : Cluster :=
  { chans := c.chans, chState := c.chState, retiring := c.retiring, mbnd := c.mbnd, encFrames := c.encFrames }

/-- What a site keeps: fuses, seal tags, locks, the scrub engine, key slots, the error log, links, and the management core's own
registers of it (R365, R376). Its restart takes in one that it is in already: the earlier stage of the two stands, and stage 4 still fills
the HBM where it was to (R377); a site whose supply is removed restarts when it has cooled (R384). -/
def Site.warm (x : Site) (stage : Nat) : Site :=
  { fuses := x.fuses, clen := x.clen, moncl := x.moncl, sparePool := x.sparePool, tags := x.tags, slots := x.slots, elog := x.elog, elHead := x.elHead
    elLost := x.elLost, elRead := x.elRead, links := x.links, resLock := x.resLock, scrub := x.scrub, expert := x.expert, present := x.present
    sealOk := x.sealOk, stage := if x.off then none else some (min (x.stage.getD stage) stage), fill := x.fill, off := x.off
    throttle := x.throttle, dvfs := x.dvfs }

/-- Slots 1 to 63 of a site that are not EMPTY become ZEROISED (R365). -/
def State.zeroiseAll (s : State) (site : Nat) : State :=
  ((s.site site).slots.filter fun e => e.1 != 0).foldl (fun s e => s.zeroiseSlot site e.1) s

/-- A site restarts from a stage (R376, R377). -/
def State.siteReset (s : State) (site stage : Nat) : State :=
  let s := (s.teams.filter fun e => e.2.clusters.any fun cl => siteOf cl == site).foldl (fun s e => s.endTeam site e.1 e.2) s
  let s := (s.zeroiseAll site).dropMsgs site
  let s := ((List.range 32).filter fun p => portSite p == site && (s.port p).state != 0).foldl (fun s p => s.portDown p false) s
  { s with
    sites := mset s.sites site ((s.site site).warm stage)
    clusters := mmap (fun n c => if siteOf n = site then c.warm else c) s.clusters
    ctxs := s.ctxs.filter fun e => siteOf (e.1 / 4) != site }

/-- The panel's warm reset: every site, and every host port as for a link-down (R376). Before stage 4 it is taken into the full start-up
that is under way, and a panel that FAILED stays so: its stages 1 to 3 have not finished (R377, R378). -/
def State.panelWarm (s : State) : State :=
  let s := (List.range 64).foldl (fun s p => s.siteReset p 4) s
  { (List.range 4).foldl (fun s p => s.linkDown p) s with stage := if s.stage < 4 ∨ s.stage = 6 then s.stage else 4 }

/-- A panel of KS-S64L sites before start-up (R1). -/
def State.resetL : State := { State.reset with sites := tab (fun p => (p, Site.fused .s64L)) 64 }

/-- A cold reset, and power on: everything but the host's memory starts anew with the fuses' values, and a channel retired stays so
(R1, R273, R365, R376, R378); a site too hot for its supply stays without (R384). The model's own counter of free values and agenda go
on. -/
def State.cold (s : State) : State :=
  { State.reset with
    sites := s.sites.map fun e => (e.1, { Site.fused e.2.fuses with sparePool := e.2.sparePool, off := e.2.off })
    clusters := s.clusters.filterMap fun e => (e.2.nextChans (e.1 % 128)).map fun l => (e.1, { chans := some l })
    mem := s.mem.filter fun m => decide (spaceOf m.1 = 6), agenda := s.agenda, free := s.free }

/-! ## Start-up (R271, R378, R380) -/

/-- Local stores and pigeonhole memory of a site zeroed (R365, R378). -/
def State.zeroFast (s : State) (site : Nat) : State :=
  let mine (pa : Nat) : Bool := (spaceOf pa == 0 && siteOf (unitOf pa) == site) || (spaceOf pa == 2 && unitOf pa == site)
  { s with mem := s.mem.filter fun m => !mine m.1, bad := s.bad.filter fun w => !mine w, soft := s.soft.filter fun w => !mine w }

/-- HBM of a site filled with zero (R378). -/
def State.zeroHbm (s : State) (site : Nat) : State :=
  let mine (pa : Nat) : Bool := spaceOf pa == 1 && siteOf (unitOf pa) == site
  { s with mem := s.mem.filter fun m => !mine m.1, bad := s.bad.filter fun w => !mine w, soft := s.soft.filter fun w => !mine w }

/-- A site taken out: its links and ports are down (R380). -/
def State.siteOut (s : State) (site : Nat) : State :=
  let s := (List.range 14).foldl (fun s k =>
    let q := linkPeer site k
    let s := s.setLink site k { s.link site k with width := 3 }
    match linkTo q site with
    | none => s
    | some j => s.setLink q j { s.link q j with width := 3 }) s
  let s := ((List.range 32).filter fun p => portSite p == site).foldl (fun s p => s.portDown p false) s
  let hp := if site = 0 then some 0 else if site = 7 then some 1 else if site = 56 then some 2 else if site = 63 then some 3 else none
  let s := match hp with
    | some p => { s with hostPorts := mset s.hostPorts p { up := false } }
    | none => s
  let x := s.site site
  s.setSite site { x with present := false, clen := 0 }

/-- A channel that fails training is retired before use: a spare takes its place, or the slice reduces (R273, R380). -/
def State.retireUnused (s : State) (cl ch : Nat) : State :=
  let c := s.cl cl
  let x := s.site (siteOf cl)
  let l := c.chanList (cl % 128)
  if c.chState ≠ .normal ∨ l.length ≤ ch then s
  else match x.sparePool with
    | n :: rest => (s.setSite (siteOf cl) { x with sparePool := rest }).setCl cl { c with chans := some (setAt l ch n) }
    | [] => if l.length = 3 then s.setCl cl { c with chans := some (l.eraseIdx ch) } else s

/-- HBM training of a site: which channels of its enabled clusters fail is a free value (R378, R380; log 71). -/
def State.trainChannels (s : State) (site : Nat) : State :=
  (List.range 84).foldl (fun s i =>
    if !bit (s.site site).clen.toNat i then s
    else
      let (v, s) := s.fresh
      ((List.range 3).filter fun ch => bit v.toNat ch).foldl (fun s ch => s.retireUnused (128 * site + i) ch) s) s

/-- Substrate-link training of a site: how many lanes of each link fail is a free value; they are spared, or the link narrows (R324,
R380; log 71). -/
def State.trainLinks (s : State) (site : Nat) : State :=
  let (v, s) := s.fresh
  (List.range 14).foldl (fun s k => (List.range (fld v (4 * k) 4)).foldl (fun s _ => s.loseLane site k) s) s

/-- A site calibrated: clusters that fail their self-test are disabled; a site with none left, or that exceeds the bound, is out;
one whose monitor cluster fails has no key slots, not even slot 0 (R380). What fails is a free value. A site without its supply waits, and
stage 4 fills the HBM of a calibrated one (R378, R384). -/
def State.calibrate (s : State) (site : Nat) : State :=
  let (a, s) := s.fresh
  let (b, s) := s.fresh
  let failed : BitVec 84 := BitVec.ofNat 84 (a.toNat + fld b 0 20 * 2 ^ 64)
  let x := s.site site
  let left := x.clen &&& ~~~ failed
  let ok := x.sealOk && fld b 62 1 == 0
  if x.off then s
  else if left = 0 ∨ fld b 63 1 = 1 then s.siteOut site
  else (((s.setSite site { x with clen := left, sealOk := ok, slots := if ok then x.slots else [], fill := true }).trainChannels site).trainLinks site)

/-- The monitor firmware loaded into a site's monitor region (R271, R378). -/
def State.loadFirmware (s : State) (site : Nat) : State :=
  { s with mem := (Config.firmware site).foldl (fun m e => writeByte m (pigAt site (monBase + e.1 % 0x800000)) e.2) s.mem }

/-- The end of a site's stage 4: its HBM filled where stage 4 was entered from stage 3, its fast memories zeroed, its monitor region loaded
(R378). -/
def State.endStage4 (s : State) (site : Nat) : State :=
  if (s.site site).off then s
  else
    let s := ((if (s.site site).fill then s.zeroHbm site else s).zeroFast site).loadFirmware site
    let x := s.site site
    s.setSite site { x with stage := none, fill := false }

/-- A site's own restart goes one stage on (R376, R378, R384). -/
def State.siteStage (s : State) (site : Nat) : State :=
  match (s.site site).stage with
  | none => s
  | some 3 =>
    let s := s.calibrate site
    let x := s.site site
    s.setSite site { x with stage := some 4 }
  | some _ => s.endStage4 site

/-- Start-up FAILED with a code (R378). -/
def State.startFail (s : State) (code : Nat) : State := { s with stage := 6, failCode := code }

/-- Stage 1 verifies the firmware and derives the identity key; stage 2 measures, certifies the alias key and installs slot 0; stage 3
calibrates; stage 4 zeroes, once no site is at stage 3 of a restart of its own. Whether a measurement fails, and what calibration finds,
are free values (R346, R366, R378). At READY sites restart, and the run-time measurements go on. -/
def State.advanceStage (s : State) : State :=
  match s.stage with
  | 1 => if romOk then { s with stage := 2, devIdentity := Config.identityKey } else s.startFail 1
  | 2 =>
    let (v, s) := s.fresh
    if fld v 0 1 = 1 then s.startFail 2
    else
      let s := ((List.range 5).foldl (fun s k => s.extend k (Config.measure k)) s).certify
      let s := (List.range 64).foldl (fun s p => s.installSlot0 p) s
      { s.extend 5 (Config.platformSigner 0) with stage := 3 }
  | 3 =>
    let s := (List.range 64).foldl (fun s p => s.calibrate p) s
    if (List.range 64).any fun p => (s.site p).present then { s with stage := 4 } else s.startFail 3
  | 4 =>
    let late := (List.range 64).filter fun p => (s.site p).stage == some 3
    if late.isEmpty then { (List.range 64).foldl (fun s p => s.endStage4 p) s with stage := 5 } else late.foldl (fun s p => s.siteStage p) s
  | 5 => ((List.range 64).foldl (fun s p => s.siteStage p) s).measureMore
  | _ => s

/-- R378: start-up, or the restart of a site, goes one stage on. -/
def execStartupStageAdvance (s : State) : Out := .next s.advanceStage

/-! ## Resets and links as steps (R370, R376) -/

/-- R376: PANELCTL.COLD. -/
def execPanelctlCold (s : State) : Out := .next s.cold
/-- R376: power on. -/
def execPowerOn (s : State) : Out := .next { s.cold with mem := [], sites := mmap (fun _ x => { x with off := false }) s.cold.sites }
/-- R376: PANELCTL.WARM. -/
def execPanelctlWarm (s : State) : Out := .next s.panelWarm
/-- R376, R377: PANELCTL.SITEWARM. -/
def execPanelctlSitewarm (site : Nat) (s : State) : Out := .next (s.siteReset site 4)
/-- R370: a hot reset or link-down of a host port. -/
def execHostLinkDown (port : Nat) (s : State) : Out := .next (s.linkDown port)

/-! ## Power and cooling (R34, R384, R385) -/

/-- R384: a site at 95 °C lowers ACLK by a step. Cycle counts do not change. -/
def execThermalThrottle (site : Nat) (s : State) : Out :=
  let x := s.site site
  .next (s.setSite site { x with throttle := x.throttle + 1 })
/-- R384: a site at 110 °C loses its supply; its instances end as R377 gives. -/
def execThermalShutdown (site : Nat) (s : State) : Out :=
  let s := s.siteReset site 3
  let x := s.site site
  .next (s.setSite site { x with off := true, stage := none })
/-- R384: below 60 °C the site restarts at stage 3. -/
def execThermalRestart (site : Nat) (s : State) : Out :=
  let x := s.site site
  .next (if x.off then s.setSite site { x with off := false, stage := some 3, throttle := 0 } else s)
/-- R385: coolant flow below 45 L/min for more than a second. -/
def execCoolantFlowLow (s : State) : Out := .next s.panelWarm
/-- R384: a DVFS change alters ACLK, and no cycle count (R34, R88). -/
def execDvfsChange (site : Nat) (s : State) : Out :=
  let (v, s) := s.fresh
  let x := s.site site
  .next (s.setSite site { x with dvfs := v })

/-! ## BAR 0 and BAR 2 (R294, R373, R382, R383) -/

/-- PBCTL (R294). -/
def PostBox.ctl (b : PostBox) : Nat := b.weight * 2 ^ 12 + b.cls * 4 + bn b.preempt * 2 + bn b.en
/-- PBSTAT (R294). -/
def PostBox.stat (b : PostBox) : Nat := b.drop * 2 ^ 48 + bn b.sealedTo.isSome * 512 + bn b.halt * 256 + b.letters.length
/-- PBCRES (R294). -/
def PostBox.res (b : PostBox) : Nat := b.taker % 65536 * 65536 + b.cstatus

/-- SITECAP (R383). -/
def Site.cap (x : Site) : Nat :=
  bn x.present * 2 ^ 15 + bn x.sealOk * 2 ^ 14 + x.sparePool.length % 128 * 2 ^ 7 + popc x.clen.toNat 84

/-- Word k of entry n of a site's error log (R382). -/
def Site.logWord (x : Site) (n k : Nat) : W64 :=
  let e := mget { w0 := 0, w1 := 0, w2 := 0, w3 := 0 } x.elog n
  match k with
  | 0 => e.w0
  | 1 => e.w1
  | 2 => e.w2
  | _ => e.w3

/-- The 8-byte register at an offset of BAR 0 or, at READY, of BAR 2, as the host reads it; offsets that no table names read 0 (R294,
R373, R379, R382, R383). -/
def State.hostValue (s : State) (bar off : Nat) : Nat :=
  if bar = 2 then
    let b := s.pb (off / 4096)
    let o := off % 4096
    if o < 0x80 then (mget 0 b.win (o / 8)).toNat
    else match o with
      | 0x100 => b.ctl
      | 0x108 => b.stat
      | 0x118 => b.res
      | _ => 0
  else if 0x200000 ≤ off ∧ off < 0x400000 then
    ((s.site ((off - 0x200000) / 0x8000)).logWord (off % 0x8000 / 32) (off % 32 / 8)).toNat
  else if 0x800 ≤ off ∧ off < 0xA00 then (s.site ((off - 0x800) / 8)).cap
  else if 0xC00 ≤ off ∧ off < 0xE00 then bn (s.site ((off - 0xC00) / 8)).expert
  else if 0x1000 ≤ off ∧ off < 0x1200 then
    let x := s.site ((off - 0x1000) / 8)
    x.elLost * 2 ^ 32 + x.elHead % 2 ^ 32
  else match off with
    | 0 => s.failCode * 256 + s.stage
    | 8 => s.panelId * 2 ^ 16 + s.panelSite * 2 ^ 10
    | 0x10 => s.b4win.toNat
    | _ => 0

/-- What a read of BAR 0 or BAR 2 completes with: before READY, Completer Abort for BAR 2 (R379). -/
def State.hostRead (s : State) (bar off : Nat) : Reply := if bar = 2 ∧ s.stage ≠ 5 then .abort else .value (s.hostValue bar off)

/-- R383: ELSTAT of a site read, which clears LOST. -/
def execElstatRead (site : Nat) (s : State) : Out :=
  let v := s.hostRead 0 (0x1000 + 8 * site)
  let x := s.site site
  .next { s.setSite site { x with elLost := 0, elRead := x.elHead } with reply := v }

/-- R381, R383: SITECTL.EXPERT of a site written. -/
def execSitectlExpertWrite (site : Nat) (on : Bool) (s : State) : Out :=
  let x := s.site site
  .next (s.setSite site { x with expert := on })

/-- PANELCTL written: PANELID before READY, SITE, and the resets asked for, the widest first (R376, R383). -/
def State.writePanelctl (s : State) (v : W64) : State :=
  let s := { s with panelSite := fld v 10 6, panelId := if s.stage < 5 then fld v 16 8 else s.panelId }
  if fld v 0 1 = 1 then s.cold else if fld v 1 1 = 1 then s.panelWarm else if fld v 2 1 = 1 then s.siteReset (fld v 10 6) 4 else s

/-- A post-box register written (R294, R308). A new weight is the credit it starts at. -/
def State.writeBox (s : State) (off : Nat) (v : W64) : State :=
  let p := off / 4096
  let b := s.pb p
  if off % 4096 = 0x100 then
    let w := fld v 12 4
    s.setPb p { b with weight := w, cls := fld v 2 2, preempt := fld v 1 1 == 1, en := fld v 0 1 == 1, credit := if w = b.weight then b.credit else w + 1 }
  else if off % 4096 = 0x110 then s.setPb p { b with cancel := some (fld v 0 16), cstatus := 0, taker := 0 }
  else s

/-- R294, R379, R383: an 8-byte write of the host to a register of BAR 0 or BAR 2; reserved, read-only and unnamed fields
ignore it. -/
def execHostRegisterWrite (bar off : Nat) (v : W64) (s : State) : Out :=
  if bar = 2 then .next (if s.stage = 5 ∧ off / 4096 < 4096 then s.writeBox off v else s)
  else if bar ≠ 0 then .next s
  else if off = 0x0008 then .next (s.writePanelctl v)
  else if off = 0x0010 then .next { s with b4win := BitVec.ofNat 64 (fld v 30 18 * 2 ^ 30 + fld v 7 8 * 2 ^ 7 + fld v 0 6) }
  else if 0xC00 ≤ off ∧ off < 0xE00 ∧ off % 8 = 0 then
    let x := s.site ((off - 0xC00) / 8)
    .next (s.setSite ((off - 0xC00) / 8) { x with expert := fld v 0 1 == 1 })
  else .next s

/-- The size of a BAR (R373). -/
def barSize (bar : Nat) : Nat := if bar = 0 then 0x400000 else if bar = 2 then 0x1000000 else if bar = 4 then 0x40000000 else 0

/-- R383: an access outside a BAR's implemented range. -/
def execHostUnimplementedAccess (bar off : Nat) (wr : Bool) (s : State) : Out :=
  if off < barSize bar then .next s
  else .next { s.logEntry 0 4 none 0 4 off 0 with reply := if wr then .none else .abort }

/-! ## BAR 4 (R252, R374, R375, R379) -/

/-- The home of byte x of the memory that B4WIN selects; none past its end or in a hole. -/
def State.b4Home (s : State) (x : Nat) : Option Nat :=
  let w := s.b4win
  let site := fld w 0 6
  if fld w 14 1 = 1 then (if x < pigSize then some (pigAt site x) else none)
  else
    let cl := site * 128 + fld w 7 7
    if fld w 7 7 < 84 ∧ !s.isMon cl ∧ x < sliceSize then s.slicePa cl x else none

/-- The host may reach a byte of the selected memory: it exists, and its frame is tagged to no slot (R271, R354, R374). -/
def State.b4Open (s : State) (x : Nat) : Bool := match s.b4Home x with
  | some a => !s.refused (fld s.b4win 0 6 * 128 + 127) a {}
  | none => false

/-- The home of an access of n bytes inside the window, where the host may make it: every frame that it touches is open, at its first
byte and at each frame's start (R374). -/
def State.b4Access (s : State) (off n : Nat) : Option Nat :=
  let x := fld s.b4win 30 18 * 2 ^ 30 + off
  let frames := (x + max n 1 - 1) / 32768 - x / 32768
  if off + n ≤ 2 ^ 30 ∧ s.b4Open x ∧ (List.range frames).all fun i => s.b4Open ((x / 32768 + i + 1) * 32768) then s.b4Home x else none

/-- A refused access is logged at the site (R374). -/
def State.b4Refuse (s : State) (off : Nat) : State :=
  s.logEntry (fld s.b4win 0 6) 2 none 0 4 ((fld s.b4win 30 18 * 2 ^ 30 + off) % 2 ^ 64) 0

/-- R374, R379: n bytes read through BAR 4, at their home. A word that holds an uncorrectable error is logged, and gives a
free value. -/
def execBar4Read (off n : Nat) (s : State) : Out :=
  if s.stage ≠ 5 then .next { s with reply := .abort }
  else match s.b4Access off n with
    | none => .next { s.b4Refuse off with reply := .abort }
    | some pa =>
      let s := s.readAt (s.reporter pa none) pa n
      if s.badAt pa n then
        let (v, s) := s.fresh
        .next { s.logEntry (fld s.b4win 0 6) 1 none 0 4 (offOf pa) 0 with reply := .value v.toNat }
      else .next { s with reply := .value (s.load pa n) }

/-- R374, R379: the low n bytes of a value written through BAR 4, at their home. -/
def execBar4Write (off n : Nat) (v : W64) (s : State) : Out :=
  if s.stage ≠ 5 then .next s
  else match s.b4Access off (min n 8) with
    | none => .next (s.b4Refuse off)
    | some pa => .next (s.perform pa (min n 8) (v.toNat % 2 ^ (8 * min n 8)))

/-! ## SPDM (R367, R368) -/

def State.hostPort (s : State) (p : Nat) : HostPort := mget {} s.hostPorts p
def State.setHostPort (s : State) (p : Nat) (h : HostPort) : State := { s with hostPorts := mset s.hostPorts p h }

/-- The answer is given, and what the DOE mailbox then holds is a request whose form is free (R367; log 101). -/
def State.nextRequest (s : State) (port : Nat) : State :=
  let (v, s) := s.fresh
  s.setHostPort port { s.hostPort port with doe := v.getLsbD 0 }

/-- A request answered where it is well formed and the order of R367 admits it; else ERROR with InvalidRequest or UnexpectedRequest, and no
state changes. -/
def spdm (ok : HostPort → Bool) (port : Nat) (s : State) (k : State → HostPort → State) : Out :=
  let h := s.hostPort port
  if !h.up then .next { s with reply := .none }
  else if h.doe then .next ({ s with reply := .invalid }.nextRequest port)
  else if ok h then .next ((k s h).nextRequest port)
  else .next ({ s with reply := .unexpected }.nextRequest port)

/-- The connection has reached a point of the order of R367. -/
def connAt (n : Nat) (h : HostPort) : Bool := h.conn == n
/-- Algorithms are agreed. -/
def agreed (h : HostPort) : Bool := h.conn == 3
/-- Session i of the port is live. -/
def sessionAt (st i : Nat) (h : HostPort) : Bool := decide (i < 4) && (mget {} h.sessions i).st == st

/-- A response with its contents. -/
def State.answerSpdm (s : State) (body : List Nat) : State := { s with reply := .spdm body }

/-- A running transcript hash with the bytes of one more request and its response, which are free (R367; log 101). -/
def State.note (s : State) (v : W384) : W384 × State :=
  let (m, s) := s.fresh384
  (Config.sha384 96 (v.toNat + m.toNat * 2 ^ 384), s)

/-- The capability flags: CERT, CHAL, MEAS with signature, ENCRYPT, MAC, KEY_EX (R367; their places are SPDM's, log 101). -/
def capFlags : Nat := 0x2D6

/-- The algorithms selected: DMTF measurements, SHA-384 for them, ECDSA P-384, SHA-384, secp384r1, AES-256-GCM, the SPDM key schedule (R367;
their places are SPDM's, log 101). -/
def algorithms : List Nat := [1, 4, 0x80, 2, 0x10, 2, 1]

/-- The SHA-384 digest of the certificate chain (R367). -/
def State.chainDigest (s : State) : W384 := Config.sha384 (96 * s.certs.length) (pack 768 (s.certs.map (·.toNat)))

/-- R367: GET_VERSION, at any time: the connection starts again and its sessions end. IDE streams go on. -/
def execGetVersion (port : Nat) (s : State) : Out :=
  spdm (fun _ => true) port s fun s h =>
    let (v, s) := s.note 0
    (s.setHostPort port { h with conn := 1, sessions := [], vca := v, m12 := 0, l12 := 0 }).answerSpdm [0x13]
/-- R367: GET_CAPABILITIES. -/
def execGetCapabilities (port : Nat) (s : State) : Out :=
  spdm (connAt 1) port s fun s h =>
    let (v, s) := s.note h.vca
    (s.setHostPort port { h with conn := 2, vca := v }).answerSpdm [capFlags]
/-- R367: NEGOTIATE_ALGORITHMS. The transcripts of CHALLENGE and GET_MEASUREMENTS begin with the set-up's. -/
def execNegotiateAlgorithms (port : Nat) (s : State) : Out :=
  spdm (connAt 2) port s fun s h =>
    let (v, s) := s.note h.vca
    (s.setHostPort port { h with conn := 3, vca := v, m12 := v, l12 := v }).answerSpdm algorithms
/-- R367: GET_DIGESTS, of certificate slot 0. -/
def execGetDigests (port : Nat) (s : State) : Out :=
  spdm agreed port s fun s h =>
    let (v, s) := s.note h.m12
    (s.setHostPort port { h with m12 := v }).answerSpdm [s.chainDigest.toNat]
/-- R367: GET_CERTIFICATE, of certificate slot 0. -/
def execGetCertificate (port : Nat) (s : State) : Out :=
  spdm agreed port s fun s h =>
    let (v, s) := s.note h.m12
    (s.setHostPort port { h with m12 := v }).answerSpdm (s.certs.map (·.toNat))
/-- R367: CHALLENGE: the chain's digest, and the signature by the alias key over the transcript. -/
def execChallenge (port : Nat) (s : State) : Out :=
  spdm agreed port s fun s h =>
    let (v, s) := s.note h.m12
    (s.setHostPort port { h with m12 := h.vca }).answerSpdm [s.chainDigest.toNat, (Config.sign s.devAlias v).toNat]

/-- The blocks of a measurement index, none where it is not served (R367, R385). The coolant report is a free value. -/
def State.measurements (s : State) (ix : Nat) : Option (List Nat × State) :=
  if 1 ≤ ix ∧ ix ≤ 16 then some ([(mget 0 s.measured (ix - 1)).toNat], s)
  else if ix = 0xF0 then
    let (v, s) := s.fresh
    some ([v.toNat], s)
  else if ix = 0xFF then some (tab (fun k => (mget 0 s.measured k).toNat) 16, s)
  else none

/-- R367: GET_MEASUREMENTS: the blocks, signed by the alias key over the transcript. -/
def execGetMeasurements (port ix : Nat) (s : State) : Out :=
  spdm agreed port s fun s h => match s.measurements ix with
    | some (ms, s) =>
      let (v, s) := s.note h.l12
      (s.setHostPort port { h with l12 := h.vca }).answerSpdm (ms ++ [(Config.sign s.devAlias v).toNat])
    | none => { s with reply := .invalid }

/-- R367: KEY_EXCHANGE opens the lowest session of the port that is free, and is signed over the session's transcript; with none it is
refused. -/
def execKeyExchange (port : Nat) (s : State) : Out :=
  spdm agreed port s fun s h =>
    match (List.range 4).find? fun i => (mget {} h.sessions i).st == 0 with
    | none => { s with reply := .invalid }
    | some i =>
      let (th, s) := s.note h.vca
      (s.setHostPort port { h with sessions := mset h.sessions i { st := 1, th := th } }).answerSpdm [port * 4 + i, (Config.sign s.devAlias th).toNat]

/-- R347, R367: FINISH: the session is live, with its final transcript hash and its export master secret, by that hash and the secret
shared by DHE, which is free. -/
def execFinish (port i : Nat) (s : State) : Out :=
  spdm (sessionAt 1 i) port s fun s h =>
    let (th, s) := s.note (mget {} h.sessions i).th
    let (dhe, s) := s.fresh384
    (s.setHostPort port { h with sessions := mset h.sessions i { st := 2, ems := Config.exportSecret th dhe, th := th } }).answerSpdm []

/-- R367: END_SESSION inside a session. -/
def execEndSession (port i : Nat) (s : State) : Out :=
  spdm (fun h => sessionAt 2 i h || sessionAt 1 i h) port s fun s h => (s.setHostPort port { h with sessions := mset h.sessions i {} }).answerSpdm []

/-- R367: a request that the responder does not list. -/
def execUnlistedSpdmRequest (port : Nat) (s : State) : Out :=
  .next (if (s.hostPort port).up then { s with reply := .unsupported }.nextRequest port else { s with reply := .none })

/-- R367, R368: IDE_KM QUERY inside a live session: the port and its streams. -/
def execIdeKmQuery (port i : Nat) (s : State) : Out :=
  spdm (sessionAt 2 i) port s fun s h => s.answerSpdm (port :: tab (fun k => mget 0 h.ide k) 5)

/-- An IDE_KM message for a stream: the link stream 0, or a selective stream 1 to 4 (R368). -/
def ideKm (port i st : Nat) (s : State) (f : Nat → Option Nat) : Out :=
  spdm (sessionAt 2 i) port s fun s h =>
    if 5 ≤ st then { s with reply := .invalid }
    else match f (mget 0 h.ide st) with
      | none => { s with reply := .invalid }
      | some v => (s.setHostPort port { h with ide := mset h.ide st v }).answerSpdm [st]

/-- R368: KEY_PROG: a stream's keys are programmed; a running stream goes on running. -/
def execIdeKmKeyProg (port i st : Nat) (s : State) : Out := ideKm port i st s fun v => some (max v 1)
/-- R368: K_SET_GO: a stream with keys runs. -/
def execIdeKmKSetGo (port i st : Nat) (s : State) : Out := ideKm port i st s fun v => if v = 0 then none else some 2
/-- R368: K_SET_STOP: the stream stops. -/
def execIdeKmKSetStop (port i st : Nat) (s : State) : Out := ideKm port i st s fun v => if v = 0 then none else some 1

end Sys2Proof.Machine
end

