-- ==== Sys2Proof/Machine/Agenda.lean ====
section
/-! DEFINITION. The agent steps that come between the cycles of clusters (log 5). A step that cannot move leaves the
state as it is, so that the list may name more than can. -/
namespace Sys2Proof.Machine

/-- The step of a message that has reached its cluster. -/
noncomputable def Msg.event (m : Msg) : Instr := match m.act with
  | .ringRow _ _ _ _ _ _ _ => .ringMulticastRow m.id
  | .credit _ _ _ _ _ => .ringCreditReturn m.id
  | .req _ => .remoteRequestArrival m.id
  | .accepted _ => .remoteResponseArrival m.id
  | .applied _ _ => .remoteResponseArrival m.id
  | .data _ _ _ _ => .remoteResponseArrival m.id
  | .reject _ _ => .remoteResponseArrival m.id
  | .stale _ => .remoteResponseArrival m.id
  | .transReq _ _ _ _ _ _ _ _ => .translationRequest m.id
  | .transOk _ => .translationReply m.id
  | .transFail _ _ _ _ _ _ => .translationReply m.id
  | .inval _ _ _ => .tokenInvalidation m.id
  | .invalAck _ _ => .tokenInvalidationAck m.id
  | .winNotice _ _ _ _ => .windowCollectiveNotice m.id
  | .closeNotice _ _ _ => .fenceCloseNotice m.id
  | .post _ _ _ _ => .postNotice m.id
  | .compl _ _ _ _ => .completeNotice m.id
  | .lockReq _ _ => .lockRequest m.id
  | .unlock _ _ => .lockRelease m.id
  | .lockGrant _ _ _ => .lockRequest m.id
  | .ack _ => .lockRelease m.id
  | .winEnd _ _ _ _ => .windowCollectiveNotice m.id
  | .head _ => .headAnnouncement m.id
  | .counts _ _ _ _ _ _ => .dispatchCountExchange m.id
  | .cancel _ _ => .cancelArrival m.id
  | .chunk id _ _ _ _ _ _ _ => .collectiveChunk (siteOf m.dst) (id % 8)
  | .more _ _ => .fabricPacketHop m.id

/-- The fabric's steps: a hop for a message on its way, its arrival, mailbags, packets held at a port. -/
noncomputable def State.netEvents (s : State) : List Instr :=
  (s.bags.flatMap fun b => [.mailbagWaitExpiry b.src b.dst, .mailbagArrival b.src b.dst]) ++
  (s.net.map fun m => if (s.arrived m.id).isSome then m.event else .fabricPacketHop m.id) ++
  (List.range (s.clusters.foldl (fun n c => n + c.2.held.length) 0)).map .orderedPacketRelease

/-- The steps by which a slice controller moves bank sets to lower power states, refreshes rows, and retires channels (R273, R279,
R281). -/
noncomputable def State.sliceEvents (s : State) (cl : Nat) : List Instr :=
  let c := s.cl cl
  (c.sets.flatMap fun k =>
    (if c.napDue k then [Instr.bankSetNap cl k] else []) ++ (if s.lowDue cl k && c.setReady k then [.bankSetRetain cl k] else []) ++
      if s.deepDue cl k then [.bankSetDeep cl k] else []) ++
  ((c.rowCnt.filter fun r => c.rowDue r.1).map fun r => .rowActivationRefresh cl r.1) ++
  (if c.retiring.isSome then [.granuleMove cl, .retirementComplete cl]
    else ((List.range c.nChan).filter fun ch => s.retireDue cl ch).map fun ch => .channelRetirementStart cl ch)

/-- The steps of a cluster's engines, loader, L1, slice and write queues, and of a key rotation. -/
noncomputable def State.clusterEvents (s : State) (cl : Nat) : List Instr :=
  let c := s.cl cl
  (c.loader.zipIdx.map fun l => match l.1.src with
    | .tile _ _ => .oloadCompletion cl l.2
    | .ring _ _ _ => .ofillCompletion cl l.2) ++
  (c.engines.flatMap fun e => [.engineCommandStart cl e.1, .mmaRepetitionAccept cl e.1, .mmaCompletion cl e.1, .mstCompletion cl e.1,
    .drainRowDelivery cl e.1]) ++
  (c.l1Miss.map fun l => .l1MissFill cl l) ++ (c.pgmaps.map fun _ => .pgmapCompletion cl) ++
  s.sliceEvents cl ++
  (c.wqs.flatMap fun q => [.writeQueueWatermarkDrain cl q.1, .writeQueueAgeDrain cl q.1]) ++
  (if c.kbActive then [.keyRotationGranule cl] else [])

/-- The steps of a context's rings, streams and results. -/
noncomputable def State.ctxEvents (s : State) (g : Nat) : List Instr :=
  let c := s.ctx g
  (c.inflight.map fun f => .interlockedResultArrival g f.id) ++
  (c.rings.flatMap fun r => [.recvRegistration g r.1, .ringRowLanding g r.1, .ringRowWriteAccept g r.1, .ringBoundRowDelivery g r.1]) ++
  (c.qs.filterMap fun q => q.2.bound.map fun _ => .boundQueueDelivery g q.1) ++
  (if c.cstate = .compensate then [.compensatedResultArrival g] else []) ++
  (if c.live = .exiting then [.contextExitCompletion g] else if c.live = .run then [.contextPreemptionStop g] else [])

/-- The steps of the sites: pigeonhole banks, sorting offices, scrub engines, the end of a key rotation. -/
noncomputable def State.siteEvents (s : State) : List Instr :=
  s.sites.flatMap fun x =>
    (x.2.pigQueue.map fun r => .pigeonholeBankAccess x.1 (pigBank r.pa)) ++
    (if x.2.office.isEmpty then [] else (List.range 8).map fun ch => .collectiveChunk x.1 ch) ++
    (if x.2.scrub.active then [.scrubUnit x.1, .scrubComplete x.1] else []) ++
    (if x.2.slots.any fun e => e.2.st == .rotating then [.keyRotationComplete x.1] else [])

/-- The steps of the Iczer ports (R338 to R341). -/
noncomputable def State.portEvents (s : State) : List Instr :=
  s.ports.flatMap fun p =>
    if p.2.state = 0 then (if s.stage = 5 then [.iczerLinkRetrain p.1] else [])
    else (if p.2.rx.isEmpty then [] else [Instr.iczerGroupArrival p.1 true]) ++ [.iczerIdleFill p.1, .iczerRekey p.1, .iczerCounterExhausted p.1]

/-- The steps of the instances and of the dispatcher. -/
noncomputable def State.teamEvents (s : State) : List Instr :=
  (s.teams.flatMap fun t => match t.2.phase with
    | .placed => [.gangStart t.1, .joinTimeout t.1]
    | .joining => [.joinTimeout t.1]
    | .stopping => [.contextSave t.1, .instanceCompletion t.1]
    | .saved => [.teamResumption t.1]
    | .running => [.instanceCompletion t.1]) ++
  (if s.pbs.any fun b => !b.2.letters.isEmpty || b.2.cancel.isSome then
      (s.pbs.flatMap fun b => [.completionWriteLetter b.1, .completionWaitPoll b.1, .letterAging b.1]) ++ [.schedulingDecision]
    else []) ++
  (if s.stage ≤ 5 then [.startupStageAdvance] else [])

/-- The agent steps that may come next. -/
noncomputable def State.nextEvents (s : State) : List Instr :=
  (s.ctxs.flatMap fun c => s.ctxEvents c.1) ++ (s.clusters.flatMap fun c => s.clusterEvents c.1) ++ s.siteEvents ++ s.netEvents ++
  s.portEvents ++ s.teamEvents

/-- The clusters that the machine has used, and those with a running context. -/
def State.usedClusters (s : State) : List Nat := (s.clusters.map Prod.fst ++ (s.ctxs.map Prod.fst).map fun g => g % 2 ^ 40 / 4).dedup
def State.runClusters (s : State) : List Nat := ((s.ctxs.filter fun c => c.2.live == .run).map fun c => c.1 / 4).dedup

/-- The cycles that pass next: that of the next cluster, in order of number, with a running context, and, each time round, one of
every cluster without (log 5). -/
noncomputable def State.cycles (s : State) : List Instr :=
  let run := s.runClusters
  let idle := (s.usedClusters.filter fun n => !run.contains n).map Instr.aclkCycle
  match run.find? fun n => decide (s.clNo < n), run with
  | some n, _ => [.aclkCycle n]
  | none, n :: _ => idle ++ [.aclkCycle n]
  | none, [] => if idle.isEmpty then [.aclkCycle s.clNo] else idle

/-- An entry that the agenda may hold: a step of an agent that names places the device has. -/
noncomputable def isAgentStep (i : Instr) : Bool := i.wf && (encode i).isNone

/-- The agents' turns after a cycle of a cluster: each of their steps, then the cycles that pass next (log 5). -/
noncomputable def State.turns (s : State) : List Instr := (s.nextEvents ++ s.cycles).filter isAgentStep

end Sys2Proof.Machine
end

