-- ==== Sys2Proof/Machine/ScalarFp.lean ====
section
/-! DEFINITION. Scalar floating point: majors 0x18 to 0x1B (R138 to R141). -/
namespace Sys2Proof.Machine

/-- A format's operand taken from the low bits of a register, and a result with the bits above it zero (R138). -/
def fbits (f : FFmt) (x : W64) : Nat := x.toNat % 2 ^ f.width

/-- D := f A B in format t, rounded in FCTL.RM, landing 4 cycles on with its flags (R139). -/
def fbin (t : FFmt) (f : FFmt → RMode → Nat → Nat → Nat × Flags) (d a b : BitVec 6) (s : State) : Out :=
  gate 0 [.x a.toNat, .x b.toNat] [.x d.toNat] s fun s =>
    let (x, s) := s.readX a.toNat
    let (y, s) := s.readX b.toNat
    let (r, fl) := f t s.rm (fbits t x) (fbits t y)
    .next (s.fix 4 (.x d.toNat (BitVec.ofNat 64 r)) fl)

/-- D := A × B + D with one rounding (R139). -/
def ffma (t : FFmt) (d a b : BitVec 6) (s : State) : Out :=
  gate 0 [.x d.toNat, .x a.toNat, .x b.toNat] [.x d.toNat] s fun s =>
    let old := s.me.getX d.toNat
    let (x, s) := s.readX a.toNat
    let (y, s) := s.readX b.toNat
    let (r, fl) := fFma t s.rm (fbits t x) (fbits t y) (fbits t old)
    .next (s.fix 4 (.x d.toNat (BitVec.ofNat 64 r)) fl)

/-- c := the comparison of A and B, landing 4 cycles on (R140). -/
def fcmp (t : FFmt) (k : FCmp) (c : BitVec 3) (a b : BitVec 6) (s : State) : Out :=
  gate 0 [.x a.toNat, .x b.toNat] [.c c.toNat] s fun s =>
    let (x, s) := s.readX a.toNat
    let (y, s) := s.readX b.toNat
    let (r, fl) := fCmp t k (fbits t x) (fbits t y)
    .next (s.fix 4 (.c c.toNat r) fl)

/-- D := a conversion of A, landing 4 cycles on (R141). -/
def fcvt (f : RMode → W64 → W64 × Flags) (d a : BitVec 6) (s : State) : Out :=
  gate 0 [.x a.toNat] [.x d.toNat] s fun s =>
    let (x, s) := s.readX a.toNat
    let (r, fl) := f s.rm x
    .next (s.fix 4 (.x d.toNat r) fl)

/-- A conversion whose result is a word of a format. -/
def toW (r : Nat × Flags) : W64 × Flags := (BitVec.ofNat 64 r.1, r.2)

def execFaddF32 (d a b : BitVec 6) (s : State) : Out := fbin f32 fAdd d a b s
def execFsubF32 (d a b : BitVec 6) (s : State) : Out := fbin f32 fSub d a b s
def execFmulF32 (d a b : BitVec 6) (s : State) : Out := fbin f32 fMul d a b s
/-- R91, R139: a division is interlocked. -/
def fdivI (t : FFmt) (d a b : BitVec 6) (s : State) : Out :=
  gate 0 [.x a.toNat, .x b.toNat] [.x d.toNat] s fun s =>
    let (x, s) := s.readX a.toNat
    let (y, s) := s.readX b.toNat
    let (r, fl) := fDiv t s.rm (fbits t x) (fbits t y)
    .next (s.inter [.x d.toNat] (some [.x d.toNat (BitVec.ofNat 64 r)]) fl)
/-- R91, R139: a square root is interlocked. -/
def fsqrtI (t : FFmt) (d a : BitVec 6) (s : State) : Out :=
  gate 0 [.x a.toNat] [.x d.toNat] s fun s =>
    let (x, s) := s.readX a.toNat
    let (r, fl) := fSqrt t s.rm (fbits t x)
    .next (s.inter [.x d.toNat] (some [.x d.toNat (BitVec.ofNat 64 r)]) fl)
def execFdivF32 (d a b : BitVec 6) (s : State) : Out := fdivI f32 d a b s
def execFsqrtF32 (d a : BitVec 6) (s : State) : Out := fsqrtI f32 d a s
def execFminF32 (d a b : BitVec 6) (s : State) : Out := fbin f32 (fun t _ => fMinMax t false) d a b s
def execFmaxF32 (d a b : BitVec 6) (s : State) : Out := fbin f32 (fun t _ => fMinMax t true) d a b s
def execFfmaF32 (d a b : BitVec 6) (s : State) : Out := ffma f32 d a b s
def execFaddF64 (d a b : BitVec 6) (s : State) : Out := fbin f64 fAdd d a b s
def execFsubF64 (d a b : BitVec 6) (s : State) : Out := fbin f64 fSub d a b s
def execFmulF64 (d a b : BitVec 6) (s : State) : Out := fbin f64 fMul d a b s
def execFdivF64 (d a b : BitVec 6) (s : State) : Out := fdivI f64 d a b s
def execFsqrtF64 (d a : BitVec 6) (s : State) : Out := fsqrtI f64 d a s
def execFminF64 (d a b : BitVec 6) (s : State) : Out := fbin f64 (fun t _ => fMinMax t false) d a b s
def execFmaxF64 (d a b : BitVec 6) (s : State) : Out := fbin f64 (fun t _ => fMinMax t true) d a b s
def execFfmaF64 (d a b : BitVec 6) (s : State) : Out := ffma f64 d a b s
def execFeqF32 (c : BitVec 3) (a b : BitVec 6) (s : State) : Out := fcmp f32 .eq c a b s
def execFltF32 (c : BitVec 3) (a b : BitVec 6) (s : State) : Out := fcmp f32 .lt c a b s
def execFleF32 (c : BitVec 3) (a b : BitVec 6) (s : State) : Out := fcmp f32 .le c a b s
def execFunF32 (c : BitVec 3) (a b : BitVec 6) (s : State) : Out := fcmp f32 .un c a b s
def execFeqF64 (c : BitVec 3) (a b : BitVec 6) (s : State) : Out := fcmp f64 .eq c a b s
def execFltF64 (c : BitVec 3) (a b : BitVec 6) (s : State) : Out := fcmp f64 .lt c a b s
def execFleF64 (c : BitVec 3) (a b : BitVec 6) (s : State) : Out := fcmp f64 .le c a b s
def execFunF64 (c : BitVec 3) (a b : BitVec 6) (s : State) : Out := fcmp f64 .un c a b s
def execFcvtF32S64 (d a : BitVec 6) (s : State) : Out := fcvt (fun rm x => toW (fOfInt f32 rm x.toInt)) d a s
def execFcvtF64S64 (d a : BitVec 6) (s : State) : Out := fcvt (fun rm x => toW (fOfInt f64 rm x.toInt)) d a s
def execFcvtS64F32 (d a : BitVec 6) (s : State) : Out :=
  fcvt (fun rm x => let (v, fl) := fToInt f32 rm 64 (fbits f32 x); (wrap 64 v, fl)) d a s
def execFcvtS64F64 (d a : BitVec 6) (s : State) : Out :=
  fcvt (fun rm x => let (v, fl) := fToInt f64 rm 64 (fbits f64 x); (wrap 64 v, fl)) d a s
def execFcvtF64F32 (d a : BitVec 6) (s : State) : Out := fcvt (fun rm x => toW (fCvt f32 f64 rm (fbits f32 x))) d a s
def execFcvtF32F64 (d a : BitVec 6) (s : State) : Out := fcvt (fun rm x => toW (fCvt f64 f32 rm (fbits f64 x))) d a s
def execFcvtF32Bf16 (d a : BitVec 6) (s : State) : Out := fcvt (fun rm x => toW (fCvt bf16 f32 rm (fbits bf16 x))) d a s
def execFcvtBf16F32 (d a : BitVec 6) (s : State) : Out := fcvt (fun rm x => toW (fCvt f32 bf16 rm (fbits f32 x))) d a s

end Sys2Proof.Machine
end

