-- ==== Sys2Proof/Machine/Dispatch.lean ====
section
/-! DEFINITION. One arm per constructor: the meaning of every instruction and of every agent step. -/
namespace Sys2Proof.Machine

/-- The meaning of an instruction or agent step in a state. -/
def exec (i : Instr) (s : State) : Host.Outcome State Fault Refusal :=
  match i with
  | .nop => Sys2Proof.Machine.execNop s
  | .yield => Sys2Proof.Machine.execYield s
  | .exit => Sys2Proof.Machine.execExit s
  | .brk n => Sys2Proof.Machine.execBrk n s
  | .trap n => Sys2Proof.Machine.execTrap n s
  | .rdcyc d => Sys2Proof.Machine.execRdcyc d s
  | .rdid d n => Sys2Proof.Machine.execRdid d n s
  | .add d a b => Sys2Proof.Machine.execAdd d a b s
  | .sub d a b => Sys2Proof.Machine.execSub d a b s
  | .and d a b => Sys2Proof.Machine.execAnd d a b s
  | .or d a b => Sys2Proof.Machine.execOr d a b s
  | .xor d a b => Sys2Proof.Machine.execXor d a b s
  | .andn d a b => Sys2Proof.Machine.execAndn d a b s
  | .orn d a b => Sys2Proof.Machine.execOrn d a b s
  | .abd d a b => Sys2Proof.Machine.execAbd d a b s
  | .shl d a b => Sys2Proof.Machine.execShl d a b s
  | .shr d a b => Sys2Proof.Machine.execShr d a b s
  | .sar d a b => Sys2Proof.Machine.execSar d a b s
  | .rol d a b => Sys2Proof.Machine.execRol d a b s
  | .clz d a => Sys2Proof.Machine.execClz d a s
  | .ctz d a => Sys2Proof.Machine.execCtz d a s
  | .popc d a => Sys2Proof.Machine.execPopc d a s
  | .brev d a => Sys2Proof.Machine.execBrev d a s
  | .mul d a b => Sys2Proof.Machine.execMul d a b s
  | .mulhs d a b => Sys2Proof.Machine.execMulhs d a b s
  | .mulhz d a b => Sys2Proof.Machine.execMulhz d a b s
  | .divs d a b => Sys2Proof.Machine.execDivs d a b s
  | .divz d a b => Sys2Proof.Machine.execDivz d a b s
  | .rems d a b => Sys2Proof.Machine.execRems d a b s
  | .remz d a b => Sys2Proof.Machine.execRemz d a b s
  | .mulw d a b => Sys2Proof.Machine.execMulw d a b s
  | .mins d a b => Sys2Proof.Machine.execMins d a b s
  | .maxs d a b => Sys2Proof.Machine.execMaxs d a b s
  | .minz d a b => Sys2Proof.Machine.execMinz d a b s
  | .maxz d a b => Sys2Proof.Machine.execMaxz d a b s
  | .bfx d a b => Sys2Proof.Machine.execBfx d a b s
  | .bfi d a b => Sys2Proof.Machine.execBfi d a b s
  | .sext d a b => Sys2Proof.Machine.execSext d a b s
  | .zext d a b => Sys2Proof.Machine.execZext d a b s
  | .ceq c a b => Sys2Proof.Machine.execCeq c a b s
  | .cne c a b => Sys2Proof.Machine.execCne c a b s
  | .clts c a b => Sys2Proof.Machine.execClts c a b s
  | .cles c a b => Sys2Proof.Machine.execCles c a b s
  | .cltz c a b => Sys2Proof.Machine.execCltz c a b s
  | .clez c a b => Sys2Proof.Machine.execClez c a b s
  | .ctst c a b => Sys2Proof.Machine.execCtst c a b s
  | .cand d a b => Sys2Proof.Machine.execCand d a b s
  | .cor d a b => Sys2Proof.Machine.execCor d a b s
  | .cxor d a b => Sys2Proof.Machine.execCxor d a b s
  | .candn d a b => Sys2Proof.Machine.execCandn d a b s
  | .cmov d a => Sys2Proof.Machine.execCmov d a s
  | .cget d a => Sys2Proof.Machine.execCget d a s
  | .sel d a b c => Sys2Proof.Machine.execSel d a b c s
  | .addi d a imm => Sys2Proof.Machine.execAddi d a imm s
  | .andi d a imm => Sys2Proof.Machine.execAndi d a imm s
  | .ori d a imm => Sys2Proof.Machine.execOri d a imm s
  | .xori d a imm => Sys2Proof.Machine.execXori d a imm s
  | .shli d a k => Sys2Proof.Machine.execShli d a k s
  | .shri d a k => Sys2Proof.Machine.execShri d a k s
  | .sari d a k => Sys2Proof.Machine.execSari d a k s
  | .roli d a k => Sys2Proof.Machine.execRoli d a k s
  | .ceqi c a imm => Sys2Proof.Machine.execCeqi c a imm s
  | .cnei c a imm => Sys2Proof.Machine.execCnei c a imm s
  | .cltsi c a imm => Sys2Proof.Machine.execCltsi c a imm s
  | .clesi c a imm => Sys2Proof.Machine.execClesi c a imm s
  | .cltzi c a imm => Sys2Proof.Machine.execCltzi c a imm s
  | .clezi c a imm => Sys2Proof.Machine.execClezi c a imm s
  | .cgtsi c a imm => Sys2Proof.Machine.execCgtsi c a imm s
  | .cgtzi c a imm => Sys2Proof.Machine.execCgtzi c a imm s
  | .movi d imm => Sys2Proof.Machine.execMovi d imm s
  | .adr d imm => Sys2Proof.Machine.execAdr d imm s
  | .ld d r u z o => Sys2Proof.Machine.execLd d r u z o s
  | .st d r u z o => Sys2Proof.Machine.execSt d r u z o s
  | .dclean a b => Sys2Proof.Machine.execDclean a b s
  | .dinv a b => Sys2Proof.Machine.execDinv a b s
  | .dflush a b => Sys2Proof.Machine.execDflush a b s
  | .isync a b => Sys2Proof.Machine.execIsync a b s
  | .fence a => Sys2Proof.Machine.execFence a s
  | .pref a => Sys2Proof.Machine.execPref a s
  | .ldx d a b z => Sys2Proof.Machine.execLdx d a b z s
  | .br imm => Sys2Proof.Machine.execBr imm s
  | .call imm => Sys2Proof.Machine.execCall imm s
  | .ret => Sys2Proof.Machine.execRet s
  | .jr a => Sys2Proof.Machine.execJr a s
  | .callr a => Sys2Proof.Machine.execCallr a s
  | .bru d a b => Sys2Proof.Machine.execBru d a b s
  | .lbuf n a => Sys2Proof.Machine.execLbuf n a s
  | .rpt n x y inc1 inc2 => Sys2Proof.Machine.execRpt n x y inc1 inc2 s
  | .faddF32 d a b => Sys2Proof.Machine.execFaddF32 d a b s
  | .fsubF32 d a b => Sys2Proof.Machine.execFsubF32 d a b s
  | .fmulF32 d a b => Sys2Proof.Machine.execFmulF32 d a b s
  | .fdivF32 d a b => Sys2Proof.Machine.execFdivF32 d a b s
  | .fsqrtF32 d a => Sys2Proof.Machine.execFsqrtF32 d a s
  | .fminF32 d a b => Sys2Proof.Machine.execFminF32 d a b s
  | .fmaxF32 d a b => Sys2Proof.Machine.execFmaxF32 d a b s
  | .ffmaF32 d a b => Sys2Proof.Machine.execFfmaF32 d a b s
  | .faddF64 d a b => Sys2Proof.Machine.execFaddF64 d a b s
  | .fsubF64 d a b => Sys2Proof.Machine.execFsubF64 d a b s
  | .fmulF64 d a b => Sys2Proof.Machine.execFmulF64 d a b s
  | .fdivF64 d a b => Sys2Proof.Machine.execFdivF64 d a b s
  | .fsqrtF64 d a => Sys2Proof.Machine.execFsqrtF64 d a s
  | .fminF64 d a b => Sys2Proof.Machine.execFminF64 d a b s
  | .fmaxF64 d a b => Sys2Proof.Machine.execFmaxF64 d a b s
  | .ffmaF64 d a b => Sys2Proof.Machine.execFfmaF64 d a b s
  | .feqF32 c a b => Sys2Proof.Machine.execFeqF32 c a b s
  | .fltF32 c a b => Sys2Proof.Machine.execFltF32 c a b s
  | .fleF32 c a b => Sys2Proof.Machine.execFleF32 c a b s
  | .funF32 c a b => Sys2Proof.Machine.execFunF32 c a b s
  | .feqF64 c a b => Sys2Proof.Machine.execFeqF64 c a b s
  | .fltF64 c a b => Sys2Proof.Machine.execFltF64 c a b s
  | .fleF64 c a b => Sys2Proof.Machine.execFleF64 c a b s
  | .funF64 c a b => Sys2Proof.Machine.execFunF64 c a b s
  | .fcvtF32S64 d a => Sys2Proof.Machine.execFcvtF32S64 d a s
  | .fcvtF64S64 d a => Sys2Proof.Machine.execFcvtF64S64 d a s
  | .fcvtS64F32 d a => Sys2Proof.Machine.execFcvtS64F32 d a s
  | .fcvtS64F64 d a => Sys2Proof.Machine.execFcvtS64F64 d a s
  | .fcvtF64F32 d a => Sys2Proof.Machine.execFcvtF64F32 d a s
  | .fcvtF32F64 d a => Sys2Proof.Machine.execFcvtF32F64 d a s
  | .fcvtF32Bf16 d a => Sys2Proof.Machine.execFcvtF32Bf16 d a s
  | .fcvtBf16F32 d a => Sys2Proof.Machine.execFcvtBf16F32 d a s
  | .vaddF32 d a b p => Sys2Proof.Machine.execVaddF32 d a b p s
  | .vsubF32 d a b p => Sys2Proof.Machine.execVsubF32 d a b p s
  | .vmulF32 d a b p => Sys2Proof.Machine.execVmulF32 d a b p s
  | .vfmaF32 d a b p => Sys2Proof.Machine.execVfmaF32 d a b p s
  | .vminF32 d a b p => Sys2Proof.Machine.execVminF32 d a b p s
  | .vmaxF32 d a b p => Sys2Proof.Machine.execVmaxF32 d a b p s
  | .vfmsF32 d a b p => Sys2Proof.Machine.execVfmsF32 d a b p s
  | .vabsF32 d a p => Sys2Proof.Machine.execVabsF32 d a p s
  | .vaddBf16 d a b p => Sys2Proof.Machine.execVaddBf16 d a b p s
  | .vsubBf16 d a b p => Sys2Proof.Machine.execVsubBf16 d a b p s
  | .vmulBf16 d a b p => Sys2Proof.Machine.execVmulBf16 d a b p s
  | .vfmaBf16 d a b p => Sys2Proof.Machine.execVfmaBf16 d a b p s
  | .vminBf16 d a b p => Sys2Proof.Machine.execVminBf16 d a b p s
  | .vmaxBf16 d a b p => Sys2Proof.Machine.execVmaxBf16 d a b p s
  | .vfmsBf16 d a b p => Sys2Proof.Machine.execVfmsBf16 d a b p s
  | .vabsBf16 d a p => Sys2Proof.Machine.execVabsBf16 d a p s
  | .vaddS32 d a b p => Sys2Proof.Machine.execVaddS32 d a b p s
  | .vsubS32 d a b p => Sys2Proof.Machine.execVsubS32 d a b p s
  | .vmulS32 d a b p => Sys2Proof.Machine.execVmulS32 d a b p s
  | .vmacS32 d a b p => Sys2Proof.Machine.execVmacS32 d a b p s
  | .vminsS32 d a b p => Sys2Proof.Machine.execVminsS32 d a b p s
  | .vmaxsS32 d a b p => Sys2Proof.Machine.execVmaxsS32 d a b p s
  | .vminzS32 d a b p => Sys2Proof.Machine.execVminzS32 d a b p s
  | .vmaxzS32 d a b p => Sys2Proof.Machine.execVmaxzS32 d a b p s
  | .vand d a b p => Sys2Proof.Machine.execVand d a b p s
  | .vor d a b p => Sys2Proof.Machine.execVor d a b p s
  | .vxor d a b p => Sys2Proof.Machine.execVxor d a b p s
  | .vandn d a b p => Sys2Proof.Machine.execVandn d a b p s
  | .vshl d a b p => Sys2Proof.Machine.execVshl d a b p s
  | .vshr d a b p => Sys2Proof.Machine.execVshr d a b p s
  | .vsar d a b p => Sys2Proof.Machine.execVsar d a b p s
  | .vsel d a b p => Sys2Proof.Machine.execVsel d a b p s
  | .vrcp d a p => Sys2Proof.Machine.execVrcp d a p s
  | .vrsq d a p => Sys2Proof.Machine.execVrsq d a p s
  | .vsqrt d a p => Sys2Proof.Machine.execVsqrt d a p s
  | .vex2 d a p => Sys2Proof.Machine.execVex2 d a p s
  | .vlg2 d a p => Sys2Proof.Machine.execVlg2 d a p s
  | .vdiv d a b p => Sys2Proof.Machine.execVdiv d a b p s
  | .vfloor d a p => Sys2Proof.Machine.execVfloor d a p s
  | .vround d a p => Sys2Proof.Machine.execVround d a p s
  | .vceqF32 d a b p => Sys2Proof.Machine.execVceqF32 d a b p s
  | .vcltF32 d a b p => Sys2Proof.Machine.execVcltF32 d a b p s
  | .vcleF32 d a b p => Sys2Proof.Machine.execVcleF32 d a b p s
  | .vcunF32 d a b p => Sys2Proof.Machine.execVcunF32 d a b p s
  | .vceqS32 d a b p => Sys2Proof.Machine.execVceqS32 d a b p s
  | .vcltS32 d a b p => Sys2Proof.Machine.execVcltS32 d a b p s
  | .vcleS32 d a b p => Sys2Proof.Machine.execVcleS32 d a b p s
  | .vcltzS32 d a b p => Sys2Proof.Machine.execVcltzS32 d a b p s
  | .pand d a b => Sys2Proof.Machine.execPand d a b s
  | .por d a b => Sys2Proof.Machine.execPor d a b s
  | .pxor d a b => Sys2Proof.Machine.execPxor d a b s
  | .pandn d a b => Sys2Proof.Machine.execPandn d a b s
  | .pnot d a => Sys2Proof.Machine.execPnot d a s
  | .pany d a p => Sys2Proof.Machine.execPany d a p s
  | .pall d a p => Sys2Proof.Machine.execPall d a p s
  | .pcnt d a p => Sys2Proof.Machine.execPcnt d a p s
  | .vrsumF32 d a p => Sys2Proof.Machine.execVrsumF32 d a p s
  | .vrmaxF32 d a p => Sys2Proof.Machine.execVrmaxF32 d a p s
  | .vrminF32 d a p => Sys2Proof.Machine.execVrminF32 d a p s
  | .vrsumS32 d a p => Sys2Proof.Machine.execVrsumS32 d a p s
  | .vscanF32 d a p => Sys2Proof.Machine.execVscanF32 d a p s
  | .vscanS32 d a p => Sys2Proof.Machine.execVscanS32 d a p s
  | .vtopk d a k p => Sys2Proof.Machine.execVtopk d a k p s
  | .vargmax d a p => Sys2Proof.Machine.execVargmax d a p s
  | .vbcast d a b p => Sys2Proof.Machine.execVbcast d a b p s
  | .vperm d a b p => Sys2Proof.Machine.execVperm d a b p s
  | .vrot d a b p => Sys2Proof.Machine.execVrot d a b p s
  | .vslide d a b p => Sys2Proof.Machine.execVslide d a b p s
  | .vzip d a b p => Sys2Proof.Machine.execVzip d a b p s
  | .vunzip d a b p => Sys2Proof.Machine.execVunzip d a b p s
  | .vcompress d a p => Sys2Proof.Machine.execVcompress d a p s
  | .vexpand d a p => Sys2Proof.Machine.execVexpand d a p s
  | .vcvtF32S32 d a p => Sys2Proof.Machine.execVcvtF32S32 d a p s
  | .vcvtS32F32 d a p => Sys2Proof.Machine.execVcvtS32F32 d a p s
  | .vcvtBf16F32 d a b p => Sys2Proof.Machine.execVcvtBf16F32 d a b p s
  | .vcvtF32Bf16l d a p => Sys2Proof.Machine.execVcvtF32Bf16l d a p s
  | .vcvtF32Bf16h d a p => Sys2Proof.Machine.execVcvtF32Bf16h d a p s
  | .vcvtF16F32 d a b p => Sys2Proof.Machine.execVcvtF16F32 d a b p s
  | .vcvtF32F16l d a p => Sys2Proof.Machine.execVcvtF32F16l d a p s
  | .vcvtF32F16h d a p => Sys2Proof.Machine.execVcvtF32F16h d a p s
  | .vkbpack d a n => Sys2Proof.Machine.execVkbpack d a n s
  | .vkbunpack d a n => Sys2Proof.Machine.execVkbunpack d a n s
  | .vkbscale d a n => Sys2Proof.Machine.execVkbscale d a n s
  | .vmov d a p => Sys2Proof.Machine.execVmov d a p s
  | .vfill d a p => Sys2Proof.Machine.execVfill d a p s
  | .vins d a b p => Sys2Proof.Machine.execVins d a b p s
  | .vext d a b => Sys2Proof.Machine.execVext d a b s
  | .vqpk d q p => Sys2Proof.Machine.execVqpk d q p s
  | .vqcnt d q => Sys2Proof.Machine.execVqcnt d q s
  | .vqclr q => Sys2Proof.Machine.execVqclr q s
  | .vlaneid d p => Sys2Proof.Machine.execVlaneid d p s
  | .vld v r u p m o => Sys2Proof.Machine.execVld v r u p m o s
  | .vst v r u p m o => Sys2Proof.Machine.execVst v r u p m o s
  | .vgth32 d a b p => Sys2Proof.Machine.execVgth32 d a b p s
  | .vsct32 d a b p => Sys2Proof.Machine.execVsct32 d a b p s
  | .vgth16 d a b p => Sys2Proof.Machine.execVgth16 d a b p s
  | .vsct16 d a b p => Sys2Proof.Machine.execVsct16 d a b p s
  | .vsctaddF32 d a b p => Sys2Proof.Machine.execVsctaddF32 d a b p s
  | .vsctaddS32 d a b p => Sys2Proof.Machine.execVsctaddS32 d a b p s
  | .qpk d q => Sys2Proof.Machine.execQpk d q s
  | .qcnt d q => Sys2Proof.Machine.execQcnt d q s
  | .qclr q => Sys2Proof.Machine.execQclr q s
  | .qbind d q b => Sys2Proof.Machine.execQbind d q b s
  | .qunbind d q => Sys2Proof.Machine.execQunbind d q s
  | .mfmt e y => Sys2Proof.Machine.execMfmt e y s
  | .mdrain t q k => Sys2Proof.Machine.execMdrain t q k s
  | .mzero t k => Sys2Proof.Machine.execMzero t k s
  | .mstat x e => Sys2Proof.Machine.execMstat x e s
  | .mma t k a b m => Sys2Proof.Machine.execMma t k a b m s
  | .mrdv k d y => Sys2Proof.Machine.execMrdv k d y s
  | .mrdq k d y => Sys2Proof.Machine.execMrdq k d y s
  | .mstF32 t k y => Sys2Proof.Machine.execMstF32 t k y s
  | .mstBf16 t k y => Sys2Proof.Machine.execMstBf16 t k y s
  | .mstKb t k y => Sys2Proof.Machine.execMstKb t k y s
  | .mwrv k a y => Sys2Proof.Machine.execMwrv k a y s
  | .oclaim x y => Sys2Proof.Machine.execOclaim x y s
  | .orelease x y => Sys2Proof.Machine.execOrelease x y s
  | .oload t x y => Sys2Proof.Machine.execOload t x y s
  | .ofill t x y => Sys2Proof.Machine.execOfill t x y s
  | .ostat x y => Sys2Proof.Machine.execOstat x y s
  | .wrset t x y => Sys2Proof.Machine.execWrset t x y s
  | .wradv t x y => Sys2Proof.Machine.execWradv t x y s
  | .wrstat x y => Sys2Proof.Machine.execWrstat x y s
  | .wrfree t x => Sys2Proof.Machine.execWrfree t x s
  | .wrbind q y => Sys2Proof.Machine.execWrbind q y s
  | .wrout t x y => Sys2Proof.Machine.execWrout t x y s
  | .wrflush t x => Sys2Proof.Machine.execWrflush t x s
  | .wnew t x y => Sys2Proof.Machine.execWnew t x y s
  | .wfree t x => Sys2Proof.Machine.execWfree t x s
  | .wfence t x y => Sys2Proof.Machine.execWfence t x y s
  | .wpost t x y => Sys2Proof.Machine.execWpost t x y s
  | .wstart t x y => Sys2Proof.Machine.execWstart t x y s
  | .wcompl t x => Sys2Proof.Machine.execWcompl t x s
  | .wwait t x => Sys2Proof.Machine.execWwait t x s
  | .wlock t x y => Sys2Proof.Machine.execWlock t x y s
  | .wunlock t x y => Sys2Proof.Machine.execWunlock t x y s
  | .wflush t x y => Sys2Proof.Machine.execWflush t x y s
  | .wquery x y => Sys2Proof.Machine.execWquery x y s
  | .get t x y => Sys2Proof.Machine.execGet t x y s
  | .put t x y => Sys2Proof.Machine.execPut t x y s
  | .putm t x y => Sys2Proof.Machine.execPutm t x y s
  | .accAddf t x y => Sys2Proof.Machine.execAccAddf t x y s
  | .accAdds t x y => Sys2Proof.Machine.execAccAdds t x y s
  | .accFx t x y => Sys2Proof.Machine.execAccFx t x y s
  | .accMaxf t x y => Sys2Proof.Machine.execAccMaxf t x y s
  | .accMinf t x y => Sys2Proof.Machine.execAccMinf t x y s
  | .getacc t x y => Sys2Proof.Machine.execGetacc t x y s
  | .rcas t x y => Sys2Proof.Machine.execRcas t x y s
  | .getro t x y => Sys2Proof.Machine.execGetro t x y s
  | .dispatch t x => Sys2Proof.Machine.execDispatch t x s
  | .combine t x => Sys2Proof.Machine.execCombine t x s
  | .coll t x => Sys2Proof.Machine.execColl t x s
  | .cstat x y => Sys2Proof.Machine.execCstat x y s
  | .ccancel t x => Sys2Proof.Machine.execCcancel t x s
  | .aadd d a b => Sys2Proof.Machine.execAadd d a b s
  | .aand d a b => Sys2Proof.Machine.execAand d a b s
  | .aor d a b => Sys2Proof.Machine.execAor d a b s
  | .axchg d a b => Sys2Proof.Machine.execAxchg d a b s
  | .amaxs d a b => Sys2Proof.Machine.execAmaxs d a b s
  | .amins d a b => Sys2Proof.Machine.execAmins d a b s
  | .aaddf d a b => Sys2Proof.Machine.execAaddf d a b s
  | .afx d a b => Sys2Proof.Machine.execAfx d a b s
  | .acas d a b => Sys2Proof.Machine.execAcas d a b s
  | .ahist d a b => Sys2Proof.Machine.execAhist d a b s
  | .barv d a b => Sys2Proof.Machine.execBarv d a b s
  | .barw d a b => Sys2Proof.Machine.execBarw d a b s
  | .barset d a b => Sys2Proof.Machine.execBarset d a b s
  | .barq d a => Sys2Proof.Machine.execBarq d a s
  | .tlwait d t b => Sys2Proof.Machine.execTlwait d t b s
  | .tlrd d t => Sys2Proof.Machine.execTlrd d t s
  | .tlwaitr d t b => Sys2Proof.Machine.execTlwaitr d t b s
  | .tlrdi d t => Sys2Proof.Machine.execTlrdi d t s
  | .tlrdc d t => Sys2Proof.Machine.execTlrdc d t s
  | .tlrdv d t => Sys2Proof.Machine.execTlrdv d t s
  | .tlerr d t => Sys2Proof.Machine.execTlerr d t s
  | .bwph a => Sys2Proof.Machine.execBwph a s
  | .wakew => Sys2Proof.Machine.execWakew s
  | .tlbinv a b => Sys2Proof.Machine.execTlbinv a b s
  | .tlbsync => Sys2Proof.Machine.execTlbsync s
  | .rtcinv a b => Sys2Proof.Machine.execRtcinv a b s
  | .rtcsync => Sys2Proof.Machine.execRtcsync s
  | .trun a => Sys2Proof.Machine.execTrun a s
  | .tchain a => Sys2Proof.Machine.execTchain a s
  | .tcond a => Sys2Proof.Machine.execTcond a s
  | .qpop d a c => Sys2Proof.Machine.execQpop d a c s
  | .qtry d a c => Sys2Proof.Machine.execQtry d a c s
  | .qpush d a b => Sys2Proof.Machine.execQpush d a b s
  | .qcancel d a b => Sys2Proof.Machine.execQcancel d a b s
  | .qthaw d a => Sys2Proof.Machine.execQthaw d a s
  | .hpush d a b => Sys2Proof.Machine.execHpush d a b s
  | .hpop d a c => Sys2Proof.Machine.execHpop d a c s
  | .hadj d a b => Sys2Proof.Machine.execHadj d a b s
  | .hmax d a b => Sys2Proof.Machine.execHmax d a b s
  | .hres d a b => Sys2Proof.Machine.execHres d a b s
  | .hdone d a b => Sys2Proof.Machine.execHdone d a b s
  | .hread d a b => Sys2Proof.Machine.execHread d a b s
  | .csrr d n => Sys2Proof.Machine.execCsrr d n s
  | .csrw d n => Sys2Proof.Machine.execCsrw d n s
  | .eret => Sys2Proof.Machine.execEret s
  | .segenter a => Sys2Proof.Machine.execSegenter a s
  | .segsealSeal a b => Sys2Proof.Machine.execSegsealSeal a b s
  | .segsealPatch a b => Sys2Proof.Machine.execSegsealPatch a b s
  | .kslotQuery d a b => Sys2Proof.Machine.execKslotQuery d a b s
  | .kslotInstall d a b => Sys2Proof.Machine.execKslotInstall d a b s
  | .kslotZeroise d a b => Sys2Proof.Machine.execKslotZeroise d a b s
  | .kslotRotate d a b => Sys2Proof.Machine.execKslotRotate d a b s
  | .kslotBind d a b => Sys2Proof.Machine.execKslotBind d a b s
  | .scrub d a => Sys2Proof.Machine.execScrub d a s
  | .pgmap t a b => Sys2Proof.Machine.execPgmap t a b s
  | .ext h => Sys2Proof.Machine.execExt h s
  | .blockOpen ctx => Sys2Proof.Machine.execBlockOpen ctx s
  | .fixedLatencyLanding ctx => Sys2Proof.Machine.execFixedLatencyLanding ctx s
  | .interlockedResultArrival ctx id => Sys2Proof.Machine.execInterlockedResultArrival ctx id s
  | .compensatedResultArrival ctx => Sys2Proof.Machine.execCompensatedResultArrival ctx s
  | .loadMemoryError ctx => Sys2Proof.Machine.execLoadMemoryError ctx s
  | .boundQueueDelivery ctx q => Sys2Proof.Machine.execBoundQueueDelivery ctx q s
  | .contextExitCompletion ctx => Sys2Proof.Machine.execContextExitCompletion ctx s
  | .engineCommandStart cl e => Sys2Proof.Machine.execEngineCommandStart cl e s
  | .mmaRepetitionAccept cl e => Sys2Proof.Machine.execMmaRepetitionAccept cl e s
  | .mmaCompletion cl e => Sys2Proof.Machine.execMmaCompletion cl e s
  | .oloadCompletion cl k => Sys2Proof.Machine.execOloadCompletion cl k s
  | .ofillCompletion cl k => Sys2Proof.Machine.execOfillCompletion cl k s
  | .mstCompletion cl e => Sys2Proof.Machine.execMstCompletion cl e s
  | .drainRowDelivery cl e => Sys2Proof.Machine.execDrainRowDelivery cl e s
  | .pgmapCompletion cl => Sys2Proof.Machine.execPgmapCompletion cl s
  | .ringRowLanding ctx r => Sys2Proof.Machine.execRingRowLanding ctx r s
  | .ringMulticastRow m => Sys2Proof.Machine.execRingMulticastRow m s
  | .recvRegistration ctx r => Sys2Proof.Machine.execRecvRegistration ctx r s
  | .ringCreditReturn m => Sys2Proof.Machine.execRingCreditReturn m s
  | .ringBoundRowDelivery ctx r => Sys2Proof.Machine.execRingBoundRowDelivery ctx r s
  | .ringRowWriteAccept ctx r => Sys2Proof.Machine.execRingRowWriteAccept ctx r s
  | .fabricPacketHop m => Sys2Proof.Machine.execFabricPacketHop m s
  | .mailbagWaitExpiry site dst => Sys2Proof.Machine.execMailbagWaitExpiry site dst s
  | .mailbagArrival site dst => Sys2Proof.Machine.execMailbagArrival site dst s
  | .remoteRequestArrival m => Sys2Proof.Machine.execRemoteRequestArrival m s
  | .orderedPacketRelease m => Sys2Proof.Machine.execOrderedPacketRelease m s
  | .remoteResponseArrival m => Sys2Proof.Machine.execRemoteResponseArrival m s
  | .translationRequest m => Sys2Proof.Machine.execTranslationRequest m s
  | .translationReply m => Sys2Proof.Machine.execTranslationReply m s
  | .tokenInvalidation m => Sys2Proof.Machine.execTokenInvalidation m s
  | .tokenInvalidationAck m => Sys2Proof.Machine.execTokenInvalidationAck m s
  | .windowCollectiveNotice m => Sys2Proof.Machine.execWindowCollectiveNotice m s
  | .fenceCloseNotice m => Sys2Proof.Machine.execFenceCloseNotice m s
  | .postNotice m => Sys2Proof.Machine.execPostNotice m s
  | .completeNotice m => Sys2Proof.Machine.execCompleteNotice m s
  | .lockRequest m => Sys2Proof.Machine.execLockRequest m s
  | .lockRelease m => Sys2Proof.Machine.execLockRelease m s
  | .headAnnouncement m => Sys2Proof.Machine.execHeadAnnouncement m s
  | .collectiveChunk site ch => Sys2Proof.Machine.execCollectiveChunk site ch s
  | .dispatchCountExchange m => Sys2Proof.Machine.execDispatchCountExchange m s
  | .deliveryStreamEntry ctx sid => Sys2Proof.Machine.execDeliveryStreamEntry ctx sid s
  | .cancelArrival m => Sys2Proof.Machine.execCancelArrival m s
  | .laneFailure site k => Sys2Proof.Machine.execLaneFailure site k s
  | .iczerGroupArrival port good => Sys2Proof.Machine.execIczerGroupArrival port good s
  | .iczerIdleFill port => Sys2Proof.Machine.execIczerIdleFill port s
  | .iczerRekey port => Sys2Proof.Machine.execIczerRekey port s
  | .iczerCounterExhausted port => Sys2Proof.Machine.execIczerCounterExhausted port s
  | .iczerLinkRetrain port => Sys2Proof.Machine.execIczerLinkRetrain port s
  | .joinReport team part => Sys2Proof.Machine.execJoinReport team part s
  | .joinTimeout team => Sys2Proof.Machine.execJoinTimeout team s
  | .l1MissFill cl line => Sys2Proof.Machine.execL1MissFill cl line s
  | .pageTableWalk cl va eng => Sys2Proof.Machine.execPageTableWalk cl va eng s
  | .pigeonholeBankAccess site bank => Sys2Proof.Machine.execPigeonholeBankAccess site bank s
  | .writeQueueWatermarkDrain cl ch => Sys2Proof.Machine.execWriteQueueWatermarkDrain cl ch s
  | .writeQueueAgeDrain cl ch => Sys2Proof.Machine.execWriteQueueAgeDrain cl ch s
  | .rowActivationRefresh cl row => Sys2Proof.Machine.execRowActivationRefresh cl row s
  | .patrolRead cl g => Sys2Proof.Machine.execPatrolRead cl g s
  | .channelRetirementStart cl ch => Sys2Proof.Machine.execChannelRetirementStart cl ch s
  | .granuleMove cl => Sys2Proof.Machine.execGranuleMove cl s
  | .retirementComplete cl => Sys2Proof.Machine.execRetirementComplete cl s
  | .bankSetNap cl bs => Sys2Proof.Machine.execBankSetNap cl bs s
  | .bankSetRetain cl bs => Sys2Proof.Machine.execBankSetRetain cl bs s
  | .bankSetDeep cl bs => Sys2Proof.Machine.execBankSetDeep cl bs s
  | .bankSetWake cl bs => Sys2Proof.Machine.execBankSetWake cl bs s
  | .lsBankWake cl bank => Sys2Proof.Machine.execLsBankWake cl bank s
  | .keyRotationGranule cl => Sys2Proof.Machine.execKeyRotationGranule cl s
  | .keyRotationComplete site => Sys2Proof.Machine.execKeyRotationComplete site s
  | .scrubUnit site => Sys2Proof.Machine.execScrubUnit site s
  | .scrubComplete site => Sys2Proof.Machine.execScrubComplete site s
  | .letterEnqueue port pb v ide => Sys2Proof.Machine.execLetterEnqueue port pb v ide s
  | .schedulingDecision => Sys2Proof.Machine.execSchedulingDecision s
  | .letterAging pb => Sys2Proof.Machine.execLetterAging pb s
  | .completionWriteLetter pb => Sys2Proof.Machine.execCompletionWriteLetter pb s
  | .completionWaitPoll pb => Sys2Proof.Machine.execCompletionWaitPoll pb s
  | .gangStart team => Sys2Proof.Machine.execGangStart team s
  | .instanceCompletion team => Sys2Proof.Machine.execInstanceCompletion team s
  | .contextPreemptionStop ctx => Sys2Proof.Machine.execContextPreemptionStop ctx s
  | .contextSave team => Sys2Proof.Machine.execContextSave team s
  | .teamResumption team => Sys2Proof.Machine.execTeamResumption team s
  | .taskfaultDelivery ctx => Sys2Proof.Machine.execTaskfaultDelivery ctx s
  | .sealreqDone site => Sys2Proof.Machine.execSealreqDone site s
  | .sealreqRefuse site => Sys2Proof.Machine.execSealreqRefuse site s
  | .ckptbaseWrite ctx v => Sys2Proof.Machine.execCkptbaseWrite ctx v s
  | .trapcauseDiscard ctx => Sys2Proof.Machine.execTrapcauseDiscard ctx s
  | .lsboundsWrite cl lo hi => Sys2Proof.Machine.execLsboundsWrite cl lo hi s
  | .lspwrWrite cl j v => Sys2Proof.Machine.execLspwrWrite cl j v s
  | .ptrootWrite cl v => Sys2Proof.Machine.execPtrootWrite cl v s
  | .slretRetire cl ch => Sys2Proof.Machine.execSlretRetire cl ch s
  | .slretGo cl => Sys2Proof.Machine.execSlretGo cl s
  | .wqcfgWrite site q v => Sys2Proof.Machine.execWqcfgWrite site q v s
  | .hpctlReset site h => Sys2Proof.Machine.execHpctlReset site h s
  | .hpcapWrite site h v => Sys2Proof.Machine.execHpcapWrite site h v s
  | .gmkillWrite ctx => Sys2Proof.Machine.execGmkillWrite ctx s
  | .rtcdropAll cl => Sys2Proof.Machine.execRtcdropAll cl s
  | .cecntRead cl => Sys2Proof.Machine.execCecntRead cl s
  | .merrstatRead cl => Sys2Proof.Machine.execMerrstatRead cl s
  | .rtcstatRead cl => Sys2Proof.Machine.execRtcstatRead cl s
  | .iczerrRead port => Sys2Proof.Machine.execIczerrRead port s
  | .pmcntRead pb => Sys2Proof.Machine.execPmcntRead pb s
  | .pbstatRead pb => Sys2Proof.Machine.execPbstatRead pb s
  | .pbcancelWrite pb tag => Sys2Proof.Machine.execPbcancelWrite pb tag s
  | .elstatRead site => Sys2Proof.Machine.execElstatRead site s
  | .sitectlExpertWrite site on => Sys2Proof.Machine.execSitectlExpertWrite site on s
  | .hostRegisterWrite bar off v => Sys2Proof.Machine.execHostRegisterWrite bar off v s
  | .hostUnimplementedAccess bar off wr => Sys2Proof.Machine.execHostUnimplementedAccess bar off wr s
  | .bar4Read off n => Sys2Proof.Machine.execBar4Read off n s
  | .bar4Write off n v => Sys2Proof.Machine.execBar4Write off n v s
  | .panelctlCold => Sys2Proof.Machine.execPanelctlCold s
  | .panelctlWarm => Sys2Proof.Machine.execPanelctlWarm s
  | .panelctlSitewarm site => Sys2Proof.Machine.execPanelctlSitewarm site s
  | .powerOn => Sys2Proof.Machine.execPowerOn s
  | .startupStageAdvance => Sys2Proof.Machine.execStartupStageAdvance s
  | .hostLinkDown port => Sys2Proof.Machine.execHostLinkDown port s
  | .getVersion port => Sys2Proof.Machine.execGetVersion port s
  | .getCapabilities port => Sys2Proof.Machine.execGetCapabilities port s
  | .negotiateAlgorithms port => Sys2Proof.Machine.execNegotiateAlgorithms port s
  | .getDigests port => Sys2Proof.Machine.execGetDigests port s
  | .getCertificate port => Sys2Proof.Machine.execGetCertificate port s
  | .challenge port => Sys2Proof.Machine.execChallenge port s
  | .getMeasurements port ix => Sys2Proof.Machine.execGetMeasurements port ix s
  | .keyExchange port => Sys2Proof.Machine.execKeyExchange port s
  | .finish port sid => Sys2Proof.Machine.execFinish port sid s
  | .endSession port sid => Sys2Proof.Machine.execEndSession port sid s
  | .ideKmQuery port sid => Sys2Proof.Machine.execIdeKmQuery port sid s
  | .ideKmKeyProg port sid st => Sys2Proof.Machine.execIdeKmKeyProg port sid st s
  | .ideKmKSetGo port sid st => Sys2Proof.Machine.execIdeKmKSetGo port sid st s
  | .ideKmKSetStop port sid st => Sys2Proof.Machine.execIdeKmKSetStop port sid st s
  | .thermalThrottle site => Sys2Proof.Machine.execThermalThrottle site s
  | .thermalShutdown site => Sys2Proof.Machine.execThermalShutdown site s
  | .thermalRestart site => Sys2Proof.Machine.execThermalRestart site s
  | .coolantFlowLow => Sys2Proof.Machine.execCoolantFlowLow s
  | .dvfsChange site => Sys2Proof.Machine.execDvfsChange site s
  | .aclkCycle cl => Sys2Proof.Machine.execAclkCycle cl s
  | .unallocatedEncoding w => Sys2Proof.Machine.execUnallocatedEncoding w s
  | .letterWindowWrite pb off v => Sys2Proof.Machine.execLetterWindowWrite pb off v s
  | .unlistedSpdmRequest port => Sys2Proof.Machine.execUnlistedSpdmRequest port s
  | .joinPartFailure team => Sys2Proof.Machine.execJoinPartFailure team s

end Sys2Proof.Machine
end

