-- ==== Sys2Proof/Machine/LateFx.lean ====
section
/-! DEFINITION. Effects of a bundle that land in its next cycle (R183, R226, R237, R249). -/
namespace Sys2Proof.Machine

/-- The late item is an mfmt's, which lands in the context's next cycle of its count and may come late (R93, R173, R178). -/
def Late.isFmt : Late → Bool
  | .mfmt _ _ _ => true
  | _ => false

/-- The effect of one late item on the issuing context. -/
def State.landLate (s : State) : Late → State
  | .csr n v => s.csrWrite n v
  | .lsBounds lo hi => s.setLsBounds s.clNo lo hi
  | .mfmt e na nb => s.setMe { s.me with fmts := s.me.fmts ++ [(e, na, nb, s.myCl.cycle + min 255 (1 + Config.physSlack 0))] }
  | .phase l =>
    let c := s.me
    (s.setMe { c with phase := l }).wakeGoverned s.clNo
  | .arrive id =>
    let c := s.me
    match c.inflight.find? fun f => f.id == id with
    | some f => if c.canLand f then s.setMe (c.landInflight f) else s
    | none => s

/-- A waiting instruction that holds leaves its mark at its engine (R226). -/
def State.keepWaiting (s : State) (i : Issue) : State := match i.keep with
  | some k => s.keepAt s.cur k
  | none => s

end Sys2Proof.Machine
end

