-- ==== Sys2Proof/Machine/Shape.lean ====
section
/-! DEFINITION. The shape of every slot: its resource class (Tables 14 to 17), the level it needs (R26), the registers it
reads in the order of its operand fields from bit 20 down (R12), and the registers it writes (R64). -/
namespace Sys2Proof.Machine

/-- The resource classes of Table 11. -/
inductive Cls where
  | alu | md | lsc | ct | fp | vec | mma | eng | sync | sys | none
  deriving DecidableEq, Repr

/-- The shape of a slot. -/
structure Shape where
  cls : Cls := .none
  level : Nat := 0
  srcs : List Reg := []
  dsts : List Reg := []
  /-- A queue register whose head the slot reads and leaves (R159, R168). -/
  peek : Option Reg := none
  deriving DecidableEq, Repr

/-- The shape of every instruction; the step of an agent has no slot and an empty shape. -/
def shape : Instr → Shape
  | .nop => {}
  | .yield => { cls := .sys }
  | .exit => { cls := .sys }
  | .brk _ => { cls := .sys }
  | .trap _ => { cls := .sys }
  | .rdcyc d => { cls := .alu, dsts := [.x d.toNat] }
  | .rdid d _ => { cls := .alu, dsts := [.x d.toNat] }
  | .add d a b => { cls := .alu, srcs := [.x a.toNat, .x b.toNat], dsts := [.x d.toNat] }
  | .sub d a b => { cls := .alu, srcs := [.x a.toNat, .x b.toNat], dsts := [.x d.toNat] }
  | .and d a b => { cls := .alu, srcs := [.x a.toNat, .x b.toNat], dsts := [.x d.toNat] }
  | .or d a b => { cls := .alu, srcs := [.x a.toNat, .x b.toNat], dsts := [.x d.toNat] }
  | .xor d a b => { cls := .alu, srcs := [.x a.toNat, .x b.toNat], dsts := [.x d.toNat] }
  | .andn d a b => { cls := .alu, srcs := [.x a.toNat, .x b.toNat], dsts := [.x d.toNat] }
  | .orn d a b => { cls := .alu, srcs := [.x a.toNat, .x b.toNat], dsts := [.x d.toNat] }
  | .abd d a b => { cls := .alu, srcs := [.x a.toNat, .x b.toNat], dsts := [.x d.toNat] }
  | .shl d a b => { cls := .alu, srcs := [.x a.toNat, .x b.toNat], dsts := [.x d.toNat] }
  | .shr d a b => { cls := .alu, srcs := [.x a.toNat, .x b.toNat], dsts := [.x d.toNat] }
  | .sar d a b => { cls := .alu, srcs := [.x a.toNat, .x b.toNat], dsts := [.x d.toNat] }
  | .rol d a b => { cls := .alu, srcs := [.x a.toNat, .x b.toNat], dsts := [.x d.toNat] }
  | .clz d a => { cls := .alu, srcs := [.x a.toNat], dsts := [.x d.toNat] }
  | .ctz d a => { cls := .alu, srcs := [.x a.toNat], dsts := [.x d.toNat] }
  | .popc d a => { cls := .alu, srcs := [.x a.toNat], dsts := [.x d.toNat] }
  | .brev d a => { cls := .alu, srcs := [.x a.toNat], dsts := [.x d.toNat] }
  | .mul d a b => { cls := .md, srcs := [.x a.toNat, .x b.toNat], dsts := [.x d.toNat] }
  | .mulhs d a b => { cls := .md, srcs := [.x a.toNat, .x b.toNat], dsts := [.x d.toNat] }
  | .mulhz d a b => { cls := .md, srcs := [.x a.toNat, .x b.toNat], dsts := [.x d.toNat] }
  | .divs d a b => { cls := .md, srcs := [.x a.toNat, .x b.toNat], dsts := [.x d.toNat] }
  | .divz d a b => { cls := .md, srcs := [.x a.toNat, .x b.toNat], dsts := [.x d.toNat] }
  | .rems d a b => { cls := .md, srcs := [.x a.toNat, .x b.toNat], dsts := [.x d.toNat] }
  | .remz d a b => { cls := .md, srcs := [.x a.toNat, .x b.toNat], dsts := [.x d.toNat] }
  | .mulw d a b => { cls := .md, srcs := [.x a.toNat, .x b.toNat], dsts := [.x d.toNat] }
  | .mins d a b => { cls := .alu, srcs := [.x a.toNat, .x b.toNat], dsts := [.x d.toNat] }
  | .maxs d a b => { cls := .alu, srcs := [.x a.toNat, .x b.toNat], dsts := [.x d.toNat] }
  | .minz d a b => { cls := .alu, srcs := [.x a.toNat, .x b.toNat], dsts := [.x d.toNat] }
  | .maxz d a b => { cls := .alu, srcs := [.x a.toNat, .x b.toNat], dsts := [.x d.toNat] }
  | .bfx d a b => { cls := .alu, srcs := [.x a.toNat, .x b.toNat], dsts := [.x d.toNat] }
  | .bfi d a b => { cls := .alu, srcs := [.x d.toNat, .x a.toNat, .x b.toNat], dsts := [.x d.toNat] }
  | .sext d a b => { cls := .alu, srcs := [.x a.toNat, .x b.toNat], dsts := [.x d.toNat] }
  | .zext d a b => { cls := .alu, srcs := [.x a.toNat, .x b.toNat], dsts := [.x d.toNat] }
  | .ceq c a b => { cls := .alu, srcs := [.x a.toNat, .x b.toNat], dsts := [.c c.toNat] }
  | .cne c a b => { cls := .alu, srcs := [.x a.toNat, .x b.toNat], dsts := [.c c.toNat] }
  | .clts c a b => { cls := .alu, srcs := [.x a.toNat, .x b.toNat], dsts := [.c c.toNat] }
  | .cles c a b => { cls := .alu, srcs := [.x a.toNat, .x b.toNat], dsts := [.c c.toNat] }
  | .cltz c a b => { cls := .alu, srcs := [.x a.toNat, .x b.toNat], dsts := [.c c.toNat] }
  | .clez c a b => { cls := .alu, srcs := [.x a.toNat, .x b.toNat], dsts := [.c c.toNat] }
  | .ctst c a b => { cls := .alu, srcs := [.x a.toNat, .x b.toNat], dsts := [.c c.toNat] }
  | .cand d a b => { cls := .alu, srcs := [.c a.toNat, .c b.toNat], dsts := [.c d.toNat] }
  | .cor d a b => { cls := .alu, srcs := [.c a.toNat, .c b.toNat], dsts := [.c d.toNat] }
  | .cxor d a b => { cls := .alu, srcs := [.c a.toNat, .c b.toNat], dsts := [.c d.toNat] }
  | .candn d a b => { cls := .alu, srcs := [.c a.toNat, .c b.toNat], dsts := [.c d.toNat] }
  | .cmov d a => { cls := .alu, srcs := [.x a.toNat], dsts := [.c d.toNat] }
  | .cget d a => { cls := .alu, srcs := [.c a.toNat], dsts := [.x d.toNat] }
  | .sel d a b c => { cls := .alu, srcs := [.x a.toNat, .x b.toNat, .c c.toNat], dsts := [.x d.toNat] }
  | .addi d a _ => { cls := .alu, srcs := [.x a.toNat], dsts := [.x d.toNat] }
  | .andi d a _ => { cls := .alu, srcs := [.x a.toNat], dsts := [.x d.toNat] }
  | .ori d a _ => { cls := .alu, srcs := [.x a.toNat], dsts := [.x d.toNat] }
  | .xori d a _ => { cls := .alu, srcs := [.x a.toNat], dsts := [.x d.toNat] }
  | .shli d a _ => { cls := .alu, srcs := [.x a.toNat], dsts := [.x d.toNat] }
  | .shri d a _ => { cls := .alu, srcs := [.x a.toNat], dsts := [.x d.toNat] }
  | .sari d a _ => { cls := .alu, srcs := [.x a.toNat], dsts := [.x d.toNat] }
  | .roli d a _ => { cls := .alu, srcs := [.x a.toNat], dsts := [.x d.toNat] }
  | .ceqi c a _ => { cls := .alu, srcs := [.x a.toNat], dsts := [.c c.toNat] }
  | .cnei c a _ => { cls := .alu, srcs := [.x a.toNat], dsts := [.c c.toNat] }
  | .cltsi c a _ => { cls := .alu, srcs := [.x a.toNat], dsts := [.c c.toNat] }
  | .clesi c a _ => { cls := .alu, srcs := [.x a.toNat], dsts := [.c c.toNat] }
  | .cltzi c a _ => { cls := .alu, srcs := [.x a.toNat], dsts := [.c c.toNat] }
  | .clezi c a _ => { cls := .alu, srcs := [.x a.toNat], dsts := [.c c.toNat] }
  | .cgtsi c a _ => { cls := .alu, srcs := [.x a.toNat], dsts := [.c c.toNat] }
  | .cgtzi c a _ => { cls := .alu, srcs := [.x a.toNat], dsts := [.c c.toNat] }
  | .movi d _ => { cls := .alu, dsts := [.x d.toNat] }
  | .adr d _ => { cls := .alu, dsts := [.x d.toNat] }
  | .ld d r u _ _ => { cls := .lsc, srcs := [.x (32 + r.toNat)], dsts := [.x d.toNat] ++ (if u = 1#1 then [.x (32 + r.toNat)] else []) }
  | .st d r u _ _ => { cls := .lsc, srcs := [.x d.toNat, .x (32 + r.toNat)], dsts := (if u = 1#1 then [.x (32 + r.toNat)] else []) }
  | .dclean a b => { cls := .lsc, srcs := [.x a.toNat, .x b.toNat] }
  | .dinv a b => { cls := .lsc, srcs := [.x a.toNat, .x b.toNat] }
  | .dflush a b => { cls := .lsc, srcs := [.x a.toNat, .x b.toNat] }
  | .isync a b => { cls := .lsc, srcs := [.x a.toNat, .x b.toNat] }
  | .fence _ => { cls := .lsc }
  | .pref a => { cls := .lsc, srcs := [.x a.toNat] }
  | .ldx d a b _ => { cls := .lsc, srcs := [.x a.toNat, .x b.toNat], dsts := [.x d.toNat] }
  | .br _ => { cls := .ct }
  | .call _ => { cls := .ct }
  | .ret => { cls := .ct }
  | .jr a => { cls := .ct, srcs := [.x a.toNat] }
  | .callr a => { cls := .ct, srcs := [.x a.toNat] }
  | .bru d a b => { cls := .ct, srcs := [.p d.toNat, .x a.toNat, .p b.toNat] }
  | .lbuf _ a => { cls := .ct, srcs := [.x a.toNat] }
  | .rpt _ x y _ _ => { cls := .ct, srcs := [.x (32 + x.toNat), .x (32 + y.toNat)], dsts := [.x (32 + x.toNat), .x (32 + y.toNat)] }
  | .faddF32 d a b => { cls := .fp, srcs := [.x a.toNat, .x b.toNat], dsts := [.x d.toNat] }
  | .fsubF32 d a b => { cls := .fp, srcs := [.x a.toNat, .x b.toNat], dsts := [.x d.toNat] }
  | .fmulF32 d a b => { cls := .fp, srcs := [.x a.toNat, .x b.toNat], dsts := [.x d.toNat] }
  | .fdivF32 d a b => { cls := .fp, srcs := [.x a.toNat, .x b.toNat], dsts := [.x d.toNat] }
  | .fsqrtF32 d a => { cls := .fp, srcs := [.x a.toNat], dsts := [.x d.toNat] }
  | .fminF32 d a b => { cls := .fp, srcs := [.x a.toNat, .x b.toNat], dsts := [.x d.toNat] }
  | .fmaxF32 d a b => { cls := .fp, srcs := [.x a.toNat, .x b.toNat], dsts := [.x d.toNat] }
  | .ffmaF32 d a b => { cls := .fp, srcs := [.x d.toNat, .x a.toNat, .x b.toNat], dsts := [.x d.toNat] }
  | .faddF64 d a b => { cls := .fp, srcs := [.x a.toNat, .x b.toNat], dsts := [.x d.toNat] }
  | .fsubF64 d a b => { cls := .fp, srcs := [.x a.toNat, .x b.toNat], dsts := [.x d.toNat] }
  | .fmulF64 d a b => { cls := .fp, srcs := [.x a.toNat, .x b.toNat], dsts := [.x d.toNat] }
  | .fdivF64 d a b => { cls := .fp, srcs := [.x a.toNat, .x b.toNat], dsts := [.x d.toNat] }
  | .fsqrtF64 d a => { cls := .fp, srcs := [.x a.toNat], dsts := [.x d.toNat] }
  | .fminF64 d a b => { cls := .fp, srcs := [.x a.toNat, .x b.toNat], dsts := [.x d.toNat] }
  | .fmaxF64 d a b => { cls := .fp, srcs := [.x a.toNat, .x b.toNat], dsts := [.x d.toNat] }
  | .ffmaF64 d a b => { cls := .fp, srcs := [.x d.toNat, .x a.toNat, .x b.toNat], dsts := [.x d.toNat] }
  | .feqF32 c a b => { cls := .fp, srcs := [.x a.toNat, .x b.toNat], dsts := [.c c.toNat] }
  | .fltF32 c a b => { cls := .fp, srcs := [.x a.toNat, .x b.toNat], dsts := [.c c.toNat] }
  | .fleF32 c a b => { cls := .fp, srcs := [.x a.toNat, .x b.toNat], dsts := [.c c.toNat] }
  | .funF32 c a b => { cls := .fp, srcs := [.x a.toNat, .x b.toNat], dsts := [.c c.toNat] }
  | .feqF64 c a b => { cls := .fp, srcs := [.x a.toNat, .x b.toNat], dsts := [.c c.toNat] }
  | .fltF64 c a b => { cls := .fp, srcs := [.x a.toNat, .x b.toNat], dsts := [.c c.toNat] }
  | .fleF64 c a b => { cls := .fp, srcs := [.x a.toNat, .x b.toNat], dsts := [.c c.toNat] }
  | .funF64 c a b => { cls := .fp, srcs := [.x a.toNat, .x b.toNat], dsts := [.c c.toNat] }
  | .fcvtF32S64 d a => { cls := .fp, srcs := [.x a.toNat], dsts := [.x d.toNat] }
  | .fcvtF64S64 d a => { cls := .fp, srcs := [.x a.toNat], dsts := [.x d.toNat] }
  | .fcvtS64F32 d a => { cls := .fp, srcs := [.x a.toNat], dsts := [.x d.toNat] }
  | .fcvtS64F64 d a => { cls := .fp, srcs := [.x a.toNat], dsts := [.x d.toNat] }
  | .fcvtF64F32 d a => { cls := .fp, srcs := [.x a.toNat], dsts := [.x d.toNat] }
  | .fcvtF32F64 d a => { cls := .fp, srcs := [.x a.toNat], dsts := [.x d.toNat] }
  | .fcvtF32Bf16 d a => { cls := .fp, srcs := [.x a.toNat], dsts := [.x d.toNat] }
  | .fcvtBf16F32 d a => { cls := .fp, srcs := [.x a.toNat], dsts := [.x d.toNat] }
  | .vaddF32 d a b p => { cls := .vec, srcs := [.v a.toNat, .v b.toNat, .p p.toNat], dsts := [.v d.toNat] }
  | .vsubF32 d a b p => { cls := .vec, srcs := [.v a.toNat, .v b.toNat, .p p.toNat], dsts := [.v d.toNat] }
  | .vmulF32 d a b p => { cls := .vec, srcs := [.v a.toNat, .v b.toNat, .p p.toNat], dsts := [.v d.toNat] }
  | .vfmaF32 d a b p => { cls := .vec, srcs := [.v d.toNat, .v a.toNat, .v b.toNat, .p p.toNat], dsts := [.v d.toNat] }
  | .vminF32 d a b p => { cls := .vec, srcs := [.v a.toNat, .v b.toNat, .p p.toNat], dsts := [.v d.toNat] }
  | .vmaxF32 d a b p => { cls := .vec, srcs := [.v a.toNat, .v b.toNat, .p p.toNat], dsts := [.v d.toNat] }
  | .vfmsF32 d a b p => { cls := .vec, srcs := [.v d.toNat, .v a.toNat, .v b.toNat, .p p.toNat], dsts := [.v d.toNat] }
  | .vabsF32 d a p => { cls := .vec, srcs := [.v a.toNat, .p p.toNat], dsts := [.v d.toNat] }
  | .vaddBf16 d a b p => { cls := .vec, srcs := [.v a.toNat, .v b.toNat, .p p.toNat], dsts := [.v d.toNat] }
  | .vsubBf16 d a b p => { cls := .vec, srcs := [.v a.toNat, .v b.toNat, .p p.toNat], dsts := [.v d.toNat] }
  | .vmulBf16 d a b p => { cls := .vec, srcs := [.v a.toNat, .v b.toNat, .p p.toNat], dsts := [.v d.toNat] }
  | .vfmaBf16 d a b p => { cls := .vec, srcs := [.v d.toNat, .v a.toNat, .v b.toNat, .p p.toNat], dsts := [.v d.toNat] }
  | .vminBf16 d a b p => { cls := .vec, srcs := [.v a.toNat, .v b.toNat, .p p.toNat], dsts := [.v d.toNat] }
  | .vmaxBf16 d a b p => { cls := .vec, srcs := [.v a.toNat, .v b.toNat, .p p.toNat], dsts := [.v d.toNat] }
  | .vfmsBf16 d a b p => { cls := .vec, srcs := [.v d.toNat, .v a.toNat, .v b.toNat, .p p.toNat], dsts := [.v d.toNat] }
  | .vabsBf16 d a p => { cls := .vec, srcs := [.v a.toNat, .p p.toNat], dsts := [.v d.toNat] }
  | .vaddS32 d a b p => { cls := .vec, srcs := [.v a.toNat, .v b.toNat, .p p.toNat], dsts := [.v d.toNat] }
  | .vsubS32 d a b p => { cls := .vec, srcs := [.v a.toNat, .v b.toNat, .p p.toNat], dsts := [.v d.toNat] }
  | .vmulS32 d a b p => { cls := .vec, srcs := [.v a.toNat, .v b.toNat, .p p.toNat], dsts := [.v d.toNat] }
  | .vmacS32 d a b p => { cls := .vec, srcs := [.v d.toNat, .v a.toNat, .v b.toNat, .p p.toNat], dsts := [.v d.toNat] }
  | .vminsS32 d a b p => { cls := .vec, srcs := [.v a.toNat, .v b.toNat, .p p.toNat], dsts := [.v d.toNat] }
  | .vmaxsS32 d a b p => { cls := .vec, srcs := [.v a.toNat, .v b.toNat, .p p.toNat], dsts := [.v d.toNat] }
  | .vminzS32 d a b p => { cls := .vec, srcs := [.v a.toNat, .v b.toNat, .p p.toNat], dsts := [.v d.toNat] }
  | .vmaxzS32 d a b p => { cls := .vec, srcs := [.v a.toNat, .v b.toNat, .p p.toNat], dsts := [.v d.toNat] }
  | .vand d a b p => { cls := .vec, srcs := [.v a.toNat, .v b.toNat, .p p.toNat], dsts := [.v d.toNat] }
  | .vor d a b p => { cls := .vec, srcs := [.v a.toNat, .v b.toNat, .p p.toNat], dsts := [.v d.toNat] }
  | .vxor d a b p => { cls := .vec, srcs := [.v a.toNat, .v b.toNat, .p p.toNat], dsts := [.v d.toNat] }
  | .vandn d a b p => { cls := .vec, srcs := [.v a.toNat, .v b.toNat, .p p.toNat], dsts := [.v d.toNat] }
  | .vshl d a b p => { cls := .vec, srcs := [.v a.toNat, .v b.toNat, .p p.toNat], dsts := [.v d.toNat] }
  | .vshr d a b p => { cls := .vec, srcs := [.v a.toNat, .v b.toNat, .p p.toNat], dsts := [.v d.toNat] }
  | .vsar d a b p => { cls := .vec, srcs := [.v a.toNat, .v b.toNat, .p p.toNat], dsts := [.v d.toNat] }
  | .vsel d a b p => { cls := .vec, srcs := [.v a.toNat, .v b.toNat, .p p.toNat], dsts := [.v d.toNat] }
  | .vrcp d a p => { cls := .vec, srcs := [.v a.toNat, .p p.toNat], dsts := [.v d.toNat] }
  | .vrsq d a p => { cls := .vec, srcs := [.v a.toNat, .p p.toNat], dsts := [.v d.toNat] }
  | .vsqrt d a p => { cls := .vec, srcs := [.v a.toNat, .p p.toNat], dsts := [.v d.toNat] }
  | .vex2 d a p => { cls := .vec, srcs := [.v a.toNat, .p p.toNat], dsts := [.v d.toNat] }
  | .vlg2 d a p => { cls := .vec, srcs := [.v a.toNat, .p p.toNat], dsts := [.v d.toNat] }
  | .vdiv d a b p => { cls := .vec, srcs := [.v a.toNat, .v b.toNat, .p p.toNat], dsts := [.v d.toNat] }
  | .vfloor d a p => { cls := .vec, srcs := [.v a.toNat, .p p.toNat], dsts := [.v d.toNat] }
  | .vround d a p => { cls := .vec, srcs := [.v a.toNat, .p p.toNat], dsts := [.v d.toNat] }
  | .vceqF32 d a b p => { cls := .vec, srcs := [.v a.toNat, .v b.toNat, .p p.toNat], dsts := [.p d.toNat] }
  | .vcltF32 d a b p => { cls := .vec, srcs := [.v a.toNat, .v b.toNat, .p p.toNat], dsts := [.p d.toNat] }
  | .vcleF32 d a b p => { cls := .vec, srcs := [.v a.toNat, .v b.toNat, .p p.toNat], dsts := [.p d.toNat] }
  | .vcunF32 d a b p => { cls := .vec, srcs := [.v a.toNat, .v b.toNat, .p p.toNat], dsts := [.p d.toNat] }
  | .vceqS32 d a b p => { cls := .vec, srcs := [.v a.toNat, .v b.toNat, .p p.toNat], dsts := [.p d.toNat] }
  | .vcltS32 d a b p => { cls := .vec, srcs := [.v a.toNat, .v b.toNat, .p p.toNat], dsts := [.p d.toNat] }
  | .vcleS32 d a b p => { cls := .vec, srcs := [.v a.toNat, .v b.toNat, .p p.toNat], dsts := [.p d.toNat] }
  | .vcltzS32 d a b p => { cls := .vec, srcs := [.v a.toNat, .v b.toNat, .p p.toNat], dsts := [.p d.toNat] }
  | .pand d a b => { cls := .vec, srcs := [.p a.toNat, .p b.toNat], dsts := [.p d.toNat] }
  | .por d a b => { cls := .vec, srcs := [.p a.toNat, .p b.toNat], dsts := [.p d.toNat] }
  | .pxor d a b => { cls := .vec, srcs := [.p a.toNat, .p b.toNat], dsts := [.p d.toNat] }
  | .pandn d a b => { cls := .vec, srcs := [.p a.toNat, .p b.toNat], dsts := [.p d.toNat] }
  | .pnot d a => { cls := .vec, srcs := [.p a.toNat], dsts := [.p d.toNat] }
  | .pany d a p => { cls := .vec, srcs := [.p a.toNat, .p p.toNat], dsts := [.c d.toNat] }
  | .pall d a p => { cls := .vec, srcs := [.p a.toNat, .p p.toNat], dsts := [.c d.toNat] }
  | .pcnt d a p => { cls := .vec, srcs := [.p a.toNat, .p p.toNat], dsts := [.x d.toNat] }
  | .vrsumF32 d a p => { cls := .vec, srcs := [.v a.toNat, .p p.toNat], dsts := [.v d.toNat] }
  | .vrmaxF32 d a p => { cls := .vec, srcs := [.v a.toNat, .p p.toNat], dsts := [.v d.toNat] }
  | .vrminF32 d a p => { cls := .vec, srcs := [.v a.toNat, .p p.toNat], dsts := [.v d.toNat] }
  | .vrsumS32 d a p => { cls := .vec, srcs := [.v a.toNat, .p p.toNat], dsts := [.v d.toNat] }
  | .vscanF32 d a p => { cls := .vec, srcs := [.v a.toNat, .p p.toNat], dsts := [.v d.toNat] }
  | .vscanS32 d a p => { cls := .vec, srcs := [.v a.toNat, .p p.toNat], dsts := [.v d.toNat] }
  | .vtopk d a _ p => { cls := .vec, srcs := [.v d.toNat, .v a.toNat, .p p.toNat], dsts := [.v d.toNat] }
  | .vargmax d a p => { cls := .vec, srcs := [.v a.toNat, .p p.toNat], dsts := [.v d.toNat] }
  | .vbcast d a b p => { cls := .vec, srcs := [.v a.toNat, .v b.toNat, .p p.toNat], dsts := [.v d.toNat] }
  | .vperm d a b p => { cls := .vec, srcs := [.v a.toNat, .v b.toNat, .p p.toNat], dsts := [.v d.toNat] }
  | .vrot d a b p => { cls := .vec, srcs := [.v a.toNat, .v b.toNat, .p p.toNat], dsts := [.v d.toNat] }
  | .vslide d a b p => { cls := .vec, srcs := [.v a.toNat, .v b.toNat, .p p.toNat], dsts := [.v d.toNat] }
  | .vzip d a b p => { cls := .vec, srcs := [.v a.toNat, .v b.toNat, .p p.toNat], dsts := [.v d.toNat] }
  | .vunzip d a b p => { cls := .vec, srcs := [.v a.toNat, .v b.toNat, .p p.toNat], dsts := [.v d.toNat] }
  | .vcompress d a p => { cls := .vec, srcs := [.v a.toNat, .p p.toNat], dsts := [.v d.toNat] }
  | .vexpand d a p => { cls := .vec, srcs := [.v a.toNat, .p p.toNat], dsts := [.v d.toNat] }
  | .vcvtF32S32 d a p => { cls := .vec, srcs := [.v a.toNat, .p p.toNat], dsts := [.v d.toNat] }
  | .vcvtS32F32 d a p => { cls := .vec, srcs := [.v a.toNat, .p p.toNat], dsts := [.v d.toNat] }
  | .vcvtBf16F32 d a b p => { cls := .vec, srcs := [.v a.toNat, .v b.toNat, .p p.toNat], dsts := [.v d.toNat] }
  | .vcvtF32Bf16l d a p => { cls := .vec, srcs := [.v a.toNat, .p p.toNat], dsts := [.v d.toNat] }
  | .vcvtF32Bf16h d a p => { cls := .vec, srcs := [.v a.toNat, .p p.toNat], dsts := [.v d.toNat] }
  | .vcvtF16F32 d a b p => { cls := .vec, srcs := [.v a.toNat, .v b.toNat, .p p.toNat], dsts := [.v d.toNat] }
  | .vcvtF32F16l d a p => { cls := .vec, srcs := [.v a.toNat, .p p.toNat], dsts := [.v d.toNat] }
  | .vcvtF32F16h d a p => { cls := .vec, srcs := [.v a.toNat, .p p.toNat], dsts := [.v d.toNat] }
  | .vkbpack d a _ => { cls := .vec, srcs := [.v a.toNat], dsts := [.v d.toNat] }
  | .vkbunpack d a _ => { cls := .vec, srcs := [.v a.toNat], dsts := [.v d.toNat] }
  | .vkbscale d a _ => { cls := .vec, srcs := [.v a.toNat], dsts := [.v d.toNat] }
  | .vmov d a p => { cls := .vec, srcs := [.v a.toNat, .p p.toNat], dsts := [.v d.toNat] }
  | .vfill d a p => { cls := .vec, srcs := [.x a.toNat, .p p.toNat], dsts := [.v d.toNat] }
  | .vins d a b p => { cls := .vec, srcs := [.v d.toNat, .x a.toNat, .x b.toNat, .p p.toNat], dsts := [.v d.toNat] }
  | .vext d a b => { cls := .vec, srcs := [.v a.toNat, .x b.toNat], dsts := [.x d.toNat] }
  | .vqpk d a p => { cls := .vec, srcs := [.p p.toNat], dsts := [.v d.toNat], peek := some (.v (28 + a.toNat % 4)) }
  | .vqcnt d _ => { cls := .vec, dsts := [.x d.toNat] }
  | .vqclr _ => { cls := .vec }
  | .vlaneid d p => { cls := .vec, srcs := [.p p.toNat], dsts := [.v d.toNat] }
  | .vld v r u p m _ => { cls := .vec, srcs := [.x (32 + r.toNat)] ++ (if m = 1#2 then [.x (32 + (r.toNat + 1) % 16)] else []) ++ [.p p.toNat], dsts := [.v v.toNat] ++ (if u = 1#1 then [.x (32 + r.toNat)] else []) }
  | .vst v r u p m _ => { cls := .vec, srcs := [.v v.toNat, .x (32 + r.toNat)] ++ (if m = 1#2 then [.x (32 + (r.toNat + 1) % 16)] else []) ++ [.p p.toNat], dsts := (if u = 1#1 then [.x (32 + r.toNat)] else []) }
  | .vgth32 d a b p => { cls := .vec, srcs := [.x (32 + a.toNat), .v b.toNat, .p p.toNat], dsts := [.v d.toNat] }
  | .vsct32 d a b p => { cls := .vec, srcs := [.v d.toNat, .x (32 + a.toNat), .v b.toNat, .p p.toNat] }
  | .vgth16 d a b p => { cls := .vec, srcs := [.x (32 + a.toNat), .v b.toNat, .p p.toNat], dsts := [.v d.toNat] }
  | .vsct16 d a b p => { cls := .vec, srcs := [.v d.toNat, .x (32 + a.toNat), .v b.toNat, .p p.toNat] }
  | .vsctaddF32 d a b p => { cls := .vec, srcs := [.v d.toNat, .x (32 + a.toNat), .v b.toNat, .p p.toNat] }
  | .vsctaddS32 d a b p => { cls := .vec, srcs := [.v d.toNat, .x (32 + a.toNat), .v b.toNat, .p p.toNat] }
  | .qpk d q => { cls := .alu, dsts := [.x d.toNat], peek := some (.x (48 + q.toNat)) }
  | .qcnt d _ => { cls := .alu, dsts := [.x d.toNat] }
  | .qclr _ => { cls := .alu }
  | .qbind d _ b => { cls := .alu, srcs := [.x b.toNat], dsts := [.x d.toNat] }
  | .qunbind d _ => { cls := .alu, dsts := [.x d.toNat] }
  | .mfmt _ y => { cls := .eng, srcs := [.x y.toNat] }
  | .mdrain _ _ _ => { cls := .eng }
  | .mzero _ _ => { cls := .eng }
  | .mstat x _ => { cls := .eng, dsts := [.x x.toNat] }
  | .mma _ _ a b _ => { cls := .mma, srcs := [.x (32 + a.toNat), .x (32 + b.toNat)] }
  | .mrdv _ d y => { cls := .eng, srcs := [.x y.toNat], dsts := [.v d.toNat] }
  | .mrdq _ d y => { cls := .eng, srcs := [.x y.toNat], dsts := [.v d.toNat] }
  | .mstF32 _ _ y => { cls := .eng, srcs := [.x y.toNat] }
  | .mstBf16 _ _ y => { cls := .eng, srcs := [.x y.toNat] }
  | .mstKb _ _ y => { cls := .eng, srcs := [.x y.toNat] }
  | .mwrv _ a y => { cls := .eng, srcs := [.v a.toNat, .x y.toNat] }
  | .oclaim x y => { cls := .eng, srcs := [.x y.toNat], dsts := [.x x.toNat] }
  | .orelease x y => { cls := .eng, srcs := [.x y.toNat], dsts := [.x x.toNat] }
  | .oload _ x y => { cls := .eng, srcs := [.x x.toNat, .x y.toNat] }
  | .ofill _ x y => { cls := .eng, srcs := [.x x.toNat, .x y.toNat] }
  | .ostat x y => { cls := .eng, srcs := [.x y.toNat], dsts := [.x x.toNat] }
  | .wrset _ x y => { cls := .eng, srcs := [.x (2 * x.toNat), .x (2 * x.toNat + 1), .x y.toNat] }
  | .wradv _ x y => { cls := .eng, srcs := [.x x.toNat, .x y.toNat] }
  | .wrstat x y => { cls := .eng, srcs := [.x y.toNat], dsts := [.x x.toNat] }
  | .wrfree _ x => { cls := .eng, srcs := [.x x.toNat] }
  | .wrbind _ y => { cls := .eng, srcs := [.x y.toNat] }
  | .wrout _ x y => { cls := .eng, srcs := [.x x.toNat, .x y.toNat] }
  | .wrflush _ x => { cls := .eng, srcs := [.x x.toNat] }
  | .wnew _ x y => { cls := .eng, srcs := [.x x.toNat, .x y.toNat] }
  | .wfree _ x => { cls := .eng, srcs := [.x x.toNat] }
  | .wfence _ x y => { cls := .eng, srcs := [.x x.toNat, .x y.toNat] }
  | .wpost _ x y => { cls := .eng, srcs := [.x x.toNat, .x y.toNat] }
  | .wstart _ x y => { cls := .eng, srcs := [.x x.toNat, .x y.toNat] }
  | .wcompl _ x => { cls := .eng, srcs := [.x x.toNat] }
  | .wwait _ x => { cls := .eng, srcs := [.x x.toNat] }
  | .wlock _ x y => { cls := .eng, srcs := [.x x.toNat, .x y.toNat] }
  | .wunlock _ x y => { cls := .eng, srcs := [.x x.toNat, .x y.toNat] }
  | .wflush _ x y => { cls := .eng, srcs := [.x x.toNat, .x y.toNat] }
  | .wquery x y => { cls := .eng, srcs := [.x y.toNat], dsts := [.x x.toNat] }
  | .get _ x y => { cls := .eng, srcs := [.x x.toNat, .x (2 * y.toNat), .x (2 * y.toNat + 1)] }
  | .put _ x y => { cls := .eng, srcs := [.x x.toNat, .x (2 * y.toNat), .x (2 * y.toNat + 1)] }
  | .putm _ x y => { cls := .eng, srcs := [.x x.toNat, .x (2 * y.toNat), .x (2 * y.toNat + 1)] }
  | .accAddf _ x y => { cls := .eng, srcs := [.x x.toNat, .x (2 * y.toNat), .x (2 * y.toNat + 1)] }
  | .accAdds _ x y => { cls := .eng, srcs := [.x x.toNat, .x (2 * y.toNat), .x (2 * y.toNat + 1)] }
  | .accFx _ x y => { cls := .eng, srcs := [.x x.toNat, .x (2 * y.toNat), .x (2 * y.toNat + 1)] }
  | .accMaxf _ x y => { cls := .eng, srcs := [.x x.toNat, .x (2 * y.toNat), .x (2 * y.toNat + 1)] }
  | .accMinf _ x y => { cls := .eng, srcs := [.x x.toNat, .x (2 * y.toNat), .x (2 * y.toNat + 1)] }
  | .getacc _ x y => { cls := .eng, srcs := [.x x.toNat, .x (2 * y.toNat), .x (2 * y.toNat + 1)] }
  | .rcas _ x y => { cls := .eng, srcs := [.x x.toNat, .x (2 * y.toNat), .x (2 * y.toNat + 1)] }
  | .getro _ x y => { cls := .eng, srcs := [.x x.toNat, .x (2 * y.toNat), .x (2 * y.toNat + 1)] }
  | .dispatch _ x => { cls := .eng, srcs := [.x x.toNat] }
  | .combine _ x => { cls := .eng, srcs := [.x x.toNat] }
  | .coll _ x => { cls := .eng, srcs := [.x x.toNat] }
  | .cstat x y => { cls := .eng, srcs := [.x y.toNat], dsts := [.x x.toNat] }
  | .ccancel _ x => { cls := .eng, srcs := [.x x.toNat] }
  | .aadd d a b => { cls := .sync, srcs := [.x a.toNat, .x b.toNat], dsts := [.x d.toNat] }
  | .aand d a b => { cls := .sync, srcs := [.x a.toNat, .x b.toNat], dsts := [.x d.toNat] }
  | .aor d a b => { cls := .sync, srcs := [.x a.toNat, .x b.toNat], dsts := [.x d.toNat] }
  | .axchg d a b => { cls := .sync, srcs := [.x a.toNat, .x b.toNat], dsts := [.x d.toNat] }
  | .amaxs d a b => { cls := .sync, srcs := [.x a.toNat, .x b.toNat], dsts := [.x d.toNat] }
  | .amins d a b => { cls := .sync, srcs := [.x a.toNat, .x b.toNat], dsts := [.x d.toNat] }
  | .aaddf d a b => { cls := .sync, srcs := [.x a.toNat, .x b.toNat], dsts := [.x d.toNat] }
  | .afx d a b => { cls := .sync, srcs := [.x a.toNat, .x b.toNat], dsts := [.x d.toNat] }
  | .acas d a b => { cls := .sync, srcs := [.x d.toNat, .x a.toNat, .x b.toNat], dsts := [.x d.toNat] }
  | .ahist d a b => { cls := .sync, srcs := [.x a.toNat, .x b.toNat], dsts := [.x d.toNat] }
  | .barv d a b => { cls := .sync, srcs := [.x a.toNat, .x b.toNat], dsts := [.x d.toNat] }
  | .barw d a b => { cls := .sync, srcs := [.x a.toNat, .x b.toNat], dsts := [.x d.toNat] }
  | .barset d a b => { cls := .sync, srcs := [.x a.toNat, .x b.toNat], dsts := [.x d.toNat] }
  | .barq d a => { cls := .sync, srcs := [.x a.toNat], dsts := [.x d.toNat] }
  | .tlwait d _ b => { cls := .sync, srcs := [.x b.toNat], dsts := [.x d.toNat] }
  | .tlrd d _ => { cls := .sync, dsts := [.x d.toNat] }
  | .tlwaitr d _ b => { cls := .sync, srcs := [.x b.toNat], dsts := [.x d.toNat] }
  | .tlrdi d _ => { cls := .sync, dsts := [.x d.toNat] }
  | .tlrdc d _ => { cls := .sync, dsts := [.x d.toNat] }
  | .tlrdv d _ => { cls := .sync, dsts := [.x d.toNat] }
  | .tlerr d _ => { cls := .sync, dsts := [.x (2 * d.toNat), .x (2 * d.toNat + 1)] }
  | .bwph a => { cls := .sync, srcs := [.x a.toNat] }
  | .wakew => { cls := .sync }
  | .tlbinv a b => { cls := .sys, level := 1, srcs := [.x a.toNat, .x b.toNat] }
  | .tlbsync => { cls := .sys, level := 1 }
  | .rtcinv a b => { cls := .sys, level := 1, srcs := [.x a.toNat, .x b.toNat] }
  | .rtcsync => { cls := .sys, level := 1 }
  | .trun a => { cls := .sync, srcs := [.x a.toNat] }
  | .tchain a => { cls := .sync, srcs := [.x a.toNat] }
  | .tcond a => { cls := .sync, srcs := [.x a.toNat] }
  | .qpop d a c => { cls := .sync, srcs := [.x a.toNat], dsts := [.x d.toNat, .c c.toNat] }
  | .qtry d a c => { cls := .sync, srcs := [.x a.toNat], dsts := [.x d.toNat, .c c.toNat] }
  | .qpush d a b => { cls := .sync, srcs := [.x a.toNat, .x b.toNat], dsts := [.x d.toNat] }
  | .qcancel d a b => { cls := .sync, srcs := [.x a.toNat, .x b.toNat], dsts := [.x d.toNat] }
  | .qthaw d a => { cls := .sync, srcs := [.x a.toNat], dsts := [.x d.toNat] }
  | .hpush d a b => { cls := .sync, srcs := [.x a.toNat, .x b.toNat], dsts := [.x d.toNat] }
  | .hpop d a c => { cls := .sync, srcs := [.x a.toNat], dsts := [.x d.toNat, .c c.toNat] }
  | .hadj d a b => { cls := .sync, srcs := [.x a.toNat, .x b.toNat], dsts := [.x d.toNat] }
  | .hmax d a b => { cls := .sync, srcs := [.x a.toNat, .x b.toNat], dsts := [.x d.toNat] }
  | .hres d a b => { cls := .sync, srcs := [.x a.toNat, .x b.toNat], dsts := [.x d.toNat] }
  | .hdone d a b => { cls := .sync, srcs := [.x a.toNat, .x b.toNat], dsts := [.x d.toNat] }
  | .hread d a b => { cls := .sync, srcs := [.x a.toNat, .x b.toNat], dsts := [.x d.toNat] }
  | .csrr d _ => { cls := .sys, dsts := [.x d.toNat] }
  | .csrw d _ => { cls := .sys, srcs := [.x d.toNat] }
  | .eret => { cls := .sys, level := 1 }
  | .segenter a => { cls := .sys, level := 1, srcs := [.x a.toNat] }
  | .segsealSeal a b => { cls := .sys, level := 2, srcs := [.x a.toNat, .x b.toNat] }
  | .segsealPatch a b => { cls := .sys, level := 2, srcs := [.x a.toNat, .x b.toNat] }
  | .kslotQuery d a b => { cls := .sys, level := 2, srcs := [.x a.toNat, .x b.toNat], dsts := [.x d.toNat] }
  | .kslotInstall d a b => { cls := .sys, level := 2, srcs := [.x a.toNat, .x b.toNat], dsts := [.x d.toNat] }
  | .kslotZeroise d a _ => { cls := .sys, level := 2, srcs := [.x a.toNat], dsts := [.x d.toNat] }
  | .kslotRotate d a b => { cls := .sys, level := 2, srcs := [.x a.toNat, .x b.toNat], dsts := [.x d.toNat] }
  | .kslotBind d a b => { cls := .sys, level := 2, srcs := [.x a.toNat, .x b.toNat], dsts := [.x d.toNat] }
  | .scrub d a => { cls := .sys, level := 2, srcs := [.x a.toNat], dsts := [.x d.toNat] }
  | .pgmap _ a b => { cls := .sys, level := 1, srcs := [.x a.toNat, .x b.toNat] }
  | .ext _ => {}
  | .blockOpen _ => {}
  | .fixedLatencyLanding _ => {}
  | .interlockedResultArrival _ _ => {}
  | .compensatedResultArrival _ => {}
  | .loadMemoryError _ => {}
  | .boundQueueDelivery _ _ => {}
  | .contextExitCompletion _ => {}
  | .engineCommandStart _ _ => {}
  | .mmaRepetitionAccept _ _ => {}
  | .mmaCompletion _ _ => {}
  | .oloadCompletion _ _ => {}
  | .ofillCompletion _ _ => {}
  | .mstCompletion _ _ => {}
  | .drainRowDelivery _ _ => {}
  | .pgmapCompletion _ => {}
  | .ringRowLanding _ _ => {}
  | .ringMulticastRow _ => {}
  | .recvRegistration _ _ => {}
  | .ringCreditReturn _ => {}
  | .ringBoundRowDelivery _ _ => {}
  | .ringRowWriteAccept _ _ => {}
  | .fabricPacketHop _ => {}
  | .mailbagWaitExpiry _ _ => {}
  | .mailbagArrival _ _ => {}
  | .remoteRequestArrival _ => {}
  | .orderedPacketRelease _ => {}
  | .remoteResponseArrival _ => {}
  | .translationRequest _ => {}
  | .translationReply _ => {}
  | .tokenInvalidation _ => {}
  | .tokenInvalidationAck _ => {}
  | .windowCollectiveNotice _ => {}
  | .fenceCloseNotice _ => {}
  | .postNotice _ => {}
  | .completeNotice _ => {}
  | .lockRequest _ => {}
  | .lockRelease _ => {}
  | .headAnnouncement _ => {}
  | .collectiveChunk _ _ => {}
  | .dispatchCountExchange _ => {}
  | .deliveryStreamEntry _ _ => {}
  | .cancelArrival _ => {}
  | .laneFailure _ _ => {}
  | .iczerGroupArrival _ _ => {}
  | .iczerIdleFill _ => {}
  | .iczerRekey _ => {}
  | .iczerCounterExhausted _ => {}
  | .iczerLinkRetrain _ => {}
  | .joinReport _ _ => {}
  | .joinTimeout _ => {}
  | .l1MissFill _ _ => {}
  | .pageTableWalk _ _ _ => {}
  | .pigeonholeBankAccess _ _ => {}
  | .writeQueueWatermarkDrain _ _ => {}
  | .writeQueueAgeDrain _ _ => {}
  | .rowActivationRefresh _ _ => {}
  | .patrolRead _ _ => {}
  | .channelRetirementStart _ _ => {}
  | .granuleMove _ => {}
  | .retirementComplete _ => {}
  | .bankSetNap _ _ => {}
  | .bankSetRetain _ _ => {}
  | .bankSetDeep _ _ => {}
  | .bankSetWake _ _ => {}
  | .lsBankWake _ _ => {}
  | .keyRotationGranule _ => {}
  | .keyRotationComplete _ => {}
  | .scrubUnit _ => {}
  | .scrubComplete _ => {}
  | .letterEnqueue _ _ _ _ => {}
  | .schedulingDecision => {}
  | .letterAging _ => {}
  | .completionWriteLetter _ => {}
  | .completionWaitPoll _ => {}
  | .gangStart _ => {}
  | .instanceCompletion _ => {}
  | .contextPreemptionStop _ => {}
  | .contextSave _ => {}
  | .teamResumption _ => {}
  | .taskfaultDelivery _ => {}
  | .sealreqDone _ => {}
  | .sealreqRefuse _ => {}
  | .ckptbaseWrite _ _ => {}
  | .trapcauseDiscard _ => {}
  | .lsboundsWrite _ _ _ => {}
  | .lspwrWrite _ _ _ => {}
  | .ptrootWrite _ _ => {}
  | .slretRetire _ _ => {}
  | .slretGo _ => {}
  | .wqcfgWrite _ _ _ => {}
  | .hpctlReset _ _ => {}
  | .hpcapWrite _ _ _ => {}
  | .gmkillWrite _ => {}
  | .rtcdropAll _ => {}
  | .cecntRead _ => {}
  | .merrstatRead _ => {}
  | .rtcstatRead _ => {}
  | .iczerrRead _ => {}
  | .pmcntRead _ => {}
  | .pbstatRead _ => {}
  | .pbcancelWrite _ _ => {}
  | .elstatRead _ => {}
  | .sitectlExpertWrite _ _ => {}
  | .hostRegisterWrite _ _ _ => {}
  | .hostUnimplementedAccess _ _ _ => {}
  | .bar4Read _ _ => {}
  | .bar4Write _ _ _ => {}
  | .panelctlCold => {}
  | .panelctlWarm => {}
  | .panelctlSitewarm _ => {}
  | .powerOn => {}
  | .startupStageAdvance => {}
  | .hostLinkDown _ => {}
  | .getVersion _ => {}
  | .getCapabilities _ => {}
  | .negotiateAlgorithms _ => {}
  | .getDigests _ => {}
  | .getCertificate _ => {}
  | .challenge _ => {}
  | .getMeasurements _ _ => {}
  | .keyExchange _ => {}
  | .finish _ _ => {}
  | .endSession _ _ => {}
  | .ideKmQuery _ _ => {}
  | .ideKmKeyProg _ _ _ => {}
  | .ideKmKSetGo _ _ _ => {}
  | .ideKmKSetStop _ _ _ => {}
  | .thermalThrottle _ => {}
  | .thermalShutdown _ => {}
  | .thermalRestart _ => {}
  | .coolantFlowLow => {}
  | .dvfsChange _ => {}
  | .aclkCycle _ => {}
  | .unallocatedEncoding _ => {}
  | .letterWindowWrite _ _ _ => {}
  | .unlistedSpdmRequest _ => {}
  | .joinPartFailure _ => {}

end Sys2Proof.Machine
end

