-- ==== Sys2Proof/Machine/Bundle.lean ====
section
/-! DEFINITION. A bundle: its checks (R60 to R68, R94, R250), its wait count and stalls (R61, R88, R91, R104), the execution of
its slots in order (R89, R99, R100, R112), and where the context goes next (R97, R102, R111, R310). -/
namespace Sys2Proof.Machine

/-! ## Checks of R68 -/

/-- A slot of a bundle: its index, its word, and what the word decodes to. -/
structure Slot where
  ix : Nat
  w : Nat
  i : Instr
  deriving DecidableEq, Repr

/-- Opcode validity, slot by slot (R68 step 2); an ext with a guard traps RESERVED (R65). -/
noncomputable def decodeAll : Nat → List Nat → Except Trap (List Slot)
  | _, [] => .ok []
  | k, w :: ws =>
    match decodeSlot k w with
    | .error e => .error { cause := 0x01, reason := e.code, slot := k }
    | .ok i =>
      if k ≠ 0 ∧ bits w 27 4 ≠ 0 ∧ bits w 21 6 = 0x3F then .error { cause := 0x01, reason := 3, slot := k }
      else match decodeAll (k + 1) ws with
        | .error t => .error t
        | .ok is => .ok ({ ix := k, w := w, i := i } :: is)

/-- The slot is eret or segenter. -/
def Instr.isLeave : Instr → Bool
  | .eret => true
  | .segenter _ => true
  | _ => false

/-- The pairing rule of R250: eret or segenter beside a slot of class CT. -/
def pairTrap (ss : List Slot) : Option Trap :=
  if ss.any fun x => (shape x.i).cls == .ct then
    (ss.find? fun x => Instr.isLeave x.i).map fun x => { cause := 0x01, reason := 2, slot := x.ix }
  else none

/-- Majors of the formats that ext may prefix (R65). -/
def prefixable (w : Nat) : Bool :=
  [0x08, 0x09, 0x0A, 0x0B, 0x0D, 0x0E, 0x0F, 0x10, 0x11, 0x14, 0x15, 0x28, 0x29].contains (bits w 21 6)

def Slot.isExt (x : Slot) : Bool := bits x.w 21 6 == 0x3F

/-- The lowest misplaced ext (R65). -/
def prefixBad : List Slot → Option Nat
  | [] => none
  | [x] => if x.isExt then some x.ix else none
  | x :: y :: r => if x.isExt && !prefixable y.w then some x.ix else prefixBad (y :: r)

def Instr.isRpt : Instr → Bool
  | .rpt _ _ _ _ _ => true
  | _ => false

/-- An rpt without exactly one mma (R66). -/
def repeatBad (ss : List Slot) : Option Nat :=
  match ss.find? fun x => Instr.isRpt x.i with
  | none => none
  | some x => if (ss.filter fun y => (shape y.i).cls == .mma).length = 1 then none else some x.ix

/-- The lowest slot that writes a register written before in the bundle (R64). -/
def sameDest (seen : List Reg) : List Slot → Option Nat
  | [] => none
  | x :: r =>
    let ds := (shape x.i).dsts
    if ds.any (seen.contains ·) || !decide ds.Nodup then some x.ix else sameDest (ds ++ seen) r

/-- The resource of a slot: its class, and for an mma its engine (R67). -/
def resource : Instr → Cls × Nat
  | .mma _ k _ _ _ => (.mma, k.toNat / 4)
  | i => ((shape i).cls, 0)

/-- Slots per bundle (Table 11). nop and ext have no limit: two merged bundles have 16 slots at most. -/
def Cls.limit : Cls → Nat
  | .alu => 4
  | .lsc => 2
  | .fp => 2
  | .vec => 2
  | .none => 16
  | _ => 1

/-- What the merge stage keeps of a bundle's resources (R95): each slot's class by number, and its engine. -/
def useOf (ss : List Slot) : List (Nat × Nat) :=
  ss.map fun x => ((resource x.i).1.ctorIdx, (resource x.i).2)

/-- Table 11 by class number. -/
def useLimit (n : Nat) : Nat :=
  (([.alu, .md, .lsc, .ct, .fp, .vec, .mma, .eng, .sync, .sys, .none] : List Cls).getD n .none).limit

/-- Two bundles together stay within Table 11 (R95). -/
def merges (u v : List (Nat × Nat)) : Bool := (u ++ v).all fun c => decide ((u ++ v).count c ≤ useLimit c.1)

/-- The lowest slot at which a class exceeds Table 11 (R67). -/
def overClass (seen : List (Cls × Nat)) : List Slot → Option Nat
  | [] => none
  | x :: r =>
    let c := resource x.i
    if c.1.limit ≤ seen.count c then some x.ix else overClass (c :: seen) r

/-- The bundle rules of R68 step 3, in order. -/
def bundleTrap (ss : List Slot) : Option Trap :=
  let t (reason : Nat) (k : Nat) : Trap := { cause := 0x02, reason := reason, slot := k }
  ((prefixBad ss).map (t 6)).or (((repeatBad ss).map (t 7)).or (((sameDest [] ss).map (t 5)).or ((overClass [] ss).map (t 4))))

/-- Steps 2 and 3 of R68 on the words of a bundle. -/
noncomputable def checkBundle (ws : List Nat) : Except Trap (List Slot) :=
  match decodeAll 0 ws with
  | .error t => .error t
  | .ok ss => match (pairTrap ss).or (bundleTrap ss) with
    | some t => .error t
    | none => .ok ss

/-! ## Guards and stalls -/

/-- The condition register that guards a slot, if any (R60). -/
def Slot.guardReg (x : Slot) : Option Nat :=
  if x.ix = 0 ∨ bits x.w 27 4 = 0 ∨ x.isExt then none else some (bits x.w 27 3)

/-- The slot's guard (R60): c XOR N. -/
def Slot.guard (x : Slot) (c : Ctx) : Bool :=
  match x.guardReg with
  | none => true
  | some r => c.getC r != bit x.w 30

/-- The slots that take effect: those with a true guard, but of an rpt and its mma neither unless both (R96, R112). -/
def liveSlots (c : Ctx) (ss : List Slot) : List Slot :=
  let on := ss.filter fun x => x.guard c
  let pair (x : Slot) : Bool := Instr.isRpt x.i || (shape x.i).cls == .mma
  if ss.any (fun x => Instr.isRpt x.i) && (ss.any fun x => pair x && !x.guard c) then on.filter fun x => !pair x else on

/-- The registers that decide when a bundle may issue: its guards, and the operands and destinations of its live slots (R91). -/
def needs (ss on : List Slot) : List Reg :=
  (ss.filterMap fun x => x.guardReg.map Reg.c) ++ on.flatMap fun x => (shape x.i).srcs ++ (shape x.i).dsts ++ (shape x.i).peek.toList

/-- The state in which a pending interlocked write to one of a bundle's registers holds it: BLOCK for a load that misses, else STALL
(R88, R91). -/
def stalls (c : Ctx) (rs : List Reg) : Option CState :=
  let fs := c.inflight.filter fun f => f.dsts.any (rs.contains ·)
  if fs.isEmpty then none else if fs.any (·.blk) then some .block else some .stall

/-- A bound queue register holds fewer entries than the bundle pops (R14). -/
def boundShort (c : Ctx) (on : List Slot) : Bool :=
  let pops := on.flatMap fun x => (shape x.i).srcs.filter (·.isQueue)
  pops.any fun r => c.isBound r && decide (c.present r < pops.count r)

/-! ## One slot after another -/

/-- SCOREBOARD on a guard read, after the privilege checks of a slot whose guard is true (R94, R99). -/
def guardTrap (s : State) (x : Slot) : Option Trap :=
  match x.guardReg with
  | none => none
  | some r =>
    if s.myCl.sbMode && s.me.isPending (.c r) && (!x.guard s.me || (decide ((shape x.i).level ≤ s.me.priv) && (csrEarly s x.i).isNone)) then
      some { cause := 0x0B, reason := 3, detail := r, slot := x.ix }
    else none

/-- Slots whose effect follows the rest of the bundle's (R100, R105, R117). -/
def Instr.isLast : Instr → Bool
  | .brk _ => true
  | .trap _ => true
  | .exit => true
  | .eret => true
  | _ => false

/-- Which constructor a word shared by several rows stands for, by the operand that selects the row (R348, R361). -/
noncomputable def State.resolve (s : State) (i : Instr) : Instr :=
  match i with
  | .kslotQuery d a b => match fld (s.readX a.toNat).1 0 3 with
    | 1 => .kslotInstall d a b
    | 2 => .kslotZeroise d a b
    | 3 => .kslotRotate d a b
    | 4 => .kslotBind d a b
    | _ => .kslotQuery d a b
  | .segsealSeal a b =>
    let (_, s') := s.readX a.toNat
    if fld (s'.readX b.toNat).1 63 1 = 1 then .segsealPatch a b else .segsealSeal a b
  | i => i

/-- The queue registers that the slots of a list pop. -/
def popsOf (ss : List Slot) : List Reg := ss.flatMap fun x => (shape x.i).srcs.filter (·.isQueue)

/-- The unit whose latency classes an instruction's results have (R33, Tables 14 to 17), as Issue.unit numbers it. -/
def latUnit : Instr → Nat
  | .vkbpack _ _ _ => 4
  | .vkbscale _ _ _ => 4
  | .pcnt _ _ _ => 5
  | i => match (shape i).cls with
    | .md => 1
    | .fp => 2
    | .vec => 3
    | _ => 0

/-- The slots of a bundle executed in order up to the first that traps or holds (R99, R112). Slots of isLast are only
tried. -/
noncomputable def runSlots (on : List Slot) (s : State) : List Slot → Out
  | [] => .next s
  | x :: r =>
    match guardTrap s x with
    | some t => .next { s with issue := { s.issue with verdict := .trapped t } }
    | none =>
      if !on.any (fun y => y.ix == x.ix) then runSlots on { s with issue := { s.issue with ext := if x.isExt then s.issue.ext else none } } r
      else
        let s0 := { s with issue := { s.issue with
          slot := x.ix, unit := latUnit x.i, later := popsOf (on.filter fun y => decide (x.ix < y.ix)) } }
        match exec (s0.resolve x.i) s0 with
        | .fault f => .fault f
        | .refused f => .refused f
        | .next s1 =>
          match s1.issue.verdict with
          | .ok =>
            let s2 := if Instr.isLast x.i then s0 else s1
            runSlots on { s2 with issue := { s2.issue with ext := if x.isExt then s2.issue.ext else none } } r
          | _ =>
            if !s1.issue.waits then .next s1
            else
              -- the wait begins only when every other slot has passed its checks, the slot's own pops counted (R226 step 1)
              match runSlots on { s0.popAll (shape x.i).srcs with issue := { s0.issue with ext := none } } r with
              | .next s2 => if s2.issue.verdict = .ok ∨ s2.issue.waits then .next s1 else .next s2
              | o => o

/-- The isLast slots executed for good, when the bundle has taken effect. -/
def runLast (s : State) : List Slot → Out
  | [] => .next s
  | x :: r =>
    if Instr.isLast x.i then
      match exec x.i { s with issue := { s.issue with slot := x.ix } } with
      | .next s' => runLast s' r
      | o => o
    else runLast s r

/-! ## After the bundle -/

def Instr.isLbuf : Instr → Bool
  | .lbuf _ _ => true
  | _ => false

/-- Where the context goes on, and the loop buffer's next state (R97, R111). fresh: the bundle held an lbuf that took
effect. -/
def Ctx.goOn (c : Ctx) (next : W64) (target : Option W64) (fresh : Bool) (ws : List Nat) : Ctx :=
  match target, c.lbuf with
  | some t, some l => { c with pc := t, lbuf := if l.suspended then some l else none }
  | some t, none => { c with pc := t }
  | none, none => { c with pc := next }
  | none, some l =>
    if fresh || l.suspended then { c with pc := next }
    else
      let l := { l with words := if l.words.any (fun e => e.1 == c.pc.toNat) then l.words else l.words ++ [(c.pc.toNat, ws)] }
      if l.pos + 1 < l.len then { c with pc := next, lbuf := some { l with pos := l.pos + 1 } }
      else if l.left ≤ 1 then { c with pc := next, lbuf := none }
      else { c with pc := l.body, lbuf := some { l with pos := 0, left := l.left - 1 } }

/-- The number of the cluster's next cycle. -/
def State.nextCycle (s : State) : Nat := s.myCl.cycle + 1

/-- The context spends a cycle in a state that advances its count (R88); its format pairs land (R173). -/
def State.spend (s : State) (st : CState) : State :=
  let s := s.landFmts s.cur
  s.setMe ({ s.me with cstate := st }.tick s.nextCycle)

/-- The bundle held in STALL or BLOCK for one cycle, its wait count spent (R88, R91). -/
def State.heldStep (s : State) (st : CState) : State := (s.setMe { s.me with waitLeft := some 0 }).spend st

/-- One cycle of WAIT, with n left after it (R61, R88, R105). -/
def State.waitStep (s : State) (n : Nat) : State := (s.setMe { s.me with waitLeft := some n }).spend .wait

/-- A trap of a bundle that takes no effect, at the bundle's address (R99, R102); what its waiting instruction had left at an
engine is withdrawn. -/
def State.earlyTrap (s : State) (t : Trap) : Out :=
  let s := if s.me.waiting then s.withdraw s.cur else s
  let c := s.me
  .next (((s.setMe { c with waiting := false }).logTrap s.cur t).trapEntry s.cur t c.pc)

/-- The bundle is held by a waiting instruction, or no longer is (R226). -/
def State.markWaiting (s : State) (b : Bool) : State :=
  let c := s.me
  s.setMe { c with waiting := b }

/-- The context's next bundle is at hand: it is replayed, or its block is in the fetch buffer (R97, R360). -/
def Ctx.hasBundle (c : Ctx) : Bool := c.replayed.isSome || c.fetchBuf.any fun e => decide (e.1 = c.pc.toNat / 256)

/-- The words of the bundle at hand, with its first (R62, R97). -/
def Ctx.bundleWords (c : Ctx) : Nat × Except StructFault (List Nat) :=
  match c.replayed with
  | some ws => (ws.headD 0, .ok ws)
  | none =>
    let p := (c.fetchBuf.map (·.2)).getD 0
    (blockWord p (fld c.pc 2 6), slotsAt p c.pc)

/-- A block is neither cached nor half read, so that its words are to be read first, apart from its tag entry (R363). -/
def State.textFirst (s : State) (g blk : Nat) : Bool :=
  !((s.ctx g).fetchBuf.any fun e => e.1 == blk) && (s.icFind g blk).isNone && ((s.ctx g).halfOf blk).isNone

/-- One cycle of FETCH: the words of the next bundle's block are read, or the block is opened and verified; a fault is that bundle's trap
(R88, R99, R133, R363). Where it faults W is not known: S is the count as it stands, and WREM is 0, so that after eret the bundle
issues without its own W (DESIGN CHOICE, log 92). -/
def State.fetchStep (s : State) : Out :=
  let blk := s.me.pc.toNat / 256
  match (if s.textFirst s.cur blk then s.readText s.cur blk else (s.fetchBlock s.cur blk).map (·.2)) with
  | .error t => s.earlyTrap t
  | .ok s => .next (s.setMe { s.me with cstate := .fetch })

/-- The repeat of the bundle's mma, where the pair executes (R96). -/
def rptOf (on : List Slot) : Option (Nat × Nat × Nat × Int × Int) :=
  on.findSome? fun x => match x.i with
    | .rpt n a b i j => some (n.toNat + 1, a.toNat, b.toNat, incOf i, incOf j)
    | _ => none

/-- The end of a bundle whose slots have all taken effect: where the context goes, its cycle, the effects that land at t + 1, the
end of a part, and the slots of isLast (R88, R97, R100). -/
def State.closeBundle (s1 : State) (on : List Slot) (ws : List Nat) (next : W64) : Out :=
  let fresh := on.any fun x => Instr.isLbuf x.i
  let s1 := (s1.issue.late.filter Late.isFmt).foldl State.landLate s1
  let c1 := s1.me
  let c1 := c1.goOn next (if s1.issue.partEnd then some next else s1.issue.target) fresh ws
  let s2 := s1.setMe { c1.tick s1.nextCycle with seq := c1.seq + 1, waiting := false, sqr := { c1.sqr with fresh := false } }
  let s3 := (s1.issue.late.filter fun e => !e.isFmt).foldl State.landLate s2
  let s4 := if s1.issue.partEnd then s3.partEnded else s3
  match runLast s4 on with
  | .next s5 => .next { s5 with issue := {} }
  | o => o

/-- A bundle that has passed the checks of R68 and whose wait count is spent. -/
noncomputable def State.issueSlots (s : State) (ws : List Nat) (ss : List Slot) : Out :=
  let s := s.landFmts s.cur
  let c := s.me
  let on := liveSlots c ss
  match stalls c (needs ss on) with
  | some st => .next (s.heldStep st)
  | none =>
  if boundShort c on then .next (s.heldStep .block)
  else
    let next := c.pc + BitVec.ofNat 64 (4 * ws.length)
    let s0 := { s.setMe { c with waitLeft := none, cstate := .issue } with
      issue := { bpc := c.pc, next := next, rpt := rptOf on, issued := some (tab (fun t => (c.tl t).issue) 8) } }
    match runSlots on s0 ss with
    | .fault f => .fault f
    | .refused f => .refused f
    | .next s1 =>
      match s1.issue.verdict with
      | .trapped t => (s.reseal s1.issue).earlyTrap t
      | .held st => .next (((s.keepWaiting s1.issue).markWaiting s1.issue.waits).heldStep st)
      | .ok => s1.closeBundle on ws next

/-- The bundle at the context's pc: fetched, its wait count spent, and then, once every write of the earlier bundles has landed where
the context issues drained, checked and issued (R61, R68, R88, R104). -/
noncomputable def State.issueBundle (s : State) : Out :=
  let c := s.me
  match c.waitLeft with
  | some (n + 1) => .next (s.waitStep n)
  | wl =>
    if !c.hasBundle then s.fetchStep
    else
      let (w, words) := c.bundleWords
      match wl, bits w 27 4 with
      | none, n + 1 => .next (s.waitStep n)
      | _, _ =>
        if c.shadow ≠ [] ∧ c.pending ≠ [] then .next (s.heldStep .stall)
        else match words with
          | .error e => s.earlyTrap { cause := 0x02, reason := e.code }
          | .ok ws => match checkBundle ws with
            | .error t => s.earlyTrap t
            | .ok ss => s.issueSlots ws ss

/-- A bundle of a loop body of count 0: fetched as far as its stop bit and passed over (R97). The wait cycles that an eret or a restore
left are spent first, and none of them is left to the bundle after (R105). -/
def State.skipBundle (s : State) (l : LoopBuf) : Out :=
  let c := s.me
  match c.waitLeft with
  | some (n + 1) => .next (s.waitStep n)
  | _ =>
  if !c.hasBundle then s.fetchStep
  else match c.bundleWords.2 with
    | .error e => s.earlyTrap { cause := 0x02, reason := e.code }
    | .ok ws => .next (s.setMe { c with
        cstate := .fetch, waitLeft := none, pc := c.pc + BitVec.ofNat 64 (4 * ws.length)
        lbuf := if l.pos + 1 < l.len then some { l with pos := l.pos + 1 } else none })

/-! ## The merge stage (R95, R116) -/

/-- The resources of the bundle at hand. -/
noncomputable def State.useHere (s : State) : List (Nat × Nat) := match s.me.bundleWords.2 with
  | .error _ => []
  | .ok ws => match checkBundle ws with
    | .error _ => []
    | .ok ss => useOf ss

/-- The context is able to issue, and the merge stage does not select it (R88). -/
def State.heldHere (s : State) : State := s.setMe { s.me with cstate := .held }

/-- The merge stage on a bundle that is ready to issue: s before it, t once it has issued. The first in the cycle is the primary's,
or the next where that context has yielded; the next one is merged where both fit, and every other is held (R95, R116). -/
def State.select (s t : State) (use : List (Nat × Nat)) : State :=
  let g := s.cur
  let n := s.lane
  match n.used with
  | none =>
    if s.me.yielded && n.passed.isNone && !n.left.isEmpty then
      { s.heldHere.setMe { s.heldHere.me with yielded := false } with lane := { n with passed := some g, left := n.left ++ [g] } }
    else { t.setCl s.clNo { t.cl s.clNo with primary := g % 4 } with lane := { n with used := some use } }
  | some u =>
    if n.passed = some g || n.found then s.heldHere
    else if merges u use then
      let c := t.ctx g
      { t.setCtx g { c with yielded := c.yielded || s.me.yielded } with lane := { n with found := true } }
    else { s.heldHere with lane := { n with found := true } }

/-- What the merge stage makes of t, what the issuing context's next bundle leaves of s: where none has issued, t, its yield kept. -/
noncomputable def State.chosen (s t : State) : State :=
  if (t.ctx s.cur).seq = s.me.seq then t.setCtx s.cur { t.ctx s.cur with yielded := s.me.yielded } else s.select t s.useHere

/-- The context's yield taken off, so that a bundle that declares it anew is seen (R116). -/
def State.unyield (s : State) : State := s.setMe { s.me with yielded := false }

/-- The next bundle of the context whose turn it is, under the merge stage. -/
noncomputable def State.issueTurn (s : State) : Out :=
  match s.unyield.issueBundle with
  | .next t => .next (s.chosen t)
  | o => o

/-! ## One turn, one step -/

/-- The turn of a running context in a cycle of its cluster: the end of one that is killed, a pre-emption stop that is due, which precedes any trap (R107), a
deferred trap, a result that the stepping delivers late, the sequencer, a fence, a skip, or its next bundle. -/
noncomputable def State.advanceCtx (s : State) : Out :=
  if s.me.killed && !s.answered s.cur then .next (s.stopCtx s.cur)
  else
  let c := s.me.endCompensate s.myCl.cycle
  let s := s.setMe c
  if c.cstate = .compensate then .next s
  else if s.stopDue s.cur then execContextPreemptionStop s.cur s
  else match s.dueMemErr s.cur with
  | some t => .next (s.takeMemErr s.cur t)
  | none =>
    match s.dueTaskFault s.cur with
    | some t => .next (s.takeTaskFault s.cur t)
    | none =>
      if c.settle then
        -- results in flight land before the handler's first bundle (R104); the count stands still (DESIGN CHOICE, log 47)
        let c' := c.settleKnown
        .next (s.setMe { c' with settle := !c'.inflight.isEmpty })
      else
        match c.fence.filter fun sc => !s.fenceDone s.cur sc with
        | some _ => .next (s.spend .block)
        | none =>
          let s := s.setMe { c with fence := none }
          if c.sqr.step ≠ 0 ∧ !c.sqr.susp then .next s.seqStep
          else match c.lbuf with
            | some l => if l.left = 0 ∧ !l.suspended then s.skipBundle l else s.issueTurn
            | none => s.issueTurn

/-- The agent step at the head of the agenda, the others kept after it. -/
noncomputable def State.agentStep (s : State) (i : Instr) (rest : List Instr) : Out :=
  if !isAgentStep i then .fault .malformedEvent
  else match exec i { s with agenda := rest } with
    | .next t => .next { t with agenda := rest }
    | o => o

/-- The turn goes to the next context of the cluster's cycle; with none left the agents have theirs (log 5). -/
noncomputable def State.nextTurn (s : State) : State := match s.lane.left with
  | g :: gs => { s with cur := g, lane := { s.lane with left := gs } }
  | [] => { s with lane := {}, agenda := s.turns }

/-- One step of the machine: the agenda's next agent step; else the turn of one context (log 5). -/
noncomputable def State.oneStep (s : State) : Out :=
  match s.agenda with
  | i :: rest => s.agentStep i rest
  | [] =>
    if s.me.live = .run then
      match s.advanceCtx with
      | .next t => .next t.nextTurn
      | o => o
    else .next s.nextTurn

/-! ## Placing a bundle (FIXED for the host's questions) -/

/-- The words of a bundle that holds word w: w in slot 0, nop after it; after an ext an addi that it widens; with an rpt
an mma (R62, R65, R66). -/
def bundleFor (w : Nat) : List Nat :=
  let w := w % 2 ^ 31
  let mate := if bits w 21 6 = 0x3F then 0x01000000 else if bits w 21 6 = 0x17 then 0x05A00000 else 0
  [w, mate, 0, 2 ^ 31]

/-- The bundle that holds a word placed at the issuing context's pc: block, fetch buffer, the context running with no
wait, and nothing due before it (log 8). -/
def State.placeWord (s : State) (_ w : Nat) : State :=
  let c := s.me
  let pc : W64 := c.pc &&& ~~~ 255#64
  { s.setMe { c with
      live := .run, cstate := .fetch, pc := pc, waitLeft := some 0, fetchBuf := some (pc.toNat / 256, BitVec.ofNat 2048 (pack 32 (bundleFor w)))
      memErrs := [], taskFaults := [], settle := false, fence := none, lbuf := none, sqr := { c.sqr with step := 0 } }
    with agenda := [], issue := {}, lane := {} }

end Sys2Proof.Machine
end

