-- ==== Sys2Proof/Machine/Step.lean ====
section
/-! DEFINITION. One step of the machine: the agent step that the agenda names, else the issuing context's next bundle, else the
idle machine; and the placing of a bundle where the next step fetches. -/
namespace Sys2Proof.Machine

/-- One step. -/
noncomputable def step (s : State) : Host.Outcome State Fault Refusal := s.oneStep

/-- The bundle that holds a slot, stored where step fetches next: the running context's fetch buffer, its block and pc. -/
def State.withFetchWord (s : State) (nbits w : Nat) : State := s.placeWord nbits w

end Sys2Proof.Machine
end

