-- ==== Sys2Proof/Laws/State.lean ====
section
/-! SUPPORT. What each update of the state leaves of every field, and what the units read back. -/
namespace Sys2Proof.Machine

/-! ## Maps by number -/

theorem mget_mset_same {α : Type} (d : α) (m : Map α) (k : Nat) (v : α) : mget d (mset m k v) k = v := by
  induction m with
  | nil => simp [mset, mget]
  | cons e m ih =>
    obtain ⟨j, w⟩ := e
    simp only [mset]
    split
    · simp [mget]
    · split
      · simp [mget]
      · rename_i h _
        simp [mget, h, ih]

theorem mget_mset_ne {α : Type} (d : α) (m : Map α) (k j : Nat) (v : α) (h : j ≠ k) : mget d (mset m k v) j = mget d m j := by
  induction m with
  | nil => simp [mset, mget, h]
  | cons e m ih =>
    obtain ⟨i, w⟩ := e
    simp only [mset]
    split
    · rename_i hk
      subst hk
      simp [mget, h]
    · split
      · simp [mget, h]
      · simp [mget, ih]

/-! ## Fields under each update -/

@[simp] theorem State.setCtx_clusters (s : State) (g : Nat) (c : Ctx) : (s.setCtx g c).clusters = s.clusters := rfl
@[simp] theorem State.setCtx_sites (s : State) (g : Nat) (c : Ctx) : (s.setCtx g c).sites = s.sites := rfl
@[simp] theorem State.setCtx_net (s : State) (g : Nat) (c : Ctx) : (s.setCtx g c).net = s.net := rfl
@[simp] theorem State.setCtx_nextMsg (s : State) (g : Nat) (c : Ctx) : (s.setCtx g c).nextMsg = s.nextMsg := rfl
@[simp] theorem State.setCtx_bags (s : State) (g : Nat) (c : Ctx) : (s.setCtx g c).bags = s.bags := rfl
@[simp] theorem State.setCtx_winColls (s : State) (g : Nat) (c : Ctx) : (s.setCtx g c).winColls = s.winColls := rfl
@[simp] theorem State.setCtx_dispatches (s : State) (g : Nat) (c : Ctx) : (s.setCtx g c).dispatches = s.dispatches := rfl
@[simp] theorem State.setCtx_panelId (s : State) (g : Nat) (c : Ctx) : (s.setCtx g c).panelId = s.panelId := rfl
@[simp] theorem State.setCtx_ports (s : State) (g : Nat) (c : Ctx) : (s.setCtx g c).ports = s.ports := rfl
@[simp] theorem State.setCtx_routes (s : State) (g : Nat) (c : Ctx) : (s.setCtx g c).routes = s.routes := rfl
@[simp] theorem State.setCtx_soft (s : State) (g : Nat) (c : Ctx) : (s.setCtx g c).soft = s.soft := rfl
@[simp] theorem State.setCtx_pbs (s : State) (g : Nat) (c : Ctx) : (s.setCtx g c).pbs = s.pbs := rfl
@[simp] theorem State.setCtx_teams (s : State) (g : Nat) (c : Ctx) : (s.setCtx g c).teams = s.teams := rfl
@[simp] theorem State.setCtx_nextLetter (s : State) (g : Nat) (c : Ctx) : (s.setCtx g c).nextLetter = s.nextLetter := rfl
@[simp] theorem State.setCtx_nextAdmit (s : State) (g : Nat) (c : Ctx) : (s.setCtx g c).nextAdmit = s.nextAdmit := rfl
@[simp] theorem State.setCtx_served (s : State) (g : Nat) (c : Ctx) : (s.setCtx g c).served = s.served := rfl
@[simp] theorem State.setCtx_reserving (s : State) (g : Nat) (c : Ctx) : (s.setCtx g c).reserving = s.reserving := rfl
@[simp] theorem State.setCtx_stage (s : State) (g : Nat) (c : Ctx) : (s.setCtx g c).stage = s.stage := rfl
@[simp] theorem State.setCtx_failCode (s : State) (g : Nat) (c : Ctx) : (s.setCtx g c).failCode = s.failCode := rfl
@[simp] theorem State.setCtx_panelSite (s : State) (g : Nat) (c : Ctx) : (s.setCtx g c).panelSite = s.panelSite := rfl
@[simp] theorem State.setCtx_b4win (s : State) (g : Nat) (c : Ctx) : (s.setCtx g c).b4win = s.b4win := rfl
@[simp] theorem State.setCtx_measured (s : State) (g : Nat) (c : Ctx) : (s.setCtx g c).measured = s.measured := rfl
@[simp] theorem State.setCtx_devIdentity (s : State) (g : Nat) (c : Ctx) : (s.setCtx g c).devIdentity = s.devIdentity := rfl
@[simp] theorem State.setCtx_devAlias (s : State) (g : Nat) (c : Ctx) : (s.setCtx g c).devAlias = s.devAlias := rfl
@[simp] theorem State.setCtx_certs (s : State) (g : Nat) (c : Ctx) : (s.setCtx g c).certs = s.certs := rfl
@[simp] theorem State.setCtx_hostPorts (s : State) (g : Nat) (c : Ctx) : (s.setCtx g c).hostPorts = s.hostPorts := rfl
@[simp] theorem State.setCtx_reply (s : State) (g : Nat) (c : Ctx) : (s.setCtx g c).reply = s.reply := rfl
@[simp] theorem State.setCtx_mem (s : State) (g : Nat) (c : Ctx) : (s.setCtx g c).mem = s.mem := rfl
@[simp] theorem State.setCtx_bad (s : State) (g : Nat) (c : Ctx) : (s.setCtx g c).bad = s.bad := rfl
@[simp] theorem State.setCtx_agenda (s : State) (g : Nat) (c : Ctx) : (s.setCtx g c).agenda = s.agenda := rfl
@[simp] theorem State.setCtx_cur (s : State) (g : Nat) (c : Ctx) : (s.setCtx g c).cur = s.cur := rfl
@[simp] theorem State.setCtx_issue (s : State) (g : Nat) (c : Ctx) : (s.setCtx g c).issue = s.issue := rfl
@[simp] theorem State.setCtx_lane (s : State) (g : Nat) (c : Ctx) : (s.setCtx g c).lane = s.lane := rfl
@[simp] theorem State.setCtx_free (s : State) (g : Nat) (c : Ctx) : (s.setCtx g c).free = s.free := rfl

@[simp] theorem State.setMe_clusters (s : State) (c : Ctx) : (s.setMe c).clusters = s.clusters := rfl
@[simp] theorem State.setMe_sites (s : State) (c : Ctx) : (s.setMe c).sites = s.sites := rfl
@[simp] theorem State.setMe_net (s : State) (c : Ctx) : (s.setMe c).net = s.net := rfl
@[simp] theorem State.setMe_nextMsg (s : State) (c : Ctx) : (s.setMe c).nextMsg = s.nextMsg := rfl
@[simp] theorem State.setMe_bags (s : State) (c : Ctx) : (s.setMe c).bags = s.bags := rfl
@[simp] theorem State.setMe_winColls (s : State) (c : Ctx) : (s.setMe c).winColls = s.winColls := rfl
@[simp] theorem State.setMe_dispatches (s : State) (c : Ctx) : (s.setMe c).dispatches = s.dispatches := rfl
@[simp] theorem State.setMe_panelId (s : State) (c : Ctx) : (s.setMe c).panelId = s.panelId := rfl
@[simp] theorem State.setMe_ports (s : State) (c : Ctx) : (s.setMe c).ports = s.ports := rfl
@[simp] theorem State.setMe_routes (s : State) (c : Ctx) : (s.setMe c).routes = s.routes := rfl
@[simp] theorem State.setMe_soft (s : State) (c : Ctx) : (s.setMe c).soft = s.soft := rfl
@[simp] theorem State.setMe_pbs (s : State) (c : Ctx) : (s.setMe c).pbs = s.pbs := rfl
@[simp] theorem State.setMe_teams (s : State) (c : Ctx) : (s.setMe c).teams = s.teams := rfl
@[simp] theorem State.setMe_nextLetter (s : State) (c : Ctx) : (s.setMe c).nextLetter = s.nextLetter := rfl
@[simp] theorem State.setMe_nextAdmit (s : State) (c : Ctx) : (s.setMe c).nextAdmit = s.nextAdmit := rfl
@[simp] theorem State.setMe_served (s : State) (c : Ctx) : (s.setMe c).served = s.served := rfl
@[simp] theorem State.setMe_reserving (s : State) (c : Ctx) : (s.setMe c).reserving = s.reserving := rfl
@[simp] theorem State.setMe_stage (s : State) (c : Ctx) : (s.setMe c).stage = s.stage := rfl
@[simp] theorem State.setMe_failCode (s : State) (c : Ctx) : (s.setMe c).failCode = s.failCode := rfl
@[simp] theorem State.setMe_panelSite (s : State) (c : Ctx) : (s.setMe c).panelSite = s.panelSite := rfl
@[simp] theorem State.setMe_b4win (s : State) (c : Ctx) : (s.setMe c).b4win = s.b4win := rfl
@[simp] theorem State.setMe_measured (s : State) (c : Ctx) : (s.setMe c).measured = s.measured := rfl
@[simp] theorem State.setMe_devIdentity (s : State) (c : Ctx) : (s.setMe c).devIdentity = s.devIdentity := rfl
@[simp] theorem State.setMe_devAlias (s : State) (c : Ctx) : (s.setMe c).devAlias = s.devAlias := rfl
@[simp] theorem State.setMe_certs (s : State) (c : Ctx) : (s.setMe c).certs = s.certs := rfl
@[simp] theorem State.setMe_hostPorts (s : State) (c : Ctx) : (s.setMe c).hostPorts = s.hostPorts := rfl
@[simp] theorem State.setMe_reply (s : State) (c : Ctx) : (s.setMe c).reply = s.reply := rfl
@[simp] theorem State.setMe_mem (s : State) (c : Ctx) : (s.setMe c).mem = s.mem := rfl
@[simp] theorem State.setMe_bad (s : State) (c : Ctx) : (s.setMe c).bad = s.bad := rfl
@[simp] theorem State.setMe_agenda (s : State) (c : Ctx) : (s.setMe c).agenda = s.agenda := rfl
@[simp] theorem State.setMe_cur (s : State) (c : Ctx) : (s.setMe c).cur = s.cur := rfl
@[simp] theorem State.setMe_issue (s : State) (c : Ctx) : (s.setMe c).issue = s.issue := rfl
@[simp] theorem State.setMe_lane (s : State) (c : Ctx) : (s.setMe c).lane = s.lane := rfl
@[simp] theorem State.setMe_free (s : State) (c : Ctx) : (s.setMe c).free = s.free := rfl

@[simp] theorem State.setCl_ctxs (s : State) (n : Nat) (c : Cluster) : (s.setCl n c).ctxs = s.ctxs := rfl
@[simp] theorem State.setCl_sites (s : State) (n : Nat) (c : Cluster) : (s.setCl n c).sites = s.sites := rfl
@[simp] theorem State.setCl_net (s : State) (n : Nat) (c : Cluster) : (s.setCl n c).net = s.net := rfl
@[simp] theorem State.setCl_nextMsg (s : State) (n : Nat) (c : Cluster) : (s.setCl n c).nextMsg = s.nextMsg := rfl
@[simp] theorem State.setCl_bags (s : State) (n : Nat) (c : Cluster) : (s.setCl n c).bags = s.bags := rfl
@[simp] theorem State.setCl_winColls (s : State) (n : Nat) (c : Cluster) : (s.setCl n c).winColls = s.winColls := rfl
@[simp] theorem State.setCl_dispatches (s : State) (n : Nat) (c : Cluster) : (s.setCl n c).dispatches = s.dispatches := rfl
@[simp] theorem State.setCl_panelId (s : State) (n : Nat) (c : Cluster) : (s.setCl n c).panelId = s.panelId := rfl
@[simp] theorem State.setCl_ports (s : State) (n : Nat) (c : Cluster) : (s.setCl n c).ports = s.ports := rfl
@[simp] theorem State.setCl_routes (s : State) (n : Nat) (c : Cluster) : (s.setCl n c).routes = s.routes := rfl
@[simp] theorem State.setCl_soft (s : State) (n : Nat) (c : Cluster) : (s.setCl n c).soft = s.soft := rfl
@[simp] theorem State.setCl_pbs (s : State) (n : Nat) (c : Cluster) : (s.setCl n c).pbs = s.pbs := rfl
@[simp] theorem State.setCl_teams (s : State) (n : Nat) (c : Cluster) : (s.setCl n c).teams = s.teams := rfl
@[simp] theorem State.setCl_nextLetter (s : State) (n : Nat) (c : Cluster) : (s.setCl n c).nextLetter = s.nextLetter := rfl
@[simp] theorem State.setCl_nextAdmit (s : State) (n : Nat) (c : Cluster) : (s.setCl n c).nextAdmit = s.nextAdmit := rfl
@[simp] theorem State.setCl_served (s : State) (n : Nat) (c : Cluster) : (s.setCl n c).served = s.served := rfl
@[simp] theorem State.setCl_reserving (s : State) (n : Nat) (c : Cluster) : (s.setCl n c).reserving = s.reserving := rfl
@[simp] theorem State.setCl_stage (s : State) (n : Nat) (c : Cluster) : (s.setCl n c).stage = s.stage := rfl
@[simp] theorem State.setCl_failCode (s : State) (n : Nat) (c : Cluster) : (s.setCl n c).failCode = s.failCode := rfl
@[simp] theorem State.setCl_panelSite (s : State) (n : Nat) (c : Cluster) : (s.setCl n c).panelSite = s.panelSite := rfl
@[simp] theorem State.setCl_b4win (s : State) (n : Nat) (c : Cluster) : (s.setCl n c).b4win = s.b4win := rfl
@[simp] theorem State.setCl_measured (s : State) (n : Nat) (c : Cluster) : (s.setCl n c).measured = s.measured := rfl
@[simp] theorem State.setCl_devIdentity (s : State) (n : Nat) (c : Cluster) : (s.setCl n c).devIdentity = s.devIdentity := rfl
@[simp] theorem State.setCl_devAlias (s : State) (n : Nat) (c : Cluster) : (s.setCl n c).devAlias = s.devAlias := rfl
@[simp] theorem State.setCl_certs (s : State) (n : Nat) (c : Cluster) : (s.setCl n c).certs = s.certs := rfl
@[simp] theorem State.setCl_hostPorts (s : State) (n : Nat) (c : Cluster) : (s.setCl n c).hostPorts = s.hostPorts := rfl
@[simp] theorem State.setCl_reply (s : State) (n : Nat) (c : Cluster) : (s.setCl n c).reply = s.reply := rfl
@[simp] theorem State.setCl_mem (s : State) (n : Nat) (c : Cluster) : (s.setCl n c).mem = s.mem := rfl
@[simp] theorem State.setCl_bad (s : State) (n : Nat) (c : Cluster) : (s.setCl n c).bad = s.bad := rfl
@[simp] theorem State.setCl_agenda (s : State) (n : Nat) (c : Cluster) : (s.setCl n c).agenda = s.agenda := rfl
@[simp] theorem State.setCl_cur (s : State) (n : Nat) (c : Cluster) : (s.setCl n c).cur = s.cur := rfl
@[simp] theorem State.setCl_issue (s : State) (n : Nat) (c : Cluster) : (s.setCl n c).issue = s.issue := rfl
@[simp] theorem State.setCl_lane (s : State) (n : Nat) (c : Cluster) : (s.setCl n c).lane = s.lane := rfl
@[simp] theorem State.setCl_free (s : State) (n : Nat) (c : Cluster) : (s.setCl n c).free = s.free := rfl

@[simp] theorem State.setMyCl_ctxs (s : State) (c : Cluster) : (s.setMyCl c).ctxs = s.ctxs := rfl
@[simp] theorem State.setMyCl_sites (s : State) (c : Cluster) : (s.setMyCl c).sites = s.sites := rfl
@[simp] theorem State.setMyCl_net (s : State) (c : Cluster) : (s.setMyCl c).net = s.net := rfl
@[simp] theorem State.setMyCl_nextMsg (s : State) (c : Cluster) : (s.setMyCl c).nextMsg = s.nextMsg := rfl
@[simp] theorem State.setMyCl_bags (s : State) (c : Cluster) : (s.setMyCl c).bags = s.bags := rfl
@[simp] theorem State.setMyCl_winColls (s : State) (c : Cluster) : (s.setMyCl c).winColls = s.winColls := rfl
@[simp] theorem State.setMyCl_dispatches (s : State) (c : Cluster) : (s.setMyCl c).dispatches = s.dispatches := rfl
@[simp] theorem State.setMyCl_panelId (s : State) (c : Cluster) : (s.setMyCl c).panelId = s.panelId := rfl
@[simp] theorem State.setMyCl_ports (s : State) (c : Cluster) : (s.setMyCl c).ports = s.ports := rfl
@[simp] theorem State.setMyCl_routes (s : State) (c : Cluster) : (s.setMyCl c).routes = s.routes := rfl
@[simp] theorem State.setMyCl_soft (s : State) (c : Cluster) : (s.setMyCl c).soft = s.soft := rfl
@[simp] theorem State.setMyCl_pbs (s : State) (c : Cluster) : (s.setMyCl c).pbs = s.pbs := rfl
@[simp] theorem State.setMyCl_teams (s : State) (c : Cluster) : (s.setMyCl c).teams = s.teams := rfl
@[simp] theorem State.setMyCl_nextLetter (s : State) (c : Cluster) : (s.setMyCl c).nextLetter = s.nextLetter := rfl
@[simp] theorem State.setMyCl_nextAdmit (s : State) (c : Cluster) : (s.setMyCl c).nextAdmit = s.nextAdmit := rfl
@[simp] theorem State.setMyCl_served (s : State) (c : Cluster) : (s.setMyCl c).served = s.served := rfl
@[simp] theorem State.setMyCl_reserving (s : State) (c : Cluster) : (s.setMyCl c).reserving = s.reserving := rfl
@[simp] theorem State.setMyCl_stage (s : State) (c : Cluster) : (s.setMyCl c).stage = s.stage := rfl
@[simp] theorem State.setMyCl_failCode (s : State) (c : Cluster) : (s.setMyCl c).failCode = s.failCode := rfl
@[simp] theorem State.setMyCl_panelSite (s : State) (c : Cluster) : (s.setMyCl c).panelSite = s.panelSite := rfl
@[simp] theorem State.setMyCl_b4win (s : State) (c : Cluster) : (s.setMyCl c).b4win = s.b4win := rfl
@[simp] theorem State.setMyCl_measured (s : State) (c : Cluster) : (s.setMyCl c).measured = s.measured := rfl
@[simp] theorem State.setMyCl_devIdentity (s : State) (c : Cluster) : (s.setMyCl c).devIdentity = s.devIdentity := rfl
@[simp] theorem State.setMyCl_devAlias (s : State) (c : Cluster) : (s.setMyCl c).devAlias = s.devAlias := rfl
@[simp] theorem State.setMyCl_certs (s : State) (c : Cluster) : (s.setMyCl c).certs = s.certs := rfl
@[simp] theorem State.setMyCl_hostPorts (s : State) (c : Cluster) : (s.setMyCl c).hostPorts = s.hostPorts := rfl
@[simp] theorem State.setMyCl_reply (s : State) (c : Cluster) : (s.setMyCl c).reply = s.reply := rfl
@[simp] theorem State.setMyCl_mem (s : State) (c : Cluster) : (s.setMyCl c).mem = s.mem := rfl
@[simp] theorem State.setMyCl_bad (s : State) (c : Cluster) : (s.setMyCl c).bad = s.bad := rfl
@[simp] theorem State.setMyCl_agenda (s : State) (c : Cluster) : (s.setMyCl c).agenda = s.agenda := rfl
@[simp] theorem State.setMyCl_cur (s : State) (c : Cluster) : (s.setMyCl c).cur = s.cur := rfl
@[simp] theorem State.setMyCl_issue (s : State) (c : Cluster) : (s.setMyCl c).issue = s.issue := rfl
@[simp] theorem State.setMyCl_lane (s : State) (c : Cluster) : (s.setMyCl c).lane = s.lane := rfl
@[simp] theorem State.setMyCl_free (s : State) (c : Cluster) : (s.setMyCl c).free = s.free := rfl

@[simp] theorem State.setSite_ctxs (s : State) (n : Nat) (x : Site) : (s.setSite n x).ctxs = s.ctxs := rfl
@[simp] theorem State.setSite_clusters (s : State) (n : Nat) (x : Site) : (s.setSite n x).clusters = s.clusters := rfl
@[simp] theorem State.setSite_net (s : State) (n : Nat) (x : Site) : (s.setSite n x).net = s.net := rfl
@[simp] theorem State.setSite_nextMsg (s : State) (n : Nat) (x : Site) : (s.setSite n x).nextMsg = s.nextMsg := rfl
@[simp] theorem State.setSite_bags (s : State) (n : Nat) (x : Site) : (s.setSite n x).bags = s.bags := rfl
@[simp] theorem State.setSite_winColls (s : State) (n : Nat) (x : Site) : (s.setSite n x).winColls = s.winColls := rfl
@[simp] theorem State.setSite_dispatches (s : State) (n : Nat) (x : Site) : (s.setSite n x).dispatches = s.dispatches := rfl
@[simp] theorem State.setSite_panelId (s : State) (n : Nat) (x : Site) : (s.setSite n x).panelId = s.panelId := rfl
@[simp] theorem State.setSite_ports (s : State) (n : Nat) (x : Site) : (s.setSite n x).ports = s.ports := rfl
@[simp] theorem State.setSite_routes (s : State) (n : Nat) (x : Site) : (s.setSite n x).routes = s.routes := rfl
@[simp] theorem State.setSite_soft (s : State) (n : Nat) (x : Site) : (s.setSite n x).soft = s.soft := rfl
@[simp] theorem State.setSite_pbs (s : State) (n : Nat) (x : Site) : (s.setSite n x).pbs = s.pbs := rfl
@[simp] theorem State.setSite_teams (s : State) (n : Nat) (x : Site) : (s.setSite n x).teams = s.teams := rfl
@[simp] theorem State.setSite_nextLetter (s : State) (n : Nat) (x : Site) : (s.setSite n x).nextLetter = s.nextLetter := rfl
@[simp] theorem State.setSite_nextAdmit (s : State) (n : Nat) (x : Site) : (s.setSite n x).nextAdmit = s.nextAdmit := rfl
@[simp] theorem State.setSite_served (s : State) (n : Nat) (x : Site) : (s.setSite n x).served = s.served := rfl
@[simp] theorem State.setSite_reserving (s : State) (n : Nat) (x : Site) : (s.setSite n x).reserving = s.reserving := rfl
@[simp] theorem State.setSite_stage (s : State) (n : Nat) (x : Site) : (s.setSite n x).stage = s.stage := rfl
@[simp] theorem State.setSite_failCode (s : State) (n : Nat) (x : Site) : (s.setSite n x).failCode = s.failCode := rfl
@[simp] theorem State.setSite_panelSite (s : State) (n : Nat) (x : Site) : (s.setSite n x).panelSite = s.panelSite := rfl
@[simp] theorem State.setSite_b4win (s : State) (n : Nat) (x : Site) : (s.setSite n x).b4win = s.b4win := rfl
@[simp] theorem State.setSite_measured (s : State) (n : Nat) (x : Site) : (s.setSite n x).measured = s.measured := rfl
@[simp] theorem State.setSite_devIdentity (s : State) (n : Nat) (x : Site) : (s.setSite n x).devIdentity = s.devIdentity := rfl
@[simp] theorem State.setSite_devAlias (s : State) (n : Nat) (x : Site) : (s.setSite n x).devAlias = s.devAlias := rfl
@[simp] theorem State.setSite_certs (s : State) (n : Nat) (x : Site) : (s.setSite n x).certs = s.certs := rfl
@[simp] theorem State.setSite_hostPorts (s : State) (n : Nat) (x : Site) : (s.setSite n x).hostPorts = s.hostPorts := rfl
@[simp] theorem State.setSite_reply (s : State) (n : Nat) (x : Site) : (s.setSite n x).reply = s.reply := rfl
@[simp] theorem State.setSite_mem (s : State) (n : Nat) (x : Site) : (s.setSite n x).mem = s.mem := rfl
@[simp] theorem State.setSite_bad (s : State) (n : Nat) (x : Site) : (s.setSite n x).bad = s.bad := rfl
@[simp] theorem State.setSite_agenda (s : State) (n : Nat) (x : Site) : (s.setSite n x).agenda = s.agenda := rfl
@[simp] theorem State.setSite_cur (s : State) (n : Nat) (x : Site) : (s.setSite n x).cur = s.cur := rfl
@[simp] theorem State.setSite_issue (s : State) (n : Nat) (x : Site) : (s.setSite n x).issue = s.issue := rfl
@[simp] theorem State.setSite_lane (s : State) (n : Nat) (x : Site) : (s.setSite n x).lane = s.lane := rfl
@[simp] theorem State.setSite_free (s : State) (n : Nat) (x : Site) : (s.setSite n x).free = s.free := rfl

@[simp] theorem State.setTeam_ctxs (s : State) (n : Nat) (t : Team) : (s.setTeam n t).ctxs = s.ctxs := rfl
@[simp] theorem State.setTeam_clusters (s : State) (n : Nat) (t : Team) : (s.setTeam n t).clusters = s.clusters := rfl
@[simp] theorem State.setTeam_sites (s : State) (n : Nat) (t : Team) : (s.setTeam n t).sites = s.sites := rfl
@[simp] theorem State.setTeam_net (s : State) (n : Nat) (t : Team) : (s.setTeam n t).net = s.net := rfl
@[simp] theorem State.setTeam_nextMsg (s : State) (n : Nat) (t : Team) : (s.setTeam n t).nextMsg = s.nextMsg := rfl
@[simp] theorem State.setTeam_bags (s : State) (n : Nat) (t : Team) : (s.setTeam n t).bags = s.bags := rfl
@[simp] theorem State.setTeam_winColls (s : State) (n : Nat) (t : Team) : (s.setTeam n t).winColls = s.winColls := rfl
@[simp] theorem State.setTeam_dispatches (s : State) (n : Nat) (t : Team) : (s.setTeam n t).dispatches = s.dispatches := rfl
@[simp] theorem State.setTeam_panelId (s : State) (n : Nat) (t : Team) : (s.setTeam n t).panelId = s.panelId := rfl
@[simp] theorem State.setTeam_ports (s : State) (n : Nat) (t : Team) : (s.setTeam n t).ports = s.ports := rfl
@[simp] theorem State.setTeam_routes (s : State) (n : Nat) (t : Team) : (s.setTeam n t).routes = s.routes := rfl
@[simp] theorem State.setTeam_soft (s : State) (n : Nat) (t : Team) : (s.setTeam n t).soft = s.soft := rfl
@[simp] theorem State.setTeam_pbs (s : State) (n : Nat) (t : Team) : (s.setTeam n t).pbs = s.pbs := rfl
@[simp] theorem State.setTeam_nextLetter (s : State) (n : Nat) (t : Team) : (s.setTeam n t).nextLetter = s.nextLetter := rfl
@[simp] theorem State.setTeam_nextAdmit (s : State) (n : Nat) (t : Team) : (s.setTeam n t).nextAdmit = s.nextAdmit := rfl
@[simp] theorem State.setTeam_served (s : State) (n : Nat) (t : Team) : (s.setTeam n t).served = s.served := rfl
@[simp] theorem State.setTeam_reserving (s : State) (n : Nat) (t : Team) : (s.setTeam n t).reserving = s.reserving := rfl
@[simp] theorem State.setTeam_stage (s : State) (n : Nat) (t : Team) : (s.setTeam n t).stage = s.stage := rfl
@[simp] theorem State.setTeam_failCode (s : State) (n : Nat) (t : Team) : (s.setTeam n t).failCode = s.failCode := rfl
@[simp] theorem State.setTeam_panelSite (s : State) (n : Nat) (t : Team) : (s.setTeam n t).panelSite = s.panelSite := rfl
@[simp] theorem State.setTeam_b4win (s : State) (n : Nat) (t : Team) : (s.setTeam n t).b4win = s.b4win := rfl
@[simp] theorem State.setTeam_measured (s : State) (n : Nat) (t : Team) : (s.setTeam n t).measured = s.measured := rfl
@[simp] theorem State.setTeam_devIdentity (s : State) (n : Nat) (t : Team) : (s.setTeam n t).devIdentity = s.devIdentity := rfl
@[simp] theorem State.setTeam_devAlias (s : State) (n : Nat) (t : Team) : (s.setTeam n t).devAlias = s.devAlias := rfl
@[simp] theorem State.setTeam_certs (s : State) (n : Nat) (t : Team) : (s.setTeam n t).certs = s.certs := rfl
@[simp] theorem State.setTeam_hostPorts (s : State) (n : Nat) (t : Team) : (s.setTeam n t).hostPorts = s.hostPorts := rfl
@[simp] theorem State.setTeam_reply (s : State) (n : Nat) (t : Team) : (s.setTeam n t).reply = s.reply := rfl
@[simp] theorem State.setTeam_mem (s : State) (n : Nat) (t : Team) : (s.setTeam n t).mem = s.mem := rfl
@[simp] theorem State.setTeam_bad (s : State) (n : Nat) (t : Team) : (s.setTeam n t).bad = s.bad := rfl
@[simp] theorem State.setTeam_agenda (s : State) (n : Nat) (t : Team) : (s.setTeam n t).agenda = s.agenda := rfl
@[simp] theorem State.setTeam_cur (s : State) (n : Nat) (t : Team) : (s.setTeam n t).cur = s.cur := rfl
@[simp] theorem State.setTeam_issue (s : State) (n : Nat) (t : Team) : (s.setTeam n t).issue = s.issue := rfl
@[simp] theorem State.setTeam_lane (s : State) (n : Nat) (t : Team) : (s.setTeam n t).lane = s.lane := rfl
@[simp] theorem State.setTeam_free (s : State) (n : Nat) (t : Team) : (s.setTeam n t).free = s.free := rfl

@[simp] theorem State.setPb_ctxs (s : State) (n : Nat) (b : PostBox) : (s.setPb n b).ctxs = s.ctxs := rfl
@[simp] theorem State.setPb_clusters (s : State) (n : Nat) (b : PostBox) : (s.setPb n b).clusters = s.clusters := rfl
@[simp] theorem State.setPb_sites (s : State) (n : Nat) (b : PostBox) : (s.setPb n b).sites = s.sites := rfl
@[simp] theorem State.setPb_net (s : State) (n : Nat) (b : PostBox) : (s.setPb n b).net = s.net := rfl
@[simp] theorem State.setPb_nextMsg (s : State) (n : Nat) (b : PostBox) : (s.setPb n b).nextMsg = s.nextMsg := rfl
@[simp] theorem State.setPb_bags (s : State) (n : Nat) (b : PostBox) : (s.setPb n b).bags = s.bags := rfl
@[simp] theorem State.setPb_winColls (s : State) (n : Nat) (b : PostBox) : (s.setPb n b).winColls = s.winColls := rfl
@[simp] theorem State.setPb_dispatches (s : State) (n : Nat) (b : PostBox) : (s.setPb n b).dispatches = s.dispatches := rfl
@[simp] theorem State.setPb_panelId (s : State) (n : Nat) (b : PostBox) : (s.setPb n b).panelId = s.panelId := rfl
@[simp] theorem State.setPb_ports (s : State) (n : Nat) (b : PostBox) : (s.setPb n b).ports = s.ports := rfl
@[simp] theorem State.setPb_routes (s : State) (n : Nat) (b : PostBox) : (s.setPb n b).routes = s.routes := rfl
@[simp] theorem State.setPb_soft (s : State) (n : Nat) (b : PostBox) : (s.setPb n b).soft = s.soft := rfl
@[simp] theorem State.setPb_teams (s : State) (n : Nat) (b : PostBox) : (s.setPb n b).teams = s.teams := rfl
@[simp] theorem State.setPb_nextLetter (s : State) (n : Nat) (b : PostBox) : (s.setPb n b).nextLetter = s.nextLetter := rfl
@[simp] theorem State.setPb_nextAdmit (s : State) (n : Nat) (b : PostBox) : (s.setPb n b).nextAdmit = s.nextAdmit := rfl
@[simp] theorem State.setPb_served (s : State) (n : Nat) (b : PostBox) : (s.setPb n b).served = s.served := rfl
@[simp] theorem State.setPb_reserving (s : State) (n : Nat) (b : PostBox) : (s.setPb n b).reserving = s.reserving := rfl
@[simp] theorem State.setPb_stage (s : State) (n : Nat) (b : PostBox) : (s.setPb n b).stage = s.stage := rfl
@[simp] theorem State.setPb_failCode (s : State) (n : Nat) (b : PostBox) : (s.setPb n b).failCode = s.failCode := rfl
@[simp] theorem State.setPb_panelSite (s : State) (n : Nat) (b : PostBox) : (s.setPb n b).panelSite = s.panelSite := rfl
@[simp] theorem State.setPb_b4win (s : State) (n : Nat) (b : PostBox) : (s.setPb n b).b4win = s.b4win := rfl
@[simp] theorem State.setPb_measured (s : State) (n : Nat) (b : PostBox) : (s.setPb n b).measured = s.measured := rfl
@[simp] theorem State.setPb_devIdentity (s : State) (n : Nat) (b : PostBox) : (s.setPb n b).devIdentity = s.devIdentity := rfl
@[simp] theorem State.setPb_devAlias (s : State) (n : Nat) (b : PostBox) : (s.setPb n b).devAlias = s.devAlias := rfl
@[simp] theorem State.setPb_certs (s : State) (n : Nat) (b : PostBox) : (s.setPb n b).certs = s.certs := rfl
@[simp] theorem State.setPb_hostPorts (s : State) (n : Nat) (b : PostBox) : (s.setPb n b).hostPorts = s.hostPorts := rfl
@[simp] theorem State.setPb_reply (s : State) (n : Nat) (b : PostBox) : (s.setPb n b).reply = s.reply := rfl
@[simp] theorem State.setPb_mem (s : State) (n : Nat) (b : PostBox) : (s.setPb n b).mem = s.mem := rfl
@[simp] theorem State.setPb_bad (s : State) (n : Nat) (b : PostBox) : (s.setPb n b).bad = s.bad := rfl
@[simp] theorem State.setPb_agenda (s : State) (n : Nat) (b : PostBox) : (s.setPb n b).agenda = s.agenda := rfl
@[simp] theorem State.setPb_cur (s : State) (n : Nat) (b : PostBox) : (s.setPb n b).cur = s.cur := rfl
@[simp] theorem State.setPb_issue (s : State) (n : Nat) (b : PostBox) : (s.setPb n b).issue = s.issue := rfl
@[simp] theorem State.setPb_lane (s : State) (n : Nat) (b : PostBox) : (s.setPb n b).lane = s.lane := rfl
@[simp] theorem State.setPb_free (s : State) (n : Nat) (b : PostBox) : (s.setPb n b).free = s.free := rfl

/-! ## Units read back -/

@[simp] theorem State.ctx_setCtx (s : State) (g : Nat) (c : Ctx) : (s.setCtx g c).ctx g = c := mget_mset_same _ _ _ _
theorem State.ctx_setCtx_ne (s : State) (g h : Nat) (c : Ctx) (e : h ≠ g) : (s.setCtx g c).ctx h = s.ctx h := mget_mset_ne _ _ _ _ _ e
@[simp] theorem State.me_setMe (s : State) (c : Ctx) : (s.setMe c).me = c := mget_mset_same _ _ _ _
@[simp] theorem State.cl_setCl (s : State) (n : Nat) (c : Cluster) : (s.setCl n c).cl n = c := mget_mset_same _ _ _ _
theorem State.cl_setCl_ne (s : State) (n m : Nat) (c : Cluster) (e : m ≠ n) : (s.setCl n c).cl m = s.cl m := mget_mset_ne _ _ _ _ _ e
@[simp] theorem State.myCl_setMyCl (s : State) (c : Cluster) : (s.setMyCl c).myCl = c := mget_mset_same _ _ _ _
@[simp] theorem State.site_setSite (s : State) (n : Nat) (x : Site) : (s.setSite n x).site n = x := mget_mset_same _ _ _ _
theorem State.site_setSite_ne (s : State) (n m : Nat) (x : Site) (e : m ≠ n) : (s.setSite n x).site m = s.site m := mget_mset_ne _ _ _ _ _ e
@[simp] theorem State.cl_setCtx (s : State) (g n : Nat) (c : Ctx) : (s.setCtx g c).cl n = s.cl n := rfl
@[simp] theorem State.site_setCtx (s : State) (g n : Nat) (c : Ctx) : (s.setCtx g c).site n = s.site n := rfl
@[simp] theorem State.ctx_setCl (s : State) (n g : Nat) (c : Cluster) : (s.setCl n c).ctx g = s.ctx g := rfl
@[simp] theorem State.me_setCl (s : State) (n : Nat) (c : Cluster) : (s.setCl n c).me = s.me := rfl
@[simp] theorem State.site_setCl (s : State) (n m : Nat) (c : Cluster) : (s.setCl n c).site m = s.site m := rfl
@[simp] theorem State.ctx_setSite (s : State) (n g : Nat) (x : Site) : (s.setSite n x).ctx g = s.ctx g := rfl
@[simp] theorem State.me_setSite (s : State) (n : Nat) (x : Site) : (s.setSite n x).me = s.me := rfl
@[simp] theorem State.cl_setSite (s : State) (n m : Nat) (x : Site) : (s.setSite n x).cl m = s.cl m := rfl

end Sys2Proof.Machine
end

