-- ==== Sys2Proof/Laws/Memory.lean ====
section
/-! SUPPORT. Memory: what a byte reads as after a write, and that every operation keeps the canonical form. -/
namespace Sys2Proof.Machine

/-! ## One byte -/

theorem memWfFrom_mono {m : List Host.Cell} {lo lo' : Nat} (h : memWfFrom lo m = true) (hl : lo' ≤ lo) : memWfFrom lo' m = true := by
  cases m with
  | nil => rfl
  | cons c m =>
    simp only [memWfFrom, Bool.and_eq_true, decide_eq_true_eq] at *
    exact ⟨⟨by omega, h.1.2⟩, h.2⟩

theorem readByte_below {m : List Host.Cell} {lo a : Nat} (h : memWfFrom lo m = true) (ha : a < lo) : readByte m a = 0 := by
  induction m generalizing lo with
  | nil => rfl
  | cons c m ih =>
    simp only [memWfFrom, Bool.and_eq_true, decide_eq_true_eq] at h
    rw [readByte, if_neg (by omega)]
    exact ih h.2 (by omega)

theorem readByte_writeByte_ne (m : List Host.Cell) {a b : Nat} (v : BitVec 8) (h : b ≠ a) :
    readByte (writeByte m a v) b = readByte m b := by
  induction m with
  | nil =>
    rw [writeByte]
    split <;> simp [readByte, h]
  | cons c m ih =>
    obtain ⟨k, w⟩ := c
    rw [writeByte]
    split
    · subst_vars; split <;> simp [readByte, h]
    · split
      · split <;> simp [readByte, h]
      · simp only [readByte, ih]

theorem readByte_writeByte_same {m : List Host.Cell} {lo : Nat} (h : memWfFrom lo m = true) (a : Nat) (v : BitVec 8) :
    readByte (writeByte m a v) a = v := by
  induction m generalizing lo with
  | nil =>
    rw [writeByte]
    split
    · simp_all [readByte]
    · simp [readByte]
  | cons c m ih =>
    obtain ⟨k, w⟩ := c
    simp only [memWfFrom, Bool.and_eq_true, decide_eq_true_eq] at h
    rw [writeByte]
    split
    · subst_vars
      split
      · subst_vars; exact readByte_below h.2 (by omega)
      · simp [readByte]
    · split
      · split
        · subst_vars; rw [readByte, if_neg (by assumption)]; exact readByte_below h.2 (by omega)
        · simp [readByte]
      · rw [readByte, if_neg (by assumption)]; exact ih h.2

theorem memWfFrom_writeByte {m : List Host.Cell} {lo a : Nat} (v : BitVec 8) (h : memWfFrom lo m = true) (ha : lo ≤ a) :
    memWfFrom lo (writeByte m a v) = true := by
  induction m generalizing lo with
  | nil =>
    rw [writeByte]
    split
    · rfl
    · simp_all [memWfFrom]
  | cons c m ih =>
    obtain ⟨k, w⟩ := c
    simp only [memWfFrom, Bool.and_eq_true, decide_eq_true_eq] at h
    rw [writeByte]
    split
    · subst_vars
      split
      · exact memWfFrom_mono h.2 (by omega)
      · simp_all [memWfFrom]
    · split
      · split
        · simp_all [memWfFrom]
        · simp_all [memWfFrom]
      · simp only [memWfFrom, Bool.and_eq_true, decide_eq_true_eq]
        exact ⟨h.1, ih h.2 (by omega)⟩

theorem memWf_writeByte {m : List Host.Cell} (a : Nat) (v : BitVec 8) (h : memWf m = true) : memWf (writeByte m a v) = true :=
  memWfFrom_writeByte v h (Nat.zero_le a)

/-! ## Several bytes -/

theorem memWf_writeMem {m : List Host.Cell} (n : Nat) (a v : Nat) (h : memWf m = true) : memWf (writeMem m a n v) = true := by
  induction n generalizing m a v with
  | zero => exact h
  | succ n ih => exact ih _ _ (memWf_writeByte _ _ h)

theorem memWf_writeMask {m : List Host.Cell} (n : Nat) (a k v : Nat) (h : memWf m = true) : memWf (writeMask m a k n v) = true := by
  induction n generalizing m a k v with
  | zero => exact h
  | succ n ih =>
    refine ih _ _ _ ?_
    split
    · exact memWf_writeByte _ _ h
    · exact h

theorem readByte_writeMem_out (m : List Host.Cell) (n : Nat) {a b : Nat} (v : Nat) (h : b < a ∨ a + n ≤ b) :
    readByte (writeMem m a n v) b = readByte m b := by
  induction n generalizing m a v with
  | zero => rfl
  | succ n ih => rw [writeMem, ih _ _ (by omega), readByte_writeByte_ne _ _ (by omega)]

theorem readMem_writeMem_same {m : List Host.Cell} (n : Nat) (a v : Nat) (h : memWf m = true) :
    readMem (writeMem m a n v) a n = v % 2 ^ (8 * n) := by
  induction n generalizing m a v with
  | zero => simp [readMem, Nat.mod_one]
  | succ n ih =>
    rw [readMem, writeMem, ih _ _ (memWf_writeByte _ _ h), readByte_writeMem_out _ _ _ (Or.inl (by omega)),
      readByte_writeByte_same h]
    simp only [BitVec.toNat_ofNat]
    have e : (2 : Nat) ^ (8 * (n + 1)) = 256 * 2 ^ (8 * n) := by rw [Nat.mul_add, Nat.pow_add]; omega
    rw [e, Nat.mod_mul]

theorem memWfFrom_filter (p : Host.Cell → Bool) (m : List Host.Cell) {lo : Nat} (h : memWfFrom lo m = true) :
    memWfFrom lo (m.filter p) = true := by
  induction m generalizing lo with
  | nil => rfl
  | cons c m ih =>
    obtain ⟨k, w⟩ := c
    simp only [memWfFrom, Bool.and_eq_true, decide_eq_true_eq] at h
    rw [List.filter_cons]
    split
    · simp only [memWfFrom, Bool.and_eq_true, decide_eq_true_eq]; exact ⟨h.1, ih h.2⟩
    · exact memWfFrom_mono (ih h.2) (by omega)

/-! ## The operations of the machine -/

theorem State.memOk_congr {s t : State} (h : s.memOk) (e : t.mem = s.mem) : t.memOk := by
  unfold State.memOk; rw [e]; exact h

/-- A fold whose step keeps something about a state keeps it. -/
theorem foldl_keeps {α : Type} (P : State → Prop) (f : State → α → State) (hf : ∀ s a, P s → P (f s a)) (l : List α) {s : State}
    (h : P s) : P (l.foldl f s) := by
  induction l generalizing s with
  | nil => exact h
  | cons a l ih => exact ih (hf s a h)

/-- A fold whose step leaves memory alone leaves it alone. -/
theorem foldl_mem {α : Type} (f : State → α → State) (hf : ∀ s a, (f s a).mem = s.mem) (l : List α) (s : State) :
    (l.foldl f s).mem = s.mem :=
  foldl_keeps (fun t => t.mem = s.mem) f (fun t a h => (hf t a).trans h) l rfl

@[simp] theorem State.mem_logErr (s : State) (cl pa code : Nat) : (s.logErr cl pa code).mem = s.mem := rfl

@[simp] theorem State.mem_logBad (s : State) (cl pa n code : Nat) : (s.logBad cl pa n code).mem = s.mem := by
  unfold State.logBad; split <;> rfl

@[simp] theorem State.mem_countEvent (s : State) (cl pa : Nat) : (s.countEvent cl pa).mem = s.mem := rfl

@[simp] theorem State.mem_correct (s : State) (cl pa n : Nat) : (s.correct cl pa n).mem = s.mem :=
  foldl_mem _ (fun _ _ => State.mem_countEvent _ _ _) _ _

@[simp] theorem State.mem_wakeLs (s : State) (cl x n : Nat) : (s.wakeLs cl x n).mem = s.mem :=
  foldl_mem _ (fun t b => by dsimp only; split <;> rfl) _ _

@[simp] theorem State.mem_readySet (s : State) (cl k : Nat) : (s.readySet cl k).mem = s.mem := by
  unfold State.readySet; dsimp only; split <;> rfl

@[simp] theorem State.mem_activate (s : State) (cl x : Nat) : (s.activate cl x).mem = s.mem := by
  unfold State.activate
  dsimp only
  rw [State.mem_readySet]
  unfold State.setCl
  dsimp only
  split <;> simp

@[simp] theorem State.mem_noteEnc (s : State) (pa : Nat) : (s.noteEnc pa).mem = s.mem := by
  unfold State.noteEnc
  dsimp only
  split <;> rfl

@[simp] theorem State.mem_wake (s : State) (pa n : Nat) : (s.wake pa n).mem = s.mem := by
  unfold State.wake
  split
  · exact State.mem_wakeLs _ _ _ _
  · split
    · exact (State.mem_noteEnc _ _).trans (foldl_mem _ (fun _ _ => State.mem_activate _ _ _) _ _)
    · rfl

@[simp] theorem State.mem_slcPass (s : State) (cl x n : Nat) : (s.slcPass cl x n).mem = s.mem := rfl

@[simp] theorem State.mem_drainWq (s : State) (cl ch : Nat) (gone : WqEnt → Bool) : (s.drainWq cl ch gone).mem = s.mem :=
  foldl_mem _ (fun _ _ => State.mem_slcPass _ _ _ _) _ _

@[simp] theorem State.mem_putWq (s : State) (cl ch r : Nat) (f : WqEnt → WqEnt) : (s.putWq cl ch r f).mem = s.mem := by
  unfold State.putWq State.setCl
  dsimp only
  split
  · split <;> simp
  · rfl

@[simp] theorem State.mem_enqueue (s : State) (pa n m : Nat) : (s.enqueue pa n m).mem = s.mem := by
  unfold State.enqueue
  split
  · exact foldl_mem _ (fun t r => by dsimp only; split <;> simp) _ _
  · rfl

@[simp] theorem State.mem_enqueueRed (s : State) (pa n : Nat) : (s.enqueueRed pa n).mem = s.mem := by
  unfold State.enqueueRed
  split
  · dsimp only; split <;> simp
  · rfl

@[simp] theorem State.mem_drainRead (s : State) (cl x n : Nat) : (s.drainRead cl x n).mem = s.mem := by
  unfold State.drainRead
  dsimp only
  split
  · rfl
  · exact foldl_mem _ (fun _ _ => State.mem_drainWq _ _ _ _) _ _

/-- The read of a read-modify-write changes no memory. -/
@[simp] theorem State.mem_readRed (s : State) (cl pa n : Nat) : (s.readRed cl pa n).mem = s.mem := by
  unfold State.readRed
  dsimp only
  split <;> simp

/-- A read changes no memory. -/
@[simp] theorem State.mem_readAt (s : State) (cl pa n : Nat) : (s.readAt cl pa n).mem = s.mem := by
  unfold State.readAt
  dsimp only
  split <;> split <;> simp

theorem State.memOk_healWith {s : State} (pa n : Nat) (sel : Nat → Bool) (who : Option Nat) (h : s.memOk) :
    (s.healWith pa n sel who).memOk := by
  unfold State.memOk State.healWith
  dsimp only
  generalize List.filter _ s.bad = l
  rw [foldl_mem _ (fun t w => by split <;> simp)]
  unfold State.memOk at h
  generalize s.mem = m at h
  induction l generalizing m with
  | nil => exact h
  | cons w l ih => exact ih _ (memWf_writeMem _ _ _ h)

theorem State.memOk_healFor {s : State} (pa n : Nat) (who : Option Nat) (h : s.memOk) : (s.healFor pa n who).memOk := by
  unfold State.healFor
  split
  · exact h
  · exact State.memOk_healWith _ _ _ _ h

theorem State.memOk_unitPut {s : State} (pa k v : Nat) (h : s.memOk) : (s.unitPut pa k v).memOk := by
  unfold State.unitPut State.memOk
  dsimp only
  generalize (s.cipher pa (BitVec.ofNat 512 (mergeBytes k 64 (s.unitText pa) v))).toNat = x
  exact memWf_writeMem _ _ _ h

theorem State.memOk_unitsPut {s : State} (pa n k v : Nat) (h : s.memOk) : (s.unitsPut pa n k v).memOk :=
  foldl_keeps State.memOk _ (fun t a ht => by
    dsimp only
    split
    · exact ht
    · exact State.memOk_unitPut _ _ _ ht) _ h

theorem State.memOk_store {s : State} (pa n v : Nat) (who : Option Nat) (h : s.memOk) : (s.store pa n v who).memOk := by
  unfold State.store
  dsimp only
  split
  · exact memWf_writeMem _ _ _ (State.memOk_healFor pa n who h)
  · exact State.memOk_unitsPut _ _ _ _ (State.memOk_healFor pa n who h)

theorem State.memOk_storeMask {s : State} (pa n k v : Nat) (h : s.memOk) : (s.storeMask pa n k v).memOk := by
  unfold State.storeMask
  have g : (if (s.bad.isEmpty && s.soft.isEmpty) = true then s else s.healWith pa n fun i => bit k i).memOk := by
    split
    · exact h
    · exact State.memOk_healWith _ _ _ _ h
  revert g
  generalize (if (s.bad.isEmpty && s.soft.isEmpty) = true then s else s.healWith pa n fun i => bit k i) = t
  intro g
  dsimp only
  split
  · exact memWf_writeMask _ _ _ _ g
  · exact State.memOk_unitsPut _ _ _ _ g

theorem State.memOk_zeroMem {s : State} (pa n : Nat) (h : s.memOk) : (s.zeroMem pa n).memOk :=
  memWfFrom_filter _ _ (State.memOk_healFor pa n none h)

/-- A write performed at its home keeps the canonical form. -/
theorem State.memOk_perform {s : State} (pa n v : Nat) (who : Option Nat) (h : s.memOk) : (s.perform pa n v who).memOk :=
  State.memOk_congr (State.memOk_store pa n v who (State.memOk_congr h (State.mem_wake s pa n))) (State.mem_enqueue _ _ _ _)

/-- A read-modify-write performed at its home keeps the canonical form. -/
theorem State.memOk_performRed {s : State} (pa n v : Nat) (who : Option Nat) (h : s.memOk) : (s.performRed pa n v who).memOk :=
  State.memOk_congr (State.memOk_store pa n v who (State.memOk_congr h (State.mem_wake s pa n))) (State.mem_enqueueRed _ _ _)

theorem State.memOk_writeBack {s : State} (cl : Nat) (l : L1Line) (h : s.memOk) : (s.writeBack cl l).memOk := by
  unfold State.writeBack
  split
  · exact h
  · split
    · exact State.memOk_congr h (State.mem_logErr _ _ _ _)
    · extract_lets pa lost u t m
      have e1 : u.mem = s.mem := foldl_mem _ (fun _ _ => State.mem_logErr _ _ _ _) _ _
      have e2 : t.mem = s.mem := by
        simp only [t]
        split
        · exact e1
        · rw [State.mem_correct]; exact e1
      exact State.memOk_congr (State.memOk_storeMask _ _ _ _ (State.memOk_congr (State.memOk_congr h e2) (State.mem_wake _ _ _)))
        (State.mem_enqueue _ _ _ _)

@[simp] theorem State.mem_wantLine (s : State) (cl line key : Nat) : (s.wantLine cl line key).mem = s.mem := by
  unfold State.wantLine
  dsimp only
  split <;> rfl

@[simp] theorem State.mem_l1Drop (s : State) (cl line : Nat) : (s.l1Drop cl line).mem = s.mem := rfl

@[simp] theorem State.mem_l1Recent (s : State) (cl : Nat) (l : L1Line) : (s.l1Recent cl l).mem = s.mem := rfl

theorem State.memOk_l1Flush {s : State} (cl line : Nat) (h : s.memOk) : (s.l1Flush cl line).memOk := by
  unfold State.l1Flush
  split
  · exact h
  · exact State.memOk_congr (State.memOk_writeBack cl _ h) rfl

theorem State.memOk_l1Bring {s : State} (cl line : Nat) (h : s.memOk) : (s.l1Bring cl line).memOk := by
  have aux : ∀ (t : State) (pa : Nat), t.memOk → (t.readAt cl pa 128).memOk := fun t pa ht => State.memOk_congr ht (State.mem_readAt _ _ _ _)
  unfold State.l1Bring
  extract_lets key pa set t u c new
  refine State.memOk_congr (s := u) (aux _ _ ?_) (State.setCl_mem _ _ _)
  simp only [t]
  split
  · exact h
  · split
    · exact State.memOk_l1Flush _ _ h
    · exact h

theorem State.memOk_l1Fill {s : State} (cl line : Nat) (h : s.memOk) : (s.l1Fill cl line).memOk := by
  unfold State.l1Fill
  split
  · split
    · exact State.memOk_l1Bring _ _ (State.memOk_congr h (State.mem_wantLine _ _ _ _))
    · exact h
  · exact State.memOk_l1Bring _ _ h

@[simp] theorem State.mem_l1Heal (s : State) (cl line o n : Nat) : (s.l1Heal cl line o n).mem = s.mem := by
  unfold State.l1Heal
  extract_lets a t u c v
  have e : t.mem = s.mem := by
    simp only [t]
    split
    · rfl
    · exact State.mem_correct _ _ _ _
  have f : u.mem = t.mem := by
    simp only [u]
    split
    · rfl
    · exact State.mem_logErr _ _ _ _
  split
  · have g : v.mem = u.mem := State.setCl_mem u cl _
    exact (g.trans f).trans e
  · exact e

/-- A scalar load keeps the canonical form. -/
theorem State.memOk_loadVia {s : State} (cl pa n : Nat) (h : s.memOk) : (s.loadVia cl pa n).2.memOk := by
  have read : (s.readAt cl pa n).memOk := State.memOk_congr h (State.mem_readAt _ _ _ _)
  have direct : ∀ b : Bool, (if b = true then ((none : Option Nat), (s.readAt cl pa n).logBad cl pa n 1)
      else (some ((s.readAt cl pa n).load pa n), s.readAt cl pa n)).2.memOk := by
    intro b
    cases b
    · exact read
    · exact State.memOk_congr read (State.mem_logBad _ _ _ _ _)
  unfold State.loadVia
  dsimp only
  split
  · exact direct _
  · split
    · exact direct _
    · rename_i line _ _
      have g : ((s.wantLine cl line (keyOf pa)).l1Fill cl line).memOk :=
        State.memOk_l1Fill _ _ (State.memOk_congr h (State.mem_wantLine _ _ _ _))
      revert g
      generalize (s.wantLine cl line (keyOf pa)).l1Fill cl line = u
      intro g
      split
      · have g' : (if u.soft.isEmpty = true then u else u.correct cl (l1At cl (128 * line + offOf pa % 128)) n).memOk := by
          split
          · exact g
          · exact State.memOk_congr g (State.mem_correct _ _ _ _)
        revert g'
        generalize (if u.soft.isEmpty = true then u else u.correct cl (l1At cl (128 * line + offOf pa % 128)) n) = w
        intro g'
        split
        · exact State.memOk_congr g' (State.mem_logErr _ _ _ _)
        · exact g'
      · exact g

/-- A scalar store keeps the canonical form. -/
theorem State.memOk_storeVia {s : State} (cl pa n v : Nat) (h : s.memOk) : (s.storeVia cl pa n v).memOk := by
  unfold State.storeVia
  split
  · exact State.memOk_perform _ _ _ _ h
  · split
    · exact State.memOk_perform _ _ _ _ h
    · exact State.memOk_congr (State.memOk_l1Fill _ _ (State.memOk_congr h (State.mem_wantLine _ _ _ _)))
        ((State.setCl_mem _ _ _).trans (State.mem_l1Heal _ _ _ _ _))

/-- The reset state's memory has the canonical form. -/
theorem State.memOk_reset : State.reset.memOk := rfl

end Sys2Proof.Machine
end

