-- ==== Sys2Proof/Laws/Operands.lean ====
section
/-! SUPPORT. The shared checks and the reading of sources: when a slot goes on, and what reading a source leaves as it was. -/
namespace Sys2Proof.Machine

/-! ## The gate (R99 steps 1 to 3) -/

theorem gate_pass {lvl : Nat} {srcs dsts : List Reg} {s : State} (k : State → Out) (h : s.issueCheck lvl srcs dsts = none) :
    gate lvl srcs dsts s k = k s := by rw [gate, h]

theorem gate_trap {lvl : Nat} {srcs dsts : List Reg} {s : State} {t : Trap} (k : State → Out)
    (h : s.issueCheck lvl srcs dsts = some (.trap t)) : gate lvl srcs dsts s k = s.trapNow t := by rw [gate, h]

theorem gate_hold {lvl : Nat} {srcs dsts : List Reg} {s : State} {c : CState} (k : State → Out)
    (h : s.issueCheck lvl srcs dsts = some (.hold c)) : gate lvl srcs dsts s k = s.hold c := by rw [gate, h]

/-- The level is checked first (R99 step 1). -/
theorem issueCheck_level {s : State} {lvl : Nat} (srcs dsts : List Reg) (h : s.me.priv < lvl) :
    s.issueCheck lvl srcs dsts = some (.trap { cause := 0x03, reason := 1 }) := by rw [State.issueCheck, if_pos h]

/-! ## Reading a source -/

/-- Reading a scalar source changes at most the queues and the dirty bits of the issuing context. -/
theorem readX_state (s : State) (n : Nat) :
    (s.readX n).2 = s ∨ ∃ qs d, (s.readX n).2 = s.setMe { s.me with qs := qs, dirty := d } := by
  unfold State.readX
  split
  · exact .inl rfl
  · dsimp only
    split
    · exact .inl rfl
    · exact .inr ⟨_, _, rfl⟩

/-- Reading a vector source changes at most the vector queues and the dirty bits of the issuing context. -/
theorem readV_state (s : State) (n : Nat) :
    (s.readV n).2 = s ∨ ∃ qs d, (s.readV n).2 = s.setMe { s.me with vqs := qs, dirty := d } := by
  unfold State.readV
  split
  · exact .inl rfl
  · dsimp only
    split
    · exact .inl rfl
    · exact .inr ⟨_, _, rfl⟩

/-- A property of states that looks at the issuing context's queues and dirty bits nowhere holds of the state after a read. -/
theorem readX_keeps {α : Type} (f : State → α) (s : State) (n : Nat)
    (h : ∀ qs d, f (s.setMe { s.me with qs := qs, dirty := d }) = f s) : f (s.readX n).2 = f s := by
  rcases readX_state s n with e | ⟨q, d, e⟩ <;> rw [e]
  exact h q d

theorem readV_keeps {α : Type} (f : State → α) (s : State) (n : Nat)
    (h : ∀ qs d, f (s.setMe { s.me with vqs := qs, dirty := d }) = f s) : f (s.readV n).2 = f s := by
  rcases readV_state s n with e | ⟨q, d, e⟩ <;> rw [e]
  exact h q d

@[simp] theorem readX_issue (s : State) (n : Nat) : (s.readX n).2.issue = s.issue := readX_keeps State.issue s n fun _ _ => rfl
@[simp] theorem readX_cur (s : State) (n : Nat) : (s.readX n).2.cur = s.cur := readX_keeps State.cur s n fun _ _ => rfl
@[simp] theorem readX_mem (s : State) (n : Nat) : (s.readX n).2.mem = s.mem := readX_keeps State.mem s n fun _ _ => rfl
@[simp] theorem readX_clusters (s : State) (n : Nat) : (s.readX n).2.clusters = s.clusters := readX_keeps State.clusters s n fun _ _ => rfl
@[simp] theorem readX_sites (s : State) (n : Nat) : (s.readX n).2.sites = s.sites := readX_keeps State.sites s n fun _ _ => rfl
@[simp] theorem readX_teams (s : State) (n : Nat) : (s.readX n).2.teams = s.teams := readX_keeps State.teams s n fun _ _ => rfl
@[simp] theorem readX_bad (s : State) (n : Nat) : (s.readX n).2.bad = s.bad := readX_keeps State.bad s n fun _ _ => rfl
@[simp] theorem readX_net (s : State) (n : Nat) : (s.readX n).2.net = s.net := readX_keeps State.net s n fun _ _ => rfl
@[simp] theorem readX_free (s : State) (n : Nat) : (s.readX n).2.free = s.free := readX_keeps State.free s n fun _ _ => rfl
@[simp] theorem readX_agenda (s : State) (n : Nat) : (s.readX n).2.agenda = s.agenda := readX_keeps State.agenda s n fun _ _ => rfl
@[simp] theorem readX_clNo (s : State) (n : Nat) : (s.readX n).2.clNo = s.clNo := readX_keeps State.clNo s n fun _ _ => rfl
@[simp] theorem readX_myCl (s : State) (n : Nat) : (s.readX n).2.myCl = s.myCl := readX_keeps State.myCl s n fun _ _ => rfl
@[simp] theorem readX_mySite (s : State) (n : Nat) : (s.readX n).2.mySite = s.mySite := readX_keeps State.mySite s n fun _ _ => rfl
@[simp] theorem readX_cl (s : State) (n m : Nat) : (s.readX n).2.cl m = s.cl m := readX_keeps (State.cl · m) s n fun _ _ => rfl
@[simp] theorem readX_site (s : State) (n m : Nat) : (s.readX n).2.site m = s.site m := readX_keeps (State.site · m) s n fun _ _ => rfl
@[simp] theorem readX_imm (s : State) (n : Nat) {w : Nat} (i : BitVec w) : (s.readX n).2.imm i = s.imm i := readX_keeps (State.imm · i) s n fun _ _ => rfl
@[simp] theorem readX_getC (s : State) (n m : Nat) : (s.readX n).2.me.getC m = s.me.getC m :=
  readX_keeps (fun s => s.me.getC m) s n fun _ _ => by rw [State.me_setMe]; rfl
@[simp] theorem readX_getP (s : State) (n m : Nat) : (s.readX n).2.me.getP m = s.me.getP m :=
  readX_keeps (fun s => s.me.getP m) s n fun _ _ => by rw [State.me_setMe]; rfl
@[simp] theorem readX_getX (s : State) (n m : Nat) : (s.readX n).2.me.getX m = s.me.getX m :=
  readX_keeps (fun s => s.me.getX m) s n fun _ _ => by rw [State.me_setMe]; rfl
@[simp] theorem readX_getV (s : State) (n m : Nat) : (s.readX n).2.me.getV m = s.me.getV m :=
  readX_keeps (fun s => s.me.getV m) s n fun _ _ => by rw [State.me_setMe]; rfl
@[simp] theorem readX_tl (s : State) (n m : Nat) : (s.readX n).2.me.tl m = s.me.tl m :=
  readX_keeps (fun s => s.me.tl m) s n fun _ _ => by rw [State.me_setMe]; rfl
@[simp] theorem readX_priv (s : State) (n : Nat) : (s.readX n).2.me.priv = s.me.priv :=
  readX_keeps (fun s => s.me.priv) s n fun _ _ => by rw [State.me_setMe]
@[simp] theorem readX_pending (s : State) (n : Nat) : (s.readX n).2.me.pending = s.me.pending :=
  readX_keeps (fun s => s.me.pending) s n fun _ _ => by rw [State.me_setMe]
@[simp] theorem readX_inflight (s : State) (n : Nat) : (s.readX n).2.me.inflight = s.me.inflight :=
  readX_keeps (fun s => s.me.inflight) s n fun _ _ => by rw [State.me_setMe]
@[simp] theorem readX_fctl (s : State) (n : Nat) : (s.readX n).2.me.fctl = s.me.fctl :=
  readX_keeps (fun s => s.me.fctl) s n fun _ _ => by rw [State.me_setMe]
@[simp] theorem readX_rings (s : State) (n : Nat) : (s.readX n).2.me.rings = s.me.rings :=
  readX_keeps (fun s => s.me.rings) s n fun _ _ => by rw [State.me_setMe]
@[simp] theorem readX_ccount (s : State) (n : Nat) : (s.readX n).2.me.ccount = s.me.ccount :=
  readX_keeps (fun s => s.me.ccount) s n fun _ _ => by rw [State.me_setMe]
@[simp] theorem readX_seq (s : State) (n : Nat) : (s.readX n).2.me.seq = s.me.seq :=
  readX_keeps (fun s => s.me.seq) s n fun _ _ => by rw [State.me_setMe]
@[simp] theorem readX_nextId (s : State) (n : Nat) : (s.readX n).2.me.nextId = s.me.nextId :=
  readX_keeps (fun s => s.me.nextId) s n fun _ _ => by rw [State.me_setMe]
@[simp] theorem readX_lbuf (s : State) (n : Nat) : (s.readX n).2.me.lbuf = s.me.lbuf :=
  readX_keeps (fun s => s.me.lbuf) s n fun _ _ => by rw [State.me_setMe]
@[simp] theorem readX_task (s : State) (n : Nat) : (s.readX n).2.me.task = s.me.task :=
  readX_keeps (fun s => s.me.task) s n fun _ _ => by rw [State.me_setMe]
@[simp] theorem readX_rstack (s : State) (n : Nat) : (s.readX n).2.me.rstack = s.me.rstack :=
  readX_keeps (fun s => s.me.rstack) s n fun _ _ => by rw [State.me_setMe]
@[simp] theorem readX_stkSpill (s : State) (n : Nat) : (s.readX n).2.me.stkSpill = s.me.stkSpill :=
  readX_keeps (fun s => s.me.stkSpill) s n fun _ _ => by rw [State.me_setMe]
@[simp] theorem readX_tls (s : State) (n : Nat) : (s.readX n).2.me.tls = s.me.tls :=
  readX_keeps (fun s => s.me.tls) s n fun _ _ => by rw [State.me_setMe]
@[simp] theorem readX_areg (s : State) (n m : Nat) : (s.readX n).2.areg m = s.areg m := readX_getX s n _
@[simp] theorem readX_rm (s : State) (n : Nat) : (s.readX n).2.rm = s.rm := by simp only [State.rm, readX_fctl]
@[simp] theorem readV_issue (s : State) (n : Nat) : (s.readV n).2.issue = s.issue := readV_keeps State.issue s n fun _ _ => rfl
@[simp] theorem readV_cur (s : State) (n : Nat) : (s.readV n).2.cur = s.cur := readV_keeps State.cur s n fun _ _ => rfl
@[simp] theorem readV_mem (s : State) (n : Nat) : (s.readV n).2.mem = s.mem := readV_keeps State.mem s n fun _ _ => rfl
@[simp] theorem readV_clusters (s : State) (n : Nat) : (s.readV n).2.clusters = s.clusters := readV_keeps State.clusters s n fun _ _ => rfl
@[simp] theorem readV_sites (s : State) (n : Nat) : (s.readV n).2.sites = s.sites := readV_keeps State.sites s n fun _ _ => rfl
@[simp] theorem readV_teams (s : State) (n : Nat) : (s.readV n).2.teams = s.teams := readV_keeps State.teams s n fun _ _ => rfl
@[simp] theorem readV_bad (s : State) (n : Nat) : (s.readV n).2.bad = s.bad := readV_keeps State.bad s n fun _ _ => rfl
@[simp] theorem readV_net (s : State) (n : Nat) : (s.readV n).2.net = s.net := readV_keeps State.net s n fun _ _ => rfl
@[simp] theorem readV_free (s : State) (n : Nat) : (s.readV n).2.free = s.free := readV_keeps State.free s n fun _ _ => rfl
@[simp] theorem readV_agenda (s : State) (n : Nat) : (s.readV n).2.agenda = s.agenda := readV_keeps State.agenda s n fun _ _ => rfl
@[simp] theorem readV_clNo (s : State) (n : Nat) : (s.readV n).2.clNo = s.clNo := readV_keeps State.clNo s n fun _ _ => rfl
@[simp] theorem readV_myCl (s : State) (n : Nat) : (s.readV n).2.myCl = s.myCl := readV_keeps State.myCl s n fun _ _ => rfl
@[simp] theorem readV_mySite (s : State) (n : Nat) : (s.readV n).2.mySite = s.mySite := readV_keeps State.mySite s n fun _ _ => rfl
@[simp] theorem readV_cl (s : State) (n m : Nat) : (s.readV n).2.cl m = s.cl m := readV_keeps (State.cl · m) s n fun _ _ => rfl
@[simp] theorem readV_site (s : State) (n m : Nat) : (s.readV n).2.site m = s.site m := readV_keeps (State.site · m) s n fun _ _ => rfl
@[simp] theorem readV_imm (s : State) (n : Nat) {w : Nat} (i : BitVec w) : (s.readV n).2.imm i = s.imm i := readV_keeps (State.imm · i) s n fun _ _ => rfl
@[simp] theorem readV_getC (s : State) (n m : Nat) : (s.readV n).2.me.getC m = s.me.getC m :=
  readV_keeps (fun s => s.me.getC m) s n fun _ _ => by rw [State.me_setMe]; rfl
@[simp] theorem readV_getP (s : State) (n m : Nat) : (s.readV n).2.me.getP m = s.me.getP m :=
  readV_keeps (fun s => s.me.getP m) s n fun _ _ => by rw [State.me_setMe]; rfl
@[simp] theorem readV_getX (s : State) (n m : Nat) : (s.readV n).2.me.getX m = s.me.getX m :=
  readV_keeps (fun s => s.me.getX m) s n fun _ _ => by rw [State.me_setMe]; rfl
@[simp] theorem readV_getV (s : State) (n m : Nat) : (s.readV n).2.me.getV m = s.me.getV m :=
  readV_keeps (fun s => s.me.getV m) s n fun _ _ => by rw [State.me_setMe]; rfl
@[simp] theorem readV_tl (s : State) (n m : Nat) : (s.readV n).2.me.tl m = s.me.tl m :=
  readV_keeps (fun s => s.me.tl m) s n fun _ _ => by rw [State.me_setMe]; rfl
@[simp] theorem readV_priv (s : State) (n : Nat) : (s.readV n).2.me.priv = s.me.priv :=
  readV_keeps (fun s => s.me.priv) s n fun _ _ => by rw [State.me_setMe]
@[simp] theorem readV_pending (s : State) (n : Nat) : (s.readV n).2.me.pending = s.me.pending :=
  readV_keeps (fun s => s.me.pending) s n fun _ _ => by rw [State.me_setMe]
@[simp] theorem readV_inflight (s : State) (n : Nat) : (s.readV n).2.me.inflight = s.me.inflight :=
  readV_keeps (fun s => s.me.inflight) s n fun _ _ => by rw [State.me_setMe]
@[simp] theorem readV_fctl (s : State) (n : Nat) : (s.readV n).2.me.fctl = s.me.fctl :=
  readV_keeps (fun s => s.me.fctl) s n fun _ _ => by rw [State.me_setMe]
@[simp] theorem readV_rings (s : State) (n : Nat) : (s.readV n).2.me.rings = s.me.rings :=
  readV_keeps (fun s => s.me.rings) s n fun _ _ => by rw [State.me_setMe]
@[simp] theorem readV_ccount (s : State) (n : Nat) : (s.readV n).2.me.ccount = s.me.ccount :=
  readV_keeps (fun s => s.me.ccount) s n fun _ _ => by rw [State.me_setMe]
@[simp] theorem readV_seq (s : State) (n : Nat) : (s.readV n).2.me.seq = s.me.seq :=
  readV_keeps (fun s => s.me.seq) s n fun _ _ => by rw [State.me_setMe]
@[simp] theorem readV_nextId (s : State) (n : Nat) : (s.readV n).2.me.nextId = s.me.nextId :=
  readV_keeps (fun s => s.me.nextId) s n fun _ _ => by rw [State.me_setMe]
@[simp] theorem readV_lbuf (s : State) (n : Nat) : (s.readV n).2.me.lbuf = s.me.lbuf :=
  readV_keeps (fun s => s.me.lbuf) s n fun _ _ => by rw [State.me_setMe]
@[simp] theorem readV_task (s : State) (n : Nat) : (s.readV n).2.me.task = s.me.task :=
  readV_keeps (fun s => s.me.task) s n fun _ _ => by rw [State.me_setMe]
@[simp] theorem readV_rstack (s : State) (n : Nat) : (s.readV n).2.me.rstack = s.me.rstack :=
  readV_keeps (fun s => s.me.rstack) s n fun _ _ => by rw [State.me_setMe]
@[simp] theorem readV_stkSpill (s : State) (n : Nat) : (s.readV n).2.me.stkSpill = s.me.stkSpill :=
  readV_keeps (fun s => s.me.stkSpill) s n fun _ _ => by rw [State.me_setMe]
@[simp] theorem readV_tls (s : State) (n : Nat) : (s.readV n).2.me.tls = s.me.tls :=
  readV_keeps (fun s => s.me.tls) s n fun _ _ => by rw [State.me_setMe]
@[simp] theorem readV_areg (s : State) (n m : Nat) : (s.readV n).2.areg m = s.areg m := readV_getX s n _
@[simp] theorem readV_rm (s : State) (n : Nat) : (s.readV n).2.rm = s.rm := by simp only [State.rm, readV_fctl]

@[simp] theorem readX_agentOf (s : State) (n : Nat) : (s.readX n).2.agentOf s.cur = s.agentOf s.cur := by
  have h := readX_priv s n
  simp only [State.me, readX_cur] at h
  simp only [State.agentOf, readX_cl, h]
@[simp] theorem readX_userOf (s : State) (n : Nat) : (s.readX n).2.userOf s.cur = s.userOf s.cur := by
  have h := readX_priv s n
  simp only [State.me, readX_cur] at h
  simp only [State.userOf, h]
@[simp] theorem readV_agentOf (s : State) (n : Nat) : (s.readV n).2.agentOf s.cur = s.agentOf s.cur := by
  have h := readV_priv s n
  simp only [State.me, readV_cur] at h
  simp only [State.agentOf, readV_cl, h]
@[simp] theorem readV_userOf (s : State) (n : Nat) : (s.readV n).2.userOf s.cur = s.userOf s.cur := by
  have h := readV_priv s n
  simp only [State.me, readV_cur] at h
  simp only [State.userOf, h]

end Sys2Proof.Machine
end

