-- ==== Sys2Proof/Safety.lean ====
section
/-! DEFINITION. Runs of the machine, and what a safe state is: an agenda that holds only steps of agents at places the device
has; with the terms in which claims are stated. -/
namespace Sys2Proof.Machine

/-- n steps of the machine: the state after them, or the stop met. -/
noncomputable def run : Nat → State → Host.Outcome State Fault Refusal
  | 0, s => .next s
  | n + 1, s => match step s with
    | .next t => run n t
    | o => o

/-- The agenda holds only agents' steps that name places the device has. -/
def State.agendaOk (s : State) : Prop := ∀ i ∈ s.agenda, isAgentStep i = true

/-- The machine goes on from s for ever: no number of steps meets a fault or a refusal. -/
def Safe (s : State) : Prop := ∀ n, ∃ t, run n s = .next t

/-! ## The terms that statements use -/

/-- The checks that every slot shares pass (R99 steps 1 to 3): the level, the scoreboard, the queue registers it pops and pushes. -/
def Ready (i : Instr) (s : State) : Prop := s.issueCheck (shape i).level (shape i).srcs (shape i).dsts = none

/-- Two scalar-domain sources read in order, and the state after their pops (R12). -/
def State.read2 (s : State) (a b : BitVec 6) : W64 × W64 × State :=
  let u := s.readX a.toNat
  let v := u.2.readX b.toNat
  (u.1, v.1, v.2)

/-- Two vector sources read in order, and the state after their pops (R12). -/
def State.read2V (s : State) (a b : BitVec 5) : V2048 × V2048 × State :=
  let u := s.readV a.toNat
  let v := u.2.readV b.toNat
  (u.1, v.1, v.2)

/-- The access r of the issuing context is under way in t: it reaches its memory in a cycle to come, and not before an earlier access of
its context that it meets (R255). -/
def UnderWay (s t : State) (r : MemReq) : Prop :=
  ∃ due, s.myCl.cycle < due ∧ (∀ p ∈ s.me.posted, r.meets p = true → p.due ≤ due) ∧
    t.me.posted = s.me.posted ++ [{ r with ctx := s.cur, bpc := s.issue.bpc, slot := s.issue.slot, due := due, seq := s.me.seq }]

/-- One result of the bundle waits, for the registers ds (R91). -/
def Awaits (s t : State) (ds : List Reg) : Prop :=
  ∃ f, t.me.inflight = s.me.inflight ++ [f] ∧ f.id = s.nextInter ∧ f.seq = s.me.seq ∧ f.val = none ∧
    f.dsts = ds.filter fun r => !r.isFixed

/-- The machine's next step is the turn of the issuing context, and its next bundle is what it turns to: no agent's step is listed, the
context runs, and nothing else is due before the bundle. -/
def State.AtBundle (s : State) : Prop :=
  s.agenda = [] ∧ s.me.live = .run ∧ s.me.killed = false ∧ s.stopDue s.cur = false ∧ s.me.memErrs = [] ∧ s.me.taskFaults = [] ∧
    s.me.cstate ≠ .compensate ∧ s.me.settle = false ∧ s.me.fence = none ∧ (s.me.sqr.step = 0 ∨ s.me.sqr.susp = true) ∧ s.me.lbuf = none

/-- What a step leaves when the issuing context's turn has left t of s: the merge stage's choice, and the next turn. -/
noncomputable def State.turned (s t : State) : State := (s.chosen t).nextTurn

/-- The state in which slot 0 of a bundle of four slots issues: its address and its successor's, and ISSUE of the timelines, noted. -/
def State.atSlot0 (s : State) : State :=
  let c := s.me
  { s.setMe { c with waitLeft := none, cstate := .issue } with
    issue := { bpc := c.pc, next := c.pc + 16, issued := some (tab (fun t => (c.tl t).issue) 8) } }

/-- The four slots of a bundle whose slot 0 is word w, which decodes to i, and whose others are nop. -/
def oneSlot (w : Nat) (i : Instr) : List Slot :=
  [{ ix := 0, w := w, i := i }, { ix := 1, w := 0, i := .nop }, { ix := 2, w := 0, i := .nop }, { ix := 3, w := 2 ^ 31, i := .nop }]

/-- The words of such a bundle. -/
def oneSlotWords (w : Nat) : List Nat := [w, 0, 0, 2 ^ 31]

/-- The instruction that a slot's word names by itself: the rows that share a word are told apart by an operand's value (R348, R361). -/
noncomputable def wordForm : Instr → Instr
  | .kslotInstall d a b => .kslotQuery d a b
  | .kslotZeroise d a b => .kslotQuery d a b
  | .kslotRotate d a b => .kslotQuery d a b
  | .kslotBind d a b => .kslotQuery d a b
  | .segsealPatch a b => .segsealSeal a b
  | i => i

/-- The slots that take effect whenever the checks of R99 steps 1 to 3 pass: no trap and no wait of their own. -/
def takesEffect : Instr → Bool
  | .nop | .yield | .exit | .brk .. | .trap .. | .rdcyc .. | .rdid .. | .add .. | .sub .. | .and .. | .or .. | .xor .. | .andn ..
  | .orn .. | .abd .. | .shl .. | .shr .. | .sar .. | .rol .. | .clz .. | .ctz .. | .popc .. | .brev .. | .mul .. | .mulhs ..
  | .mulhz .. | .divs .. | .divz .. | .rems .. | .remz .. | .mulw .. | .mins .. | .maxs .. | .minz .. | .maxz .. | .bfx .. | .bfi ..
  | .sext .. | .zext .. | .ceq .. | .cne .. | .clts .. | .cles .. | .cltz .. | .clez .. | .ctst .. | .cand .. | .cor .. | .cxor ..
  | .candn .. | .cmov .. | .cget .. | .sel .. | .addi .. | .andi .. | .ori .. | .xori .. | .shli .. | .shri .. | .sari .. | .roli ..
  | .ceqi .. | .cnei .. | .cltsi .. | .clesi .. | .cltzi .. | .clezi .. | .cgtsi .. | .cgtzi .. | .movi .. | .adr .. | .dclean ..
  | .dinv .. | .dflush .. | .isync .. | .fence .. | .pref .. | .br .. | .rpt .. | .faddF32 .. | .fsubF32 .. | .fmulF32 .. | .fdivF32 ..
  | .fsqrtF32 .. | .fminF32 .. | .fmaxF32 .. | .ffmaF32 .. | .faddF64 .. | .fsubF64 .. | .fmulF64 .. | .fdivF64 .. | .fsqrtF64 ..
  | .fminF64 .. | .fmaxF64 .. | .ffmaF64 .. | .feqF32 .. | .fltF32 .. | .fleF32 .. | .funF32 .. | .feqF64 .. | .fltF64 .. | .fleF64 ..
  | .funF64 .. | .fcvtF32S64 .. | .fcvtF64S64 .. | .fcvtS64F32 .. | .fcvtS64F64 .. | .fcvtF64F32 .. | .fcvtF32F64 .. | .fcvtF32Bf16 ..
  | .fcvtBf16F32 .. | .vaddF32 .. | .vsubF32 .. | .vmulF32 .. | .vfmaF32 .. | .vminF32 .. | .vmaxF32 .. | .vfmsF32 .. | .vabsF32 ..
  | .vaddBf16 .. | .vsubBf16 .. | .vmulBf16 .. | .vfmaBf16 .. | .vminBf16 .. | .vmaxBf16 .. | .vfmsBf16 .. | .vabsBf16 .. | .vaddS32 ..
  | .vsubS32 .. | .vmulS32 .. | .vmacS32 .. | .vminsS32 .. | .vmaxsS32 .. | .vminzS32 .. | .vmaxzS32 .. | .vand .. | .vor .. | .vxor ..
  | .vandn .. | .vshl .. | .vshr .. | .vsar .. | .vsel .. | .vrcp .. | .vrsq .. | .vsqrt .. | .vex2 .. | .vlg2 .. | .vdiv ..
  | .vfloor .. | .vround .. | .vceqF32 .. | .vcltF32 .. | .vcleF32 .. | .vcunF32 .. | .vceqS32 .. | .vcltS32 .. | .vcleS32 ..
  | .vcltzS32 .. | .pand .. | .por .. | .pxor .. | .pandn .. | .pnot .. | .pany .. | .pall .. | .pcnt .. | .vrsumF32 .. | .vrmaxF32 ..
  | .vrminF32 .. | .vrsumS32 .. | .vscanF32 .. | .vscanS32 .. | .vtopk .. | .vargmax .. | .vbcast .. | .vperm .. | .vrot ..
  | .vslide .. | .vzip .. | .vunzip .. | .vcompress .. | .vexpand .. | .vcvtF32S32 .. | .vcvtS32F32 .. | .vcvtBf16F32 ..
  | .vcvtF32Bf16l .. | .vcvtF32Bf16h .. | .vcvtF16F32 .. | .vcvtF32F16l .. | .vcvtF32F16h .. | .vkbpack .. | .vkbunpack ..
  | .vkbscale .. | .vmov .. | .vfill .. | .vins .. | .vext .. | .vqpk .. | .vqcnt .. | .vlaneid .. | .qpk .. | .qcnt .. | .qbind ..
  | .qunbind .. | .mstat .. | .oclaim .. | .orelease .. | .ostat .. | .wrstat .. | .wquery .. | .cstat .. | .barv .. | .barset ..
  | .barq .. | .tlrd .. | .tlrdi .. | .tlrdc .. | .tlrdv .. | .tlerr .. | .bwph .. | .tlbinv .. | .rtcinv .. | .rtcsync | .qtry ..
  | .qpush .. | .qcancel .. | .qthaw .. | .eret | .ext .. => true
  | _ => false

end Sys2Proof.Machine
end

