-- ==== Sys2Proof/Certificates/Slice0/Obligations.lean ====
section
/-! DEFINITION. What is to be proved of the model: each statement formalises numbered rules of spec/ or follows from them. -/
section
open Sys2Proof Sys2Proof.Machine

/-! ## Scalar instructions (R114 to R141) -/

/-- R118, R119: D := f A B for the register forms of majors 0x01 to 0x04, landing at the latency of Table 14, or interlocked
(R91). The sources are read in order, a queue register popped. -/
def Obligations.IntegerResults : Prop :=
  ∀ (s s' : State) (x y : W64) (d a b : BitVec 6), s.read2 a b = (x, y, s') →
    (∀ r ∈ ([(Instr.add, 1, fun x y => wrap 64 (x.toInt + y.toInt)), (.sub, 1, fun x y => wrap 64 (x.toInt - y.toInt)),
        (.and, 1, (· &&& ·)), (.or, 1, (· ||| ·)), (.xor, 1, (· ^^^ ·)), (.andn, 1, fun x y => x &&& ~~~y),
        (.orn, 1, fun x y => x ||| ~~~y), (.abd, 1, fun x y => BitVec.ofNat 64 (x.toInt - y.toInt).natAbs),
        (.shl, 1, fun x y => x <<< (y.toNat % 64)), (.shr, 1, fun x y => x >>> (y.toNat % 64)),
        (.sar, 1, fun x y => x.sshiftRight (y.toNat % 64)), (.rol, 1, fun x y => x.rotateLeft (y.toNat % 64)),
        (.mul, 3, fun x y => wrap 64 (x.toInt * y.toInt)), (.mulhs, 4, fun x y => wrap 64 (x.toInt * y.toInt / 2 ^ 64)),
        (.mulhz, 4, fun x y => BitVec.ofNat 64 (x.toNat * y.toNat / 2 ^ 64)),
        (.mulw, 3, fun x y => wrap 64 (sextNat x.toNat 32 * sextNat y.toNat 32)),
        (.mins, 1, fun x y => if x.toInt ≤ y.toInt then x else y), (.maxs, 1, fun x y => if x.toInt ≤ y.toInt then y else x),
        (.minz, 1, fun x y => if x.toNat ≤ y.toNat then x else y), (.maxz, 1, fun x y => if x.toNat ≤ y.toNat then y else x),
        (.bfx, 1, bfx), (.sext, 1, sext64), (.zext, 1, zext64)] :
        List ((BitVec 6 → BitVec 6 → BitVec 6 → Instr) × Nat × (W64 → W64 → W64))),
      Ready (r.1 d a b) s → exec (r.1 d a b) s = .next (s'.fix r.2.1 (.x d.toNat (r.2.2 x y)))) ∧
    (∀ r ∈ ([(Instr.divs, divS), (.divz, divZ), (.rems, remS), (.remz, remZ)] :
        List ((BitVec 6 → BitVec 6 → BitVec 6 → Instr) × (W64 → W64 → W64))),
      Ready (r.1 d a b) s → exec (r.1 d a b) s = .next (s'.inter [.x d.toNat] (some [.x d.toNat (r.2 x y)]))) ∧
    (Ready (.bfi d a b) s → exec (.bfi d a b) s = .next (s'.fix 1 (.x d.toNat (bfi (s.me.getX d.toNat) x y)))) ∧
    (∀ c, Ready (.sel d a b c) s →
      exec (.sel d a b c) s = .next (s'.fix 1 (.x d.toNat (if s.me.getC c.toNat then x else y))))

/-- R37: division and remainder, truncated toward zero, with the corners the rule names; the remainder takes the sign of the dividend, and
no division traps: once the checks that every slot shares have passed, it answers the value and goes on. -/
def Obligations.DivisionRule : Prop :=
  (∀ x y : W64,
    (y ≠ 0 → divS x y = wrap 64 (x.toInt.tdiv y.toInt) ∧ remS x y = x - divS x y * y ∧ remS x y = wrap 64 (x.toInt.tmod y.toInt) ∧
      divZ x y = BitVec.ofNat 64 (x.toNat / y.toNat) ∧ remZ x y = x - divZ x y * y) ∧
    (y ≠ 0 → (remS x y).toInt = 0 ∨ (0 < (remS x y).toInt ↔ 0 < x.toInt)) ∧
    (divS x 0 = BitVec.allOnes 64 ∧ divZ x 0 = BitVec.allOnes 64 ∧ remS x 0 = x ∧ remZ x 0 = x) ∧
    (divS (BitVec.intMin 64) (BitVec.allOnes 64) = BitVec.intMin 64 ∧ remS (BitVec.intMin 64) (BitVec.allOnes 64) = 0)) ∧
  (∀ (s s' : State) (x y : W64) (d a b : BitVec 6), s.read2 a b = (x, y, s') →
    ∀ r ∈ ([(Instr.divs, divS), (.divz, divZ), (.rems, remS), (.remz, remZ)] :
        List ((BitVec 6 → BitVec 6 → BitVec 6 → Instr) × (W64 → W64 → W64))),
      Ready (r.1 d a b) s → ∃ t, exec (r.1 d a b) s = .next t ∧ t.issue = s.issue ∧
        ∃ f, t.me.inflight = s.me.inflight ++ [f] ∧ f.val = some [.x d.toNat (r.2 x y)])

/-- R118, R120, R121: one-source forms, immediate forms (widened by an ext before the slot, R71), moves and identities. -/
def Obligations.ImmediateResults : Prop :=
  ∀ (s s' : State) (x : W64) (d a : BitVec 6), s.readX a.toNat = (x, s') →
    (∀ r ∈ ([(Instr.clz, clz64), (.ctz, ctz64), (.popc, popc64), (.brev, brev64)] :
        List ((BitVec 6 → BitVec 6 → Instr) × (W64 → W64))),
      Ready (r.1 d a) s → exec (r.1 d a) s = .next (s'.fix 1 (.x d.toNat (r.2 x)))) ∧
    (∀ i, ∀ r ∈ ([(Instr.addi, fun x y => wrap 64 (x.toInt + y)), (.andi, fun x y => x &&& wrap 64 y),
        (.ori, fun x y => x ||| wrap 64 y), (.xori, fun x y => x ^^^ wrap 64 y)] :
        List ((BitVec 6 → BitVec 6 → BitVec 9 → Instr) × (W64 → Int → W64))),
      Ready (r.1 d a i) s → exec (r.1 d a i) s = .next (s'.fix 1 (.x d.toNat (r.2 x (s.imm i))))) ∧
    (∀ k, ∀ r ∈ ([(Instr.shli, fun x n => x <<< n), (.shri, fun x n => x >>> n), (.sari, fun x n => x.sshiftRight n),
        (.roli, fun x n => x.rotateLeft n)] : List ((BitVec 6 → BitVec 6 → BitVec 6 → Instr) × (W64 → Nat → W64))),
      Ready (r.1 d a k) s → exec (r.1 d a k) s = .next (s'.fix 1 (.x d.toNat (r.2 x k.toNat)))) ∧
    (∀ i, Ready (.movi d i) s → exec (.movi d i) s = .next (s.fix 1 (.x d.toNat (wrap 64 (s.imm i))))) ∧
    (∀ i, Ready (.adr d i) s → exec (.adr d i) s = .next (s.fix 1 (.x d.toNat (s.issue.bpc + wrap 64 (4 * s.imm i))))) ∧
    (Ready (.rdcyc d) s → exec (.rdcyc d) s = .next (s.fix 1 (.x d.toNat (BitVec.ofNat 64 s.myCl.cycle)))) ∧
    (∀ n, Ready (.rdid d n) s → exec (.rdid d n) s = .next (s.fix 1 (.x d.toNat (s.identity n.toNat)))) ∧
    (∀ c, Ready (.cget d c) s → exec (.cget d c) s = .next (s.fix 1 (.x d.toNat (if s.me.getC c.toNat then 1 else 0))))

/-- R122, R123: compares and condition logic write one condition register, landing 1 cycle on. -/
def Obligations.CompareResults : Prop :=
  ∀ (s s1 s2 : State) (x x' y : W64) (c : BitVec 3) (a b : BitVec 6), s.readX a.toNat = (x', s1) → s.read2 a b = (x, y, s2) →
    (∀ r ∈ ([(Instr.ceq, fun x y => decide (x = y)), (.cne, fun x y => decide (x ≠ y)),
        (.clts, fun x y => decide (x.toInt < y.toInt)), (.cles, fun x y => decide (x.toInt ≤ y.toInt)),
        (.cltz, fun x y => decide (x.toNat < y.toNat)), (.clez, fun x y => decide (x.toNat ≤ y.toNat)),
        (.ctst, fun x y => decide (x &&& y ≠ 0))] : List ((BitVec 3 → BitVec 6 → BitVec 6 → Instr) × (W64 → W64 → Bool))),
      Ready (r.1 c a b) s → exec (r.1 c a b) s = .next (s2.fix 1 (.c c.toNat (r.2 x y)))) ∧
    (∀ i, ∀ r ∈ ([(Instr.ceqi, fun x y => decide (x = y)), (.cnei, fun x y => decide (x ≠ y)),
        (.cltsi, fun x y => decide (x.toInt < y.toInt)), (.clesi, fun x y => decide (x.toInt ≤ y.toInt)),
        (.cltzi, fun x y => decide (x.toNat < y.toNat)), (.clezi, fun x y => decide (x.toNat ≤ y.toNat)),
        (.cgtsi, fun x y => decide (y.toInt < x.toInt)), (.cgtzi, fun x y => decide (y.toNat < x.toNat))] :
        List ((BitVec 3 → BitVec 6 → BitVec 9 → Instr) × (W64 → W64 → Bool))),
      Ready (r.1 c a i) s → exec (r.1 c a i) s = .next (s1.fix 1 (.c c.toNat (r.2 x' (wrap 64 (s.imm i)))))) ∧
    (∀ p q, ∀ r ∈ ([(Instr.cand, (· && ·)), (.cor, (· || ·)), (.cxor, (· ^^ ·)), (.candn, fun u v => u && !v)] :
        List ((BitVec 3 → BitVec 3 → BitVec 3 → Instr) × (Bool → Bool → Bool))),
      Ready (r.1 c p q) s → exec (r.1 c p q) s = .next (s.fix 1 (.c c.toNat (r.2 (s.me.getC p.toNat) (s.me.getC q.toNat))))) ∧
    (Ready (.cmov c a) s → exec (.cmov c a) s = .next (s1.fix 1 (.c c.toNat (decide (x' ≠ 0)))))

/-- R138 to R141: scalar floating point, rounded as FCTL.RM says; results land 4 cycles on with their flags, division and square
root are interlocked (R91). -/
def Obligations.ScalarFpResults : Prop :=
  ∀ (s s1 s2 : State) (x x' y : W64) (d a b : BitVec 6), s.readX a.toNat = (x', s1) → s.read2 a b = (x, y, s2) →
    (∀ r ∈ ([(Instr.faddF32, f32, fAdd), (.fsubF32, f32, fSub), (.fmulF32, f32, fMul), (.fminF32, f32, fun t _ => fMinMax t false),
        (.fmaxF32, f32, fun t _ => fMinMax t true), (.faddF64, f64, fAdd), (.fsubF64, f64, fSub), (.fmulF64, f64, fMul),
        (.fminF64, f64, fun t _ => fMinMax t false), (.fmaxF64, f64, fun t _ => fMinMax t true)] :
        List ((BitVec 6 → BitVec 6 → BitVec 6 → Instr) × FFmt × (FFmt → RMode → Nat → Nat → Nat × Flags))),
      Ready (r.1 d a b) s →
        let v := r.2.2 r.2.1 s.rm (x.toNat % 2 ^ r.2.1.width) (y.toNat % 2 ^ r.2.1.width)
        exec (r.1 d a b) s = .next (s2.fix 4 (.x d.toNat (BitVec.ofNat 64 v.1)) v.2)) ∧
    (∀ r ∈ ([(Instr.ffmaF32, f32), (.ffmaF64, f64)] : List ((BitVec 6 → BitVec 6 → BitVec 6 → Instr) × FFmt)),
      Ready (r.1 d a b) s →
        let v := fFma r.2 s.rm (x.toNat % 2 ^ r.2.width) (y.toNat % 2 ^ r.2.width) ((s.me.getX d.toNat).toNat % 2 ^ r.2.width)
        exec (r.1 d a b) s = .next (s2.fix 4 (.x d.toNat (BitVec.ofNat 64 v.1)) v.2)) ∧
    (∀ r ∈ ([(Instr.fdivF32, f32), (.fdivF64, f64)] : List ((BitVec 6 → BitVec 6 → BitVec 6 → Instr) × FFmt)),
      Ready (r.1 d a b) s →
        let v := fDiv r.2 s.rm (x.toNat % 2 ^ r.2.width) (y.toNat % 2 ^ r.2.width)
        exec (r.1 d a b) s = .next (s2.inter [.x d.toNat] (some [.x d.toNat (BitVec.ofNat 64 v.1)]) v.2)) ∧
    (∀ r ∈ ([(Instr.fsqrtF32, f32), (.fsqrtF64, f64)] : List ((BitVec 6 → BitVec 6 → Instr) × FFmt)),
      Ready (r.1 d a) s →
        let v := fSqrt r.2 s.rm (x'.toNat % 2 ^ r.2.width)
        exec (r.1 d a) s = .next (s1.inter [.x d.toNat] (some [.x d.toNat (BitVec.ofNat 64 v.1)]) v.2)) ∧
    (∀ c, ∀ r ∈ ([(Instr.feqF32, f32, .eq), (.fltF32, f32, .lt), (.fleF32, f32, .le), (.funF32, f32, .un), (.feqF64, f64, .eq),
        (.fltF64, f64, .lt), (.fleF64, f64, .le), (.funF64, f64, .un)] :
        List ((BitVec 3 → BitVec 6 → BitVec 6 → Instr) × FFmt × FCmp)),
      Ready (r.1 c a b) s →
        let v := fCmp r.2.1 r.2.2 (x.toNat % 2 ^ r.2.1.width) (y.toNat % 2 ^ r.2.1.width)
        exec (r.1 c a b) s = .next (s2.fix 4 (.c c.toNat v.1) v.2)) ∧
    (∀ r ∈ ([(Instr.fcvtF32S64, fun m x => fOfInt f32 m x.toInt), (.fcvtF64S64, fun m x => fOfInt f64 m x.toInt),
        (.fcvtF64F32, fun m x => fCvt f32 f64 m (x.toNat % 2 ^ 32)), (.fcvtF32F64, fun m x => fCvt f64 f32 m (x.toNat % 2 ^ 64)),
        (.fcvtF32Bf16, fun m x => fCvt bf16 f32 m (x.toNat % 2 ^ 16)), (.fcvtBf16F32, fun m x => fCvt f32 bf16 m (x.toNat % 2 ^ 32))] :
        List ((BitVec 6 → BitVec 6 → Instr) × (RMode → W64 → Nat × Flags))),
      Ready (r.1 d a) s → exec (r.1 d a) s = .next (s1.fix 4 (.x d.toNat (BitVec.ofNat 64 (r.2 s.rm x').1)) (r.2 s.rm x').2)) ∧
    (∀ r ∈ ([(Instr.fcvtS64F32, f32), (.fcvtS64F64, f64)] : List ((BitVec 6 → BitVec 6 → Instr) × FFmt)),
      Ready (r.1 d a) s →
        let v := fToInt r.2 s.rm 64 (x'.toNat % 2 ^ r.2.width)
        exec (r.1 d a) s = .next (s1.fix 4 (.x d.toNat (wrap 64 v.1)) v.2))

/-- R125 to R127, R103, R268: a scalar load whose address passes its checks is under way, and D waits for it; it is held in BLOCK where its line
must come and every miss buffer is busy. Performed, it gives D the bytes it reads, widened; where a word fails, D is not written and MEMERR
is due. A post-increment steps the base register (R70).
The cycle in which an access is performed is free (log 60), and that the L1 keeps no line of which a word fails is the model's choice
(log 48). -/
def Obligations.LoadResults : Prop :=
  ∀ (s : State) (z : BitVec 3) (pa : Nat),
    (∀ d r u o, Ready (.ld d r u z o) s →
      let base := s.areg r.toNat
      let n := s.imm o * szBytes z.toNat
      let va := fmAddr u base n
      let s' := s.noteTlb s.clNo (s.agentOf s.cur) false va.toNat
      s.access va (szBytes z.toNat) .read = .ok pa →
        (s'.missFull s'.clNo (s'.missing s'.clNo pa) = true → exec (.ld d r u z o) s = s'.hold .block) ∧
        (s'.missFull s'.clNo (s'.missing s'.clNo pa) = false → ∃ t, exec (.ld d r u z o) s = .next t ∧
          UnderWay s t { pa := pa, va := va, op := .load z.toNat, id := s.nextInter, dst := d.toNat } ∧ Awaits s t [.x d.toNat] ∧
          t.me.pending = (s.bump u r.toNat base n).me.pending ∧ t.mem = s.mem)) ∧
    (∀ d a b x y s1, Ready (.ldx d a b z) s → s.read2 a b = (x, y, s1) →
      let va := wrap 64 (x.toInt + y.toInt * szBytes z.toNat)
      let s' := s1.noteTlb s1.clNo (s1.agentOf s1.cur) false va.toNat
      s1.access va (szBytes z.toNat) .read = .ok pa →
        (s'.missFull s'.clNo (s'.missing s'.clNo pa) = true → exec (.ldx d a b z) s = s'.hold .block) ∧
        (s'.missFull s'.clNo (s'.missing s'.clNo pa) = false → ∃ t, exec (.ldx d a b z) s = .next t ∧
          UnderWay s1 t { pa := pa, va := va, op := .load z.toNat, id := s.nextInter, dst := d.toNat } ∧ Awaits s t [.x d.toNat] ∧
          t.me.pending = s.me.pending ∧ t.mem = s.mem)) ∧
    (∀ r : MemReq, r.op = .load z.toNat → s.atBankOf (r.ctx / 4) r.pa = false → s.missing (r.ctx / 4) r.pa = none →
      (∀ v t, s.loadVia (r.ctx / 4) r.pa (szBytes z.toNat) = (some v, t) →
        s.perform1 r = some (t.answer r.ctx r.id [.x r.dst (widen z.toNat v)])) ∧
      (∀ t, s.loadVia (r.ctx / 4) r.pa (szBytes z.toNat) = (none, t) → s.perform1 r = some ((t.dropInter r.ctx r.id).memErr r))) ∧
    (∀ r : MemReq, s.atBankOf (r.ctx / 4) r.pa = true → s.perform1 r = some (s.sendPig r)) ∧
    (∀ g r t, (s.ctx g).posted = [r] → r.due ≤ (s.cl (g / 4)).cycle → s.perform1 r = some t →
      s.performDue g = t.setCtx g { t.ctx g with posted := [] })

/-- R125 to R128, R268: a scalar store whose address passes its checks is under way with the value of D; it is held in BLOCK where its
line must come and every miss buffer is busy. The source is read before the base. Performed, it writes the low bytes of its value.
The cycle in which an access is performed is free (log 60), and that the L1 keeps no line of which a word fails is the model's choice
(log 48). -/
def Obligations.StoreResults : Prop :=
  (∀ (s s1 : State) (x : W64) (d : BitVec 6) (r : BitVec 4) (u : BitVec 1) (z : BitVec 3) (o : BitVec 7) (pa : Nat),
    Ready (.st d r u z o) s → s.readX d.toNat = (x, s1) →
    let base := s.areg r.toNat
    let n := s.imm o * szBytes z.toNat
    let va := fmAddr u base n
    let s' := s1.noteTlb s.clNo (s.agentOf s.cur) false va.toNat
    s1.access va (szBytes z.toNat) .write = .ok pa →
      (s'.missFull s'.clNo (s'.missing s'.clNo pa) = true → exec (.st d r u z o) s = s'.hold .block) ∧
      (s'.missFull s'.clNo (s'.missing s'.clNo pa) = false → ∃ t, exec (.st d r u z o) s = .next t ∧
        UnderWay s1 t { pa := pa, va := va, op := .store (szBytes z.toNat), arg := x, id := s.nextInter } ∧
        t.me.inflight = s.me.inflight ∧ t.me.pending = (s.bump u r.toNat base n).me.pending ∧ t.mem = s.mem)) ∧
  (∀ (s : State) (r : MemReq) (n : Nat), r.op = .store n → s.atBankOf (r.ctx / 4) r.pa = false → s.missing (r.ctx / 4) r.pa = none →
    s.perform1 r = some (s.storeVia (r.ctx / 4) r.pa n r.arg.toNat))

/-- R126, R19, R101: an address that is not a multiple of the size traps ALIGN; one of the local-store window outside the
cluster's bounds traps LSBOUND; one of 2^48 or above traps XLATE with reason 1. For ld, st and ldx, before any effect but the pops of
their sources. -/
def Obligations.AddressTraps : Prop :=
  let stops (s : State) (va : W64) (n : Nat) : Option Trap :=
    if va.toNat % n ≠ 0 then some (alignTrap va n)
    else if va.toNat < lsTop then (if s.myCl.lsOk va.toNat n then none else some (lsboundTrap va))
    else if 2 ^ 48 ≤ va.toNat then some (xlateTrap va 1 3) else none
  (∀ (s : State) (d : BitVec 6) (r : BitVec 4) (u : BitVec 1) (z : BitVec 3) (o : BitVec 7) (w : Trap),
    stops s (fmAddr u (s.areg r.toNat) (s.imm o * szBytes z.toNat)) (szBytes z.toNat) = some w →
      (Ready (.ld d r u z o) s → exec (.ld d r u z o) s = s.trapNow w) ∧
      (Ready (.st d r u z o) s → exec (.st d r u z o) s = (s.readX d.toNat).2.trapNow w)) ∧
  (∀ (s s' : State) (x y : W64) (d a b : BitVec 6) (z : BitVec 3) (w : Trap), s.read2 a b = (x, y, s') →
    stops s (x + BitVec.ofNat 64 (y.toNat * szBytes z.toNat)) (szBytes z.toNat) = some w →
      Ready (.ldx d a b z) s → exec (.ldx d a b z) s = s'.trapNow w)

/-- R129 to R132, R256: cache maintenance over the lines of a range, once the context's stores are performed, isync, fence and the
hint pref. A pending fence holds its context in BLOCK while its scope is not met, and when it is met every load of the context has
returned its data, its other accesses are performed, those to pigeonhole banks at site and panel scope only.
That a fence of cluster scope waits for the loads of pigeonhole banks is the model's choice (log 89). -/
def Obligations.CacheResults : Prop :=
  (∀ (s : State) (sc : Nat), s.me.fence = some sc → s.me.killed = false → s.me.cstate ≠ .compensate → s.stopDue s.cur = false →
    s.me.memErrs = [] → s.me.taskFaults = [] → s.me.settle = false → s.fenceDone s.cur sc = false →
      s.advanceCtx = .next ((s.setMe s.me).spend .block) ∧ ((s.setMe s.me).spend .block).me.fence = some sc ∧
      ((s.setMe s.me).spend .block).me.pc = s.me.pc ∧ ((s.setMe s.me).spend .block).me.seq = s.me.seq ∧
      ((s.setMe s.me).spend .block).mem = s.mem) ∧
  (∀ (s : State) (g sc : Nat), s.fenceDone g sc = true →
    (∀ r ∈ (s.ctx g).posted, s.atBankOf (g / 4) r.pa = true ∧ (sc = 0 ∨ r.seq = (s.ctx g).seq) ∧ (sc = 0 → r.op.loads = false)) ∧
    (∀ r ∈ (s.site (siteOf (g / 4))).pigQueue, r.ctx = g → (sc = 0 → r.op.loads = false) ∧ (sc ≠ 0 → r.seq = (s.ctx g).seq))) ∧
  ∀ (s s' : State) (x y : W64) (a b : BitVec 6), s.read2 a b = (x, y, s') →
    let u := s'.drainL1
    let lines := u.linesOf u.clNo (u.agentOf u.cur) x.toNat y.toNat
    (Ready (.dclean a b) s → exec (.dclean a b) s = .next (lines.foldl (fun t l => t.l1Clean t.clNo l.1) u)) ∧
    (Ready (.dflush a b) s → exec (.dflush a b) s = .next (lines.foldl (fun t l => t.l1Flush t.clNo l.1) u)) ∧
    (Ready (.dinv a b) s → exec (.dinv a b) s =
      .next (lines.foldl (fun t l => if l.2 then t.l1Drop t.clNo l.1 else t.l1Flush t.clNo l.1) u)) ∧
    (Ready (.isync a b) s → ∃ t, exec (.isync a b) s = .next t ∧ t.mem = s.mem ∧
      (∀ k, (x.toNat < min (x.toNat + y.toNat) (2 ^ 48) ∧ k * 256 < min (x.toNat + y.toNat) (2 ^ 48) ∧ x.toNat < k * 256 + 256) →
        (∀ e ∈ t.myCl.icache, e.blk ≠ k) ∧ (∀ e, t.me.fetchBuf = some e → e.1 ≠ k)) ∧
      (y = 0 → t.myCl.icache = s.myCl.icache ∧ t.me.fetchBuf = s.me.fetchBuf)) ∧
    (Ready (.fence a) s → ∃ t, exec (.fence a) s = .next t ∧ t.me.fence = some (max a.toNat (s.me.fence.getD 0)) ∧ t.mem = s.mem) ∧
    (Ready (.pref a) s → ∃ t, exec (.pref a) s = .next t ∧ t.mem = s.mem ∧ t.issue = s.issue ∧
      (∀ pa line, lsTop ≤ x.toNat → (s.readX a.toNat).2.translate s.clNo (s.agentOf s.cur) false (s.userOf s.cur) x .read = .ok pa →
        s.l1Line s.clNo pa = some line → (s.myCl.l1Find line).isNone → s.myCl.l1Miss.length < 16 → line ∈ t.myCl.l1Miss))

/-- R133 to R135, R98, R310: control transfers. A call pushes the address of the next bundle; ret pops an address, or the mark that
ends a part; bru falls through where no active lane's bit is set, transfers where all are, and else traps NONUNIFORM with the lanes
set; a register target that is misaligned or of 2^48 or above traps. -/
def Obligations.TransferResults : Prop :=
  ∀ (s s' : State) (x : W64) (a : BitVec 6), s.readX a.toNat = (x, s') →
    (∀ i, Ready (.br i) s → exec (.br i) s = .next (s.transfer (s.issue.bpc + wrap 64 (4 * s.imm i)))) ∧
    (∀ i t, Ready (.call i) s → s.pushRet (.addr s.issue.next) = .ok t →
      exec (.call i) s = .next (t.transfer (s.issue.bpc + wrap 64 (4 * s.imm i)))) ∧
    (∀ e t, Ready .ret s → s.popRet = .ok (.addr e, t) → exec .ret s = .next (t.transfer e)) ∧
    (∀ t, Ready .ret s → s.popRet = .ok (.mark, t) → exec .ret s = .next { t with issue := { t.issue with partEnd := true } }) ∧
    (Ready (.jr a) s → x.toNat % 4 = 0 → x.toNat < 2 ^ 48 → exec (.jr a) s = .next (s'.transfer x)) ∧
    (Ready (.callr a) s → x.toNat % 4 = 0 → x.toNat < 2 ^ 48 → ∀ t, s'.pushRet (.addr s'.issue.next) = .ok t →
      exec (.callr a) s = .next (t.transfer x)) ∧
    (∀ i ∈ [Instr.jr a, .callr a], Ready i s →
      (x.toNat % 4 ≠ 0 → exec i s = s'.trapNow (alignTrap x 4)) ∧
      (x.toNat % 4 = 0 → 2 ^ 48 ≤ x.toNat → exec i s = s'.trapNow (xlateTrap x 1 3))) ∧
    (∀ p q, Ready (.bru p a q) s →
      let act := s.me.getP p.toNat
      let t := s.me.getP q.toNat &&& act
      (t = 0 → exec (.bru p a q) s = .next s') ∧
      (t ≠ 0 → t = act → x.toNat % 4 = 0 → x.toNat < 2 ^ 48 → exec (.bru p a q) s = .next (s'.transfer x)) ∧
      (t ≠ 0 → t = act → x.toNat % 4 ≠ 0 → exec (.bru p a q) s = s'.trapNow (alignTrap x 4)) ∧
      (t ≠ 0 → t = act → x.toNat % 4 = 0 → 2 ^ 48 ≤ x.toNat → exec (.bru p a q) s = s'.trapNow (xlateTrap x 1 3)) ∧
      (t ≠ 0 → t ≠ act → exec (.bru p a q) s = s'.trapNow { cause := 0x0A, addr := t }))

/-- R65, R96, R97, R116, R117, R136, R137: the loop buffer, repeat, ext, and the slots that do nothing, yield, end or trap the
context after its bundle. -/
def Obligations.BundleControlResults : Prop :=
  ∀ (s s' : State) (x : W64) (a : BitVec 6), s.readX a.toNat = (x, s') →
    (exec .nop s = .next s) ∧
    (∀ h, exec (.ext h) s = .next { s with issue := { s.issue with ext := some h } }) ∧
    (∀ n, Ready (.lbuf n a) s → (∀ l, s.me.lbuf = some l → l.suspended = false) → ∃ t, exec (.lbuf n a) s = .next t ∧
      t.me.lbuf = some { body := s.issue.next, len := n.toNat + 1, pos := 0, left := x.toNat }) ∧
    (∀ n l, Ready (.lbuf n a) s → s.me.lbuf = some l → l.suspended = true →
      exec (.lbuf n a) s = s.trapNow { cause := 0x01, reason := 2 }) ∧
    (∀ n p q i j, Ready (.rpt n p q i j) s → ∃ t, exec (.rpt n p q i j) s = .next t ∧
      t.issue.rpt = some (n.toNat + 1, p.toNat, q.toNat, incOf i, incOf j) ∧
      t.me.pending = ((s.fix 1 (.x (32 + p.toNat) (s.areg p.toNat + wrap 64 ((n.toNat + 1) * incOf i)))).fix 1
        (.x (32 + q.toNat) (s.areg q.toNat + wrap 64 ((n.toNat + 1) * incOf j)))).me.pending) ∧
    (Ready .yield s → ∃ t, exec .yield s = .next t ∧ t.me.yielded = true) ∧
    (Ready .exit s → ∃ t, exec .exit s = .next t ∧ t.me.live = .exiting ∧ t.me.taskFaults = []) ∧
    (∀ n, Ready (.brk n) s → exec (.brk n) s = .next (s.trapEntry s.cur
      { cause := 0x13, reason := n.toNat, slot := s.issue.slot } s.me.pc (s.peekWait s.cur s.me.pc))) ∧
    (∀ n, Ready (.trap n) s → exec (.trap n) s = .next (s.trapEntry s.cur
      { cause := 0x14, reason := n.toNat, slot := s.issue.slot } s.me.pc (s.peekWait s.cur s.me.pc)))

/-! ## Vector instructions (R142 to R169) -/

/-- R142 to R147, R156, R159: lane by lane forms of two sources. Active lanes of D receive f of the lanes of A and B, the others
keep what D held (0 for a queue register, R143); flags of the active lanes go to VFLAGS. -/
def Obligations.VectorTwoSourceResults : Prop :=
  ∀ (s s' : State) (x y : V2048) (d a b : BitVec 5) (p : BitVec 3), s.read2V a b = (x, y, s') →
    ∀ r ∈ ([(Instr.vaddF32, 4, op32 fAdd), (.vsubF32, 4, op32 fSub), (.vmulF32, 4, op32 fMul),
        (.vminF32, 4, op32 fun t _ => fMinMax t false), (.vmaxF32, 4, op32 fun t _ => fMinMax t true),
        (.vaddBf16, 4, opB16 fAdd), (.vsubBf16, 4, opB16 fSub), (.vmulBf16, 4, opB16 fMul),
        (.vminBf16, 4, opB16 fun t _ => fMinMax t false), (.vmaxBf16, 4, opB16 fun t _ => fMinMax t true),
        (.vaddS32, 2, fun u v => (wrap 32 (u.toInt + v.toInt), 0)), (.vsubS32, 2, fun u v => (wrap 32 (u.toInt - v.toInt), 0)),
        (.vmulS32, 2, fun u v => (wrap 32 (u.toInt * v.toInt), 0)),
        (.vminsS32, 2, fun u v => (if u.toInt ≤ v.toInt then u else v, 0)),
        (.vmaxsS32, 2, fun u v => (if u.toInt ≤ v.toInt then v else u, 0)),
        (.vminzS32, 2, fun u v => (if u.toNat ≤ v.toNat then u else v, 0)),
        (.vmaxzS32, 2, fun u v => (if u.toNat ≤ v.toNat then v else u, 0)),
        (.vand, 2, fun u v => (u &&& v, 0)), (.vor, 2, fun u v => (u ||| v, 0)), (.vxor, 2, fun u v => (u ^^^ v, 0)),
        (.vandn, 2, fun u v => (u &&& ~~~v, 0)), (.vshl, 2, fun u v => (u <<< (v.toNat % 32), 0)),
        (.vshr, 2, fun u v => (u >>> (v.toNat % 32), 0)), (.vsar, 2, fun u v => (u.sshiftRight (v.toNat % 32), 0)),
        (.vdiv, 8, op32 fDiv), (.vcvtBf16F32, 3, narrow2 bf16), (.vcvtF16F32, 3, narrow2 f16)] :
        List ((BitVec 5 → BitVec 5 → BitVec 5 → BitVec 3 → Instr) × Nat × (W32 → W32 → W32 × Flags))),
      Ready (r.1 d a b p) s → exec (r.1 d a b p) s =
        .next (s'.fix r.2.1 (.v d.toNat (lanes (s.me.getP p.toNat) (s.oldV d.toNat) fun i => (r.2.2 (lane x i) (lane y i)).1))
          (laneFlags (s.me.getP p.toNat) fun i => (r.2.2 (lane x i) (lane y i)).2) true)

/-- R144 to R148, R156, R159: lane by lane forms of one source, and those whose third source is D. -/
def Obligations.VectorOneAndThreeSourceResults : Prop :=
  ∀ (s s1 s2 : State) (x x' y : V2048) (d a b : BitVec 5) (p : BitVec 3), s.readV a.toNat = (x', s1) → s.read2V a b = (x, y, s2) →
    (∀ r ∈ ([(Instr.vabsF32, 4, fun u => (BitVec.ofNat 32 (fAbs f32 u.toNat), 0)),
        (.vabsBf16, 4, fun u => pair16 (fAbs bf16 (lo16 u), 0) (fAbs bf16 (hi16 u), 0)),
        (.vrcp, 8, fun u => l32 (fRcp u.toNat)), (.vrsq, 8, fun u => l32 (fRsq u.toNat)),
        (.vsqrt, 8, fun u => l32 (fSqrt f32 .rne u.toNat)), (.vex2, 8, fun u => l32 (fEx2 u.toNat)),
        (.vlg2, 8, fun u => l32 (fLg2 u.toNat)), (.vfloor, 8, fun u => l32 (fIntegral .rd u.toNat)),
        (.vround, 8, fun u => l32 (fIntegral .rne u.toNat)),
        (.vcvtF32S32, 3, fun u => l32 (fOfInt f32 .rne u.toInt)),
        (.vcvtS32F32, 3, fun u => (wrap 32 (fToInt f32 .rne 32 u.toNat).1, (fToInt f32 .rne 32 u.toNat).2)),
        (.vcvtF32Bf16l, 3, fun u => l32 (fCvt bf16 f32 .rne (u.toNat % 2 ^ 16))),
        (.vcvtF32Bf16h, 3, fun u => l32 (fCvt bf16 f32 .rne (u.toNat / 2 ^ 16))),
        (.vcvtF32F16l, 3, fun u => l32 (fCvt f16 f32 .rne (u.toNat % 2 ^ 16))),
        (.vcvtF32F16h, 3, fun u => l32 (fCvt f16 f32 .rne (u.toNat / 2 ^ 16))), (.vmov, 2, fun u => (u, 0))] :
        List ((BitVec 5 → BitVec 5 → BitVec 3 → Instr) × Nat × (W32 → W32 × Flags))),
      Ready (r.1 d a p) s → exec (r.1 d a p) s =
        .next (s1.fix r.2.1 (.v d.toNat (lanes (s.me.getP p.toNat) (s.oldV d.toNat) fun i => (r.2.2 (lane x' i)).1))
          (laneFlags (s.me.getP p.toNat) fun i => (r.2.2 (lane x' i)).2) true)) ∧
    (∀ r ∈ ([(Instr.vfmaF32, 4, tri32 fFma), (.vfmsF32, 4, tri32 fFms), (.vfmaBf16, 4, triB16 fFma), (.vfmsBf16, 4, triB16 fFms),
        (.vmacS32, 2, fun o u v => (wrap 32 (o.toInt + u.toInt * v.toInt), 0))] :
        List ((BitVec 5 → BitVec 5 → BitVec 5 → BitVec 3 → Instr) × Nat × (W32 → W32 → W32 → W32 × Flags))),
      Ready (r.1 d a b p) s →
        let f (i : Nat) := r.2.2 (lane (s.oldV d.toNat) i) (lane x i) (lane y i)
        exec (r.1 d a b p) s =
          .next (s2.fix r.2.1 (.v d.toNat (lanes (s.me.getP p.toNat) (s.oldV d.toNat) fun i => (f i).1))
            (laneFlags (s.me.getP p.toNat) fun i => (f i).2) true))

/-- R147, R149, R150: vsel, the vector compares, and the predicate operations. -/
def Obligations.VectorPredicateResults : Prop :=
  ∀ (s s2 : State) (x y : V2048) (a b : BitVec 5) (p d m n : BitVec 3) (e : BitVec 5), s.read2V a b = (x, y, s2) →
    let act := s.me.getP p.toNat
    let u := s.me.getP m.toNat
    let v := s.me.getP n.toNat
    (Ready (.vsel e a b p) s → exec (.vsel e a b p) s = .next (s2.fix 2 (.v e.toNat (lanes act y fun i => lane x i)))) ∧
    (∀ r ∈ ([(Instr.vceqF32, fun u v => fCmp f32 .eq u.toNat v.toNat), (.vcltF32, fun u v => fCmp f32 .lt u.toNat v.toNat),
        (.vcleF32, fun u v => fCmp f32 .le u.toNat v.toNat), (.vcunF32, fun u v => fCmp f32 .un u.toNat v.toNat),
        (.vceqS32, fun u v => (decide (u = v), 0)), (.vcltS32, fun u v => (decide (u.toInt < v.toInt), 0)),
        (.vcleS32, fun u v => (decide (u.toInt ≤ v.toInt), 0)), (.vcltzS32, fun u v => (decide (u.toNat < v.toNat), 0))] :
        List ((BitVec 3 → BitVec 5 → BitVec 5 → BitVec 3 → Instr) × (W32 → W32 → Bool × Flags))),
      Ready (r.1 d a b p) s → exec (r.1 d a b p) s =
        .next (s2.fix 2 (.p d.toNat (BitVec.ofNat 64 (ofBits (fun i =>
            if pbit act i then (r.2 (lane x i) (lane y i)).1 else pbit (s.me.getP d.toNat) i) 64)))
          (laneFlags act fun i => (r.2 (lane x i) (lane y i)).2) true)) ∧
    (∀ r ∈ ([(Instr.pand, (· &&& ·)), (.por, (· ||| ·)), (.pxor, (· ^^^ ·)), (.pandn, fun u v => u &&& ~~~v)] :
        List ((BitVec 3 → BitVec 3 → BitVec 3 → Instr) × (W64 → W64 → W64))),
      Ready (r.1 d m n) s → exec (r.1 d m n) s = .next (s.fix 2 (.p d.toNat (r.2 u v)))) ∧
    (Ready (.pnot d m) s → exec (.pnot d m) s = .next (s.fix 2 (.p d.toNat (~~~u)))) ∧
    (Ready (.pany d m n) s → exec (.pany d m n) s = .next (s.fix 2 (.c d.toNat (decide (u &&& v ≠ 0))))) ∧
    (Ready (.pall d m n) s → exec (.pall d m n) s = .next (s.fix 2 (.c d.toNat (decide (u &&& v = v))))) ∧
    (Ready (.pcnt e m n) s → exec (.pcnt e m n) s = .next (s.fix 2 (.x e.toNat (BitVec.ofNat 64 (popc (u &&& v).toNat 64)))))

/-- R48 to R50, R151 to R154: reductions (nothing changes with no active lane), scans, vtopk and vargmax. -/
def Obligations.VectorReduceResults : Prop :=
  ∀ (s s1 : State) (x : V2048) (d a : BitVec 5) (p : BitVec 3), s.readV a.toNat = (x, s1) →
    let act := s.me.getP p.toNat
    let old := s.oldV d.toNat
    (∀ r ∈ ([(Instr.vrsumF32, sumF32), (.vrmaxF32, minMaxF32 true), (.vrminF32, minMaxF32 false),
        (.vrsumS32, fun p x => (sumS32 p x, 0))] :
        List ((BitVec 5 → BitVec 5 → BitVec 3 → Instr) × (W64 → V2048 → Nat × Flags))),
      Ready (r.1 d a p) s → exec (r.1 d a p) s =
        .next (s1.fix 6 (.v d.toNat (lanes act old fun _ => BitVec.ofNat 32 (r.2 act x).1)) (if act = 0 then 0 else (r.2 act x).2) true)) ∧
    (∀ r ∈ ([(Instr.vscanF32, fAdd f32 .rne, negZero), (.vscanS32, fun u v => ((u + v) % 2 ^ 32, 0), 0)] :
        List ((BitVec 5 → BitVec 5 → BitVec 3 → Instr) × (Nat → Nat → Nat × Flags) × Nat)),
      Ready (r.1 d a p) s →
        let v := scanFrom r.2.1 r.2.2 (tab (fun i => if pbit act i then (lane x i).toNat else r.2.2) 64)
        exec (r.1 d a p) s = .next (s1.fix 6 (.v d.toNat (lanes act old fun i => BitVec.ofNat 32 (v.1.getD i 0))) v.2 true)) ∧
    (∀ k, Ready (.vtopk d a k p) s → ∃ v, exec (.vtopk d a k p) s = .next (s1.fix 8 (.v d.toNat (vecOf v)) (snanFlag act x) true) ∧
      (∀ i < k.toNat, v i = (((topOrder act x)[i]?).map fun c => BitVec.ofNat 32 c.1).getD 0xFF800000) ∧
      (k.toNat ≤ 8 → ∀ i < k.toNat, v (8 + i) = (((topOrder act x)[i]?).map fun c => BitVec.ofNat 32 c.2).getD 0xFFFFFFFF) ∧
      (∀ i, k.toNat ≤ i → ¬ (8 ≤ i ∧ i < 8 + k.toNat) → v i = lane old i)) ∧
    (Ready (.vargmax d a p) s → ∃ v, exec (.vargmax d a p) s = .next (s1.fix 6 (.v d.toNat (vecOf v)) (snanFlag act x) true) ∧
      v 0 = ((topOrder act x).head?.map fun c => BitVec.ofNat 32 c.1).getD 0x7FC00000 ∧
      v 1 = ((topOrder act x).head?.map fun c => BitVec.ofNat 32 c.2).getD 0xFFFFFFFF ∧ ∀ i, 2 ≤ i → v i = lane old i)

/-- R155, R157, R158: permutes, compress and expand, and the KB-n conversions. -/
def Obligations.VectorPermuteResults : Prop :=
  ∀ (s s1 s2 : State) (x x' y : V2048) (d a b : BitVec 5) (p : BitVec 3), s.readV a.toNat = (x', s1) → s.read2V a b = (x, y, s2) →
    let act := s.me.getP p.toNat
    let old := s.oldV d.toNat
    (∀ r ∈ ([(Instr.vbcast, fun x y _ => lane x ((lane y 0).toNat % 64)), (.vperm, fun x y i => lane x ((lane y i).toNat % 64)),
        (.vrot, fun x y i => lane x ((i + (lane y 0).toNat % 64) % 64)),
        (.vslide, fun x y i => if i ≤ 62 then lane x (i + 1) else lane y 0),
        (.vzip, fun x y i => if i % 2 = 0 then lane x (i / 2) else lane y (i / 2)),
        (.vunzip, fun x y i => if i ≤ 31 then lane x (2 * i) else lane y (2 * i - 64))] :
        List ((BitVec 5 → BitVec 5 → BitVec 5 → BitVec 3 → Instr) × (V2048 → V2048 → Nat → W32))),
      Ready (r.1 d a b p) s → exec (r.1 d a b p) s = .next (s2.fix 3 (.v d.toNat (lanes act old (r.2 x y))))) ∧
    (Ready (.vcompress d a p) s → exec (.vcompress d a p) s = .next (s1.fix 3 (.v d.toNat (vecOf fun j =>
      (((selected act)[j]?).map fun i => lane x' i).getD (lane old j))))) ∧
    (Ready (.vexpand d a p) s → exec (.vexpand d a p) s =
      .next (s1.fix 3 (.v d.toNat (lanes act old fun i => lane x' (popc act.toNat i))))) ∧
    (∀ n, Ready (.vkbpack d a n) s →
      let k (b : Nat) := kbPack n.toNat (blockVals x' b)
      exec (.vkbpack d a n) s = .next (s1.fix 6 (.v d.toNat (BitVec.ofNat 2048 (pack n.toNat (k 0).mant +
        pack n.toNat (k 1).mant * 2 ^ (32 * n.toNat) + (k 0).scale * 2 ^ (32 * 62) + (k 1).scale * 2 ^ (32 * 63))))
        ((k 0).fl ||| (k 1).fl) true)) ∧
    (∀ n, Ready (.vkbunpack d a n) s → exec (.vkbunpack d a n) s =
      .next (s1.fix 3 (.v d.toNat (lanes (BitVec.allOnes 64) 0 fun i => BitVec.ofNat 32 (unpackLane n.toNat x' i).1))
        (laneFlags (BitVec.allOnes 64) fun i => (unpackLane n.toNat x' i).2) true)) ∧
    (∀ n, Ready (.vkbscale d a n) s → ∃ v fl, exec (.vkbscale d a n) s = .next (s1.fix 6 (.v d.toNat (vecOf v)) fl true) ∧
      fl = ((kbPack n.toNat (blockVals x' 0)).fl ||| (kbPack n.toNat (blockVals x' 1)).fl) &&& Flags.nv ∧
      ∀ i < 64, v i = BitVec.ofNat 32 (roundVal f32 .rne (kbScaleVal (kbPack n.toNat (blockVals x' (i / 32))).scale)).1)

/-- R159, R168, R169, R12 to R14: transfers between files, and the queue operations, with the status of a bind and an unbind. A peek of an empty register traps QUNDER, or holds
the bundle where the register is bound; a clear of a bound one traps QOVER with reason 2. -/
def Obligations.QueueAndTransferResults : Prop :=
  ∀ (s : State) (d a b : BitVec 5) (p : BitVec 3) (q : BitVec 2) (dx : BitVec 6) (qx : BitVec 4),
    let act := s.me.getP p.toNat
    let old := s.oldV d.toNat
    (Ready (.vfill d a p) s → exec (.vfill d a p) s =
      .next (s.fix 2 (.v d.toNat (lanes act old fun _ => BitVec.ofNat 32 (s.me.getX a.toNat).toNat)))) ∧
    (Ready (.vins d a b p) s → exec (.vins d a b p) s = .next (s.fix 2 (.v d.toNat (vecOf fun i =>
      if i = (s.me.getX b.toNat).toNat % 64 ∧ pbit act i then BitVec.ofNat 32 (s.me.getX a.toNat).toNat else lane old i)))) ∧
    (∀ x s1, Ready (.vext d a b) s → s.readV a.toNat = (x, s1) → exec (.vext d a b) s =
      .next (s1.fix 3 (.x d.toNat (BitVec.ofNat 64 (lane x ((s.me.getX b.toNat).toNat % 64)).toNat)))) ∧
    (Ready (.vlaneid d p) s → exec (.vlaneid d p) s = .next (s.fix 2 (.v d.toNat (lanes act old fun i => BitVec.ofNat 32 i)))) ∧
    (∀ v vs, Ready (.vqpk d q p) s → (s.me.getVQ q.toNat).ents = v :: vs →
      exec (.vqpk d q p) s = .next (s.fix 2 (.v d.toNat (lanes act old fun i => lane v i)))) ∧
    (Ready (.vqpk d q p) s → (s.me.getVQ q.toNat).ents = [] → exec (.vqpk d q p) s =
      if (s.me.getVQ q.toNat).bound.isSome then s.hold .block
      else s.trapNow { cause := 0x08, reason := 1, detail := 92 + q.toNat }) ∧
    (Ready (.vqcnt d q) s → exec (.vqcnt d q) s =
      .next (s.fix 2 (.x d.toNat (BitVec.ofNat 64 (s.me.getVQ q.toNat).ents.length)))) ∧
    (Ready (.vqclr q) s → (s.me.getVQ q.toNat).bound = none → ∃ t, exec (.vqclr q) s = .next t ∧
      (t.me.getVQ q.toNat).ents = [] ∧ t.mem = s.mem ∧ ∀ k, k ≠ q.toNat → t.me.getVQ k = s.me.getVQ k) ∧
    (∀ b, Ready (.vqclr q) s → (s.me.getVQ q.toNat).bound = some b →
      exec (.vqclr q) s = s.trapNow { cause := 0x09, reason := 2, detail := 92 + q.toNat }) ∧
    (∀ v vs, Ready (.qpk dx qx) s → (s.me.getQ qx.toNat).ents = v :: vs → exec (.qpk dx qx) s = .next (s.fix 1 (.x dx.toNat v))) ∧
    (Ready (.qpk dx qx) s → (s.me.getQ qx.toNat).ents = [] → exec (.qpk dx qx) s =
      if (s.me.getQ qx.toNat).bound.isSome then s.hold .block
      else s.trapNow { cause := 0x08, reason := 1, detail := 48 + qx.toNat }) ∧
    (Ready (.qcnt dx qx) s → exec (.qcnt dx qx) s =
      .next (s.fix 1 (.x dx.toNat (BitVec.ofNat 64 (s.me.getQ qx.toNat).ents.length)))) ∧
    (Ready (.qclr qx) s → (s.me.getQ qx.toNat).bound = none → ∃ t, exec (.qclr qx) s = .next t ∧
      (t.me.getQ qx.toNat).ents = [] ∧ t.mem = s.mem ∧ ∀ k, k ≠ qx.toNat → t.me.getQ k = s.me.getQ k) ∧
    (∀ b, Ready (.qclr qx) s → (s.me.getQ qx.toNat).bound = some b →
      exec (.qclr qx) s = s.trapNow { cause := 0x09, reason := 2, detail := 48 + qx.toNat }) ∧
    (∀ y s1 (bx : BitVec 6), Ready (.qbind dx qx bx) s → s.readX bx.toNat = (y, s1) →
      let sid := fld y 0 12
      let taken : Bool := s1.me.qs.any fun e => e.1 != qx.toNat && decide (e.2.bound = some (.delivery sid))
      let reg := s1.me.getQ qx.toNat
      let busy : Prop := reg.ents ≠ [] ∨ s1.me.pushes (.x (48 + qx.toNat)) ≠ 0
      let answers (u : State) (n : Nat) : Prop := exec (.qbind dx qx bx) s = .next (u.fix 1 (.x dx.toNat (BitVec.ofNat 64 n)))
      (s1.streamOpen s1.cur sid = false → answers s1 1) ∧
      (s1.streamOpen s1.cur sid = true → taken = true → answers s1 2) ∧
      (s1.streamOpen s1.cur sid = true → taken = false → reg.bound.isSome → answers s1 4) ∧
      (s1.streamOpen s1.cur sid = true → taken = false → reg.bound = none → busy → answers s1 3) ∧
      (s1.streamOpen s1.cur sid = true → taken = false → reg.bound = none → ¬ busy →
        answers (s1.setBound s1.cur qx.toNat (some (.delivery sid))) 0)) ∧
    (Ready (.qunbind dx qx) s → exec (.qunbind dx qx) s = .next (((if (s.me.getQ qx.toNat).bound.isSome then
      s.setBound s.cur qx.toNat none else s).fix 1 (.x dx.toNat (if (s.me.getQ qx.toNat).bound.isSome then 0 else 1)))))

/-- R160 to R167, R91, R103, R255: vector loads and stores, gathers, scatters and scatter-adds of the local store whose addresses pass
their checks put one access for each element under way, in the order of elements. A read's data land as one result, over what the
inactive lanes hold, once its last access is performed; where one fails, nothing is written and MEMERR is due. A store writes each
element's low bytes, and a scatter-add adds to the word in memory.
The cycle in which an access is performed is free (log 60), and that the accesses of one result log each failing word once, which is what
logPart says, is the model's choice (log 85). -/
def Obligations.VectorMemoryResults : Prop :=
  (∀ (s s1 : State) (x : V2048) (d : BitVec 5) (r : BitVec 4) (u : BitVec 1) (p : BitVec 3) (m : BitVec 2) (o : BitVec 6),
    (∀ acc, Ready (.vld d r u p m o) s → s.vAcc false r u (s.me.getP p.toNat) m (s.imm o) = .ok acc →
      s.vecCheck 4 acc.badStride (acc.lanes.map acc.at_) = none →
        (acc.wait = true → exec (.vld d r u p m o) s = s.hold .block) ∧
        (acc.wait = false → m ≠ 2#2 → exec (.vld d r u p m o) s =
          .next ((s.vecRead d.toNat 2 (acc.lanes.map fun i => (acc.at_ i, .lane 4 (32 * i), 0))).vBump u r acc.base')) ∧
        (acc.wait = false → m = 2#2 → acc.lanes = [] → exec (.vld d r u p m o) s = .next ((s.vecRead d.toNat 2 []).vBump u r acc.base')) ∧
        (∀ i is, acc.wait = false → m = 2#2 → acc.lanes = i :: is → exec (.vld d r u p m o) s =
          .next ((s.vecRead d.toNat 2 [(acc.at_ i, .bcst, s.me.getP p.toNat)]).vBump u r acc.base'))) ∧
    (∀ acc, Ready (.vst d r u p m o) s → s.readV d.toNat = (x, s1) → s1.vAcc true r u (s1.me.getP p.toNat) m (s1.imm o) = .ok acc →
      s1.vecCheck 4 acc.badStride (acc.lanes.map acc.at_) = none → exec (.vst d r u p m o) s =
        .next ((s1.vecWrite (acc.lanes.map fun i => (acc.at_ i, .store 4, (lane x i).setWidth 64))).vBump u r acc.base')) ∧
    (∀ b y t, s.readV b.toNat = (y, t) → ∀ g ∈ ([(Instr.vgth32, false, 4), (.vgth16, true, 2)] :
        List ((BitVec 5 → BitVec 4 → BitVec 5 → BitVec 3 → Instr) × Bool × Nat)),
      Ready (g.1 d r b p) s →
        let es := elems g.2.1 (s.areg r.toNat) y (s.me.getP p.toNat)
        t.vecCheck g.2.2 false (es.map (·.2.2)) = none → exec (g.1 d r b p) s =
          .next (t.vecRead d.toNat 3 (es.map fun e => (e.2.2, .lane g.2.2 (32 * e.1 + 16 * e.2.1), 0)))) ∧
    (∀ b y t, s.read2V d b = (x, y, t) → ∀ g ∈ ([(Instr.vsct32, false, 4), (.vsct16, true, 2)] :
        List ((BitVec 5 → BitVec 4 → BitVec 5 → BitVec 3 → Instr) × Bool × Nat)),
      Ready (g.1 d r b p) s →
        let es := elems g.2.1 (s.areg r.toNat) y (s.me.getP p.toNat)
        t.vecCheck g.2.2 false (es.map (·.2.2)) = none → exec (g.1 d r b p) s =
          .next (t.vecWrite (es.map fun e => (e.2.2, .store g.2.2, (lane x e.1).setWidth 64 >>> (16 * e.2.1))))) ∧
    (∀ b y t, s.read2V d b = (x, y, t) → ∀ g ∈ ([(Instr.vsctaddF32, true), (.vsctaddS32, false)] :
        List ((BitVec 5 → BitVec 4 → BitVec 5 → BitVec 3 → Instr) × Bool)),
      Ready (g.1 d r b p) s →
        let es := elems false (s.areg r.toNat) y (s.me.getP p.toNat)
        t.vecCheck 4 false (es.map (·.2.2)) = none → exec (g.1 d r b p) s =
          .next ((t.interAcc [] 0 es.length).postAll
            (elemReqs t.clNo t.nextInter 4 (es.map fun e => (e.2.2, .addEl g.2, (lane x e.1).setWidth 64)))))) ∧
  (∀ (s : State) (v reason : Nat) (es : List (W64 × MemOp × W64)),
    ∃ rs f, (s.vecRead v reason es).me.posted = s.me.posted ++ rs ∧ (s.vecRead v reason es).me.inflight = s.me.inflight ++ [f] ∧
      rs.map (fun q => (q.pa, q.va, q.op, q.arg)) = es.map (fun e => (lsAt s.clNo e.1.toNat, e.1, e.2.1, e.2.2)) ∧
      (∀ q ∈ rs, q.id = s.nextInter ∧ q.ctx = s.cur ∧ s.myCl.cycle < q.due) ∧ f.id = s.nextInter ∧ f.dsts = [.v v] ∧
      f.acc = s.oldV v ∧ f.left = es.length ∧ f.failed = none ∧ (f.val = none ↔ es ≠ []) ∧ (s.vecRead v reason es).mem = s.mem) ∧
  (∀ (s : State) (r : MemReq),
    let cl := r.ctx / 4
    let z (n : Nat) : State := s.readAt cl r.pa n
    (∀ n b, r.op = .lane n b →
      ((z n).badAt r.pa n = false → s.serve r = (z n).takePart r (some fun x => setBits x b n ((z n).load r.pa n))) ∧
      ((z n).badAt r.pa n = true → s.serve r = ((z n).logPart r n).takePart r none)) ∧
    (r.op = .bcst → (z 4).badAt r.pa 4 = false →
      s.serve r = (z 4).takePart r (some fun x => lanes r.arg x fun _ => BitVec.ofNat 32 ((z 4).load r.pa 4))) ∧
    (∀ float, r.op = .addEl float → (z 4).badAt r.pa 4 = false →
      let sum := if float then fAdd f32 .rne ((z 4).load r.pa 4) (fld r.arg 0 32) else (((z 4).load r.pa 4 + fld r.arg 0 32) % 2 ^ 32, 0)
      let w := (z 4).perform r.pa 4 sum.1
      s.serve r = (w.setCtx r.ctx ((w.ctx r.ctx).orFlags sum.2 true)).takePart r (some id)) ∧
    (∀ f, (s.ctx r.ctx).inflight.find? (fun f => f.id == r.id) = some f → f.failed = none →
      let c := s.ctx r.ctx
      (∀ g, 1 < f.left → s.takePart r (some g) = s.setCtx r.ctx { c with
        inflight := c.inflight.map fun h => if h.id = r.id then { f with left := f.left - 1, acc := g f.acc } else h }) ∧
      (∀ g, f.left = 1 → s.takePart r (some g) = s.setCtx r.ctx { c with
        inflight := c.inflight.map fun h => if h.id = r.id then
          { f with left := 0, acc := g f.acc, val := some ({ f with acc := g f.acc }).whole } else h }) ∧
      (f.left = 1 → s.takePart r none = (s.dropInter r.ctx r.id).memErr r))) ∧
  (∀ (x : V2048) (v i j : Nat), i < 64 → j < 64 → lane (setBits x (32 * i) 4 v) j = if j = i then BitVec.ofNat 32 v else lane x j)

/-! ## Matrix engines, operand store, rings (R170 to R200) -/

/-- R16, R170, R183 to R187, R96: the commands of a matrix engine whose accumulator is held and whose queue has room: a row read or
write, a zeroing, a drain, an mma or a store through a record enters the queue, and one on a timeline takes its numbers. A
store first has its context's local-store accesses performed (R258). mfmt takes effect at t + 1, and mstat is sampled at issue.
That mdrain binds its queue register at issue, and that the accesses of a store's context are performed as the command issues, are the
model's choices (logs 10 and 65). -/
def Obligations.EngineCommandsIssue : Prop :=
  ∀ (s s' : State) (v : W64) (t k m : BitVec 3) (y : BitVec 6) (e : BitVec 1) (q : BitVec 2) (d : BitVec 5),
    s.readX y.toNat = (v, s') →
    let eng := k.toNat / 4
    let room := (s.myCl.engine eng).queue.length < 8 ∧ s.holds 1 k.toNat = true
    (Ready (.mfmt e y) s → s.holds 2 e.toNat = true → exec (.mfmt e y) s =
      .next { s' with issue := { s'.issue with
        late := s'.issue.late ++ [.mfmt e.toNat (max 2 (min 8 (fld v 4 4))) (max 2 (min 8 (fld v 0 4)))] } }) ∧
    (Ready (.mfmt e y) s → s.holds 2 e.toNat = false →
      exec (.mfmt e y) s = s'.trapNow { cause := 0x15, reason := 3, detail := e.toNat }) ∧
    (∀ x, Ready (.mstat x e) s → ∃ w, exec (.mstat x e) s = .next (s.inter [.x x.toNat] (some [.x x.toNat w])) ∧
      let g := s.myCl.engine e.toNat
      let own := s.myCl.ownerOf 2 e.toNat
      (g.queue.length ≤ 8 → g.na ≤ 8 → g.nb ≤ 8 → own ≤ 4 → fld w 0 4 = g.queue.length ∧ fld w 4 4 = g.na ∧ fld w 8 4 = g.nb ∧
        (fld w 18 1 = 1 ↔ ∃ r, g.run = some r ∧ r.cur.isSome) ∧ fld w 19 2 = min 2 g.drains.length ∧
        fld w 21 2 = own - 1 ∧ (fld w 23 1 = 1 ↔ own ≠ 0))) ∧
    (Ready (.mzero t k) s → room → (s.tl s.cur t.toNat).wraps 1 = false → exec (.mzero t k) s =
      .next (s.withOp t.toNat 1 fun s op => s.enqueueEng eng op (.mzero k.toNat))) ∧
    (Ready (.mzero t k) s → s.holds 1 k.toNat = false →
      exec (.mzero t k) s = s.trapNow { cause := 0x15, reason := 1, detail := k.toNat }) ∧
    (Ready (.mdrain t q k) s → room → (s.tl s.cur t.toNat).wraps 1 = false → s.bindStop q.toNat = none → exec (.mdrain t q k) s =
      .next (s.withOp t.toNat 1 fun s op => (s.setVBound s.cur q.toNat (some (.drain eng))).enqueueEng eng op (.mdrain k.toNat q.toNat))) ∧
    (∀ c ∈ ([(Instr.mrdv, false), (.mrdq, true)] : List ((BitVec 3 → BitVec 5 → BitVec 6 → Instr) × Bool)),
      Ready (c.1 k d y) s → room → exec (c.1 k d y) s =
        .next ((s'.inter [.v d.toNat] none).enqueueEng eng (s'.inter [.v d.toNat] none).plainOp
          (.mrd k.toNat (fld v 0 6) s'.nextInter d.toNat c.2))) ∧
    (∀ x w s1 s2, Ready (.mwrv k d y) s → room → s.readV d.toNat = (x, s1) → s1.readX y.toNat = (w, s2) → exec (.mwrv k d y) s =
      .next (s2.enqueueEng eng s2.plainOp (.mwrv k.toNat (fld w 0 6) x))) ∧
    (∀ a b, Ready (.mma t k a b m) s → room → (s.tl s.cur t.toNat).wraps (s.mmaReps a.toNat b.toNat).length = false →
      s.rptStall eng = none → (∀ p ∈ s.mmaReps a.toNat b.toNat, s.holds 0 p.1 = true ∧ s.holds 0 p.2 = true) →
      exec (.mma t k a b m) s = .next (s.withOp t.toNat (s.mmaReps a.toNat b.toNat).length fun u op =>
        u.enqueueEng eng op (.mma k.toNat m.toNat (s.myCl.engine eng).na (s.myCl.engine eng).nb
          (s.mmaReps a.toNat b.toNat) s.issue.rpt.isSome))) ∧
    (∀ c ∈ ([(Instr.mstF32, .f32, 0), (.mstBf16, .bf16, 1), (.mstKb, .kb, 4)] :
        List ((BitVec 3 → BitVec 3 → BitVec 6 → Instr) × MstKind × Nat)),
      ∀ rec_ v s' s2, s.drainLs.readX y.toNat = (v, s') → Ready (c.1 t k y) s → s'.holds 1 k.toNat = true →
        (s2.tl s2.cur t.toNat).wraps 1 = false →
        s'.useRec (tHandle v) [rW] (fun r => recFmt r == c.2.2) (fun r => (c.2.2 != 4 || tO0 v % 32 == 0) &&
          (mstCols r v == 0 || mstRows r v == 0 || (decide (tI2 v < recSize r 2) && decide (tI3 v < recSize r 3)))) = .ok (rec_, s2) →
        s2.spanStop rec_ (tO0 v) (tO0 v + mstCols rec_ v) (tO1 v) (tO1 v + mstRows rec_ v) (tI2 v) (tI3 v) = none →
        (s2.myCl.engine eng).queue.length < 8 →
        exec (c.1 t k y) s = .next (s2.withOp t.toNat 1 fun u op => u.enqueueEng eng op (.mst c.2.1 k.toNat v rec_)))

/-- R18, R179 to R182: the operand store: claims and releases answer a status, loads of a held slot enter the loader, ostat answers
when the loads issued before it are done. A load first has its context's local-store accesses performed (R258).
That they are performed as the command issues is the model's choice (log 65). -/
def Obligations.OperandStoreResults : Prop :=
  ∀ (s s' : State) (v w : W64) (t : BitVec 3) (x y : BitVec 6),
    (s.readX y.toNat = (v, s') → ∀ kind is, claimRange v = some (kind, is) →
      let c := s'.myCl
      let me := s'.cur % 4 + 1
      (Ready (.oclaim x y) s → (∀ i ∈ is, c.ownerOf kind i = 0 ∨ c.ownerOf kind i = me) → exec (.oclaim x y) s =
        .next ((s'.setMyCl (c.setOwners kind (is.foldl (fun m i => mset m i me) (c.owners kind)))).fix 1 (.x x.toNat 0))) ∧
      (Ready (.oclaim x y) s → (∃ i ∈ is, c.ownerOf kind i ≠ 0 ∧ c.ownerOf kind i ≠ me) →
        exec (.oclaim x y) s = .next (s'.fix 1 (.x x.toNat 1))) ∧
      (Ready (.orelease x y) s → exec (.orelease x y) s =
        .next ((s'.setMyCl (c.setOwners kind ((is.filter (s'.holds kind)).foldl (fun m i => mset m i 0) (c.owners kind)))).fix 1
          (.x x.toNat (if ∀ i ∈ is, s'.holds kind i = true then 0 else 3))))) ∧
    (s.readX y.toNat = (v, s') → claimRange v = none →
      (Ready (.oclaim x y) s → exec (.oclaim x y) s = .next (s'.fix 1 (.x x.toNat 2))) ∧
      (Ready (.orelease x y) s → exec (.orelease x y) s = .next (s'.fix 1 (.x x.toNat 2)))) ∧
    (s.readX y.toNat = (v, s') → Ready (.ostat x y) s →
      let k := fld v 0 5
      (s'.myCl.loadBefore k s'.myCl.stamp = false →
        exec (.ostat x y) s = .next (s'.inter [.x x.toNat] (some [.x x.toNat (s'.myCl.ostatWord k false)]))) ∧
      (s'.myCl.loadBefore k s'.myCl.stamp = true → ∃ u, exec (.ostat x y) s = .next u ∧ u.mem = s.mem ∧
        u.myCl.ostats = s.myCl.ostats ++ [{ ctx := s.cur, id := s.nextInter, dst := x.toNat, slot := k, stamp := s.myCl.stamp }])) ∧
    (s.drainLs.read2 x y = (w, v, s') → Ready (.oload t x y) s → s'.holds 0 (lwSlot w) = true → ∀ r s2,
      let vk' (r : List W64) : Nat := if isKb r then (lwVk w + 31) / 32 * 32 else lwVk w
      s'.useRec (tHandle v) [rRd] (fun r => recFmt r == 4 || (recFmt r != 3 && decide (2 ≤ lwN w ∧ lwN w ≤ 8)))
        (fun r => (!isKb r || tO0 v % 32 == 0) && (lwVr w == 0 || lwVk w == 0 ||
          (decide (tO0 v + vk' r ≤ recSize r 0) && decide (tO1 v + lwVr w ≤ recSize r 1) &&
            decide (tI2 v < recSize r 2) && decide (tI3 v < recSize r 3)))) = .ok (r, s2) →
      (s2.tl s2.cur t.toNat).wraps 1 = false →
      s2.spanStop r (tO0 v) (tO0 v + (if lwVr w = 0 then 0 else vk' r)) (tO1 v) (tO1 v + lwVr w) (tI2 v) (tI3 v) = none →
      exec (.oload t x y) s = .next (s2.withOp t.toNat 1 fun u op => u.enqueueLoad op w (if isKb r then recKbn r else lwN w) (.tile v r))) ∧
    (s.drainLs.read2 x y = (w, v, s') → Ready (.ofill t x y) s → s'.holds 0 (lwSlot w) = true → ∀ g rc s2,
      s'.me.ring (fld v 24 4) = some g → s'.useRec g.handle [] (fun _ => true) (fun _ => true) = .ok (rc, s2) →
      recFmt g.tr ≠ 3 → (g.kb ≠ 0 ∨ (2 ≤ lwN w ∧ lwN w ≤ 8)) → fld v 0 16 + lwVr w ≤ g.depth →
      (lwVk w = 0 ∨ 32 * (fld v 16 8 + (lwVk w + 31) / 32) ≤ g.rowel) → (s2.tl s2.cur t.toNat).wraps 1 = false →
      exec (.ofill t x y) s = .next (s2.withOp t.toNat 1 fun u op =>
        u.enqueueLoad op w (if g.kb = 0 then lwN w else g.kb) (.ring (fld v 24 4) (fld v 16 8) (g.first + fld v 0 16)))) ∧
    (s.drainLs.read2 x y = (w, v, s') → s'.holds 0 (lwSlot w) = false →
      (Ready (.oload t x y) s → exec (.oload t x y) s = s'.trapNow { cause := 0x15, reason := 2, detail := lwSlot w }) ∧
      (Ready (.ofill t x y) s → exec (.ofill t x y) s = s'.trapNow { cause := 0x15, reason := 2, detail := lwSlot w }))

/-- R191, R194, R196 to R199: the ring commands on an active ring, and RECORD on one that is not. Rows leave a ring when nothing is still to
read them: those that a wradv names are then retired, an IN ring's fetch waits begin, a RECV ring returns their credits, and an OUT ring's
wradv completes. The context's local-store accesses are performed first (R258).
That they are performed as the command issues, and when rows leave a ring, are the model's choices (logs 11 and 65). -/
def Obligations.RingCommandsIssue : Prop :=
  (∀ (s s' : State) (v n : W64) (t : BitVec 3) (x y : BitVec 6),
    let room (u : State) := (u.tl u.cur t.toNat).wraps 1 = false
    let d := s.drainLs
    (∀ xp sw bw tw u r tr, Ready (.wrset t xp y) s → sw = d.me.getX (2 * xp.toNat) → bw = d.me.getX (2 * xp.toNat + 1) →
      d.readX y.toNat = (tw, u) → r = fld sw 0 4 → u.me.ring r = none →
      ∀ u2, u.useRec (tHandle tw) [] (wrsetTest3 sw) (fun _ => true) = .ok (tr, u2) →
      let g := ringOf sw bw tw tr
      wrsetTest5 g = true → wrsetTest6 g u2.myCl.ti.gangIx u2.myCl.ti.gangSize = true → room u2 →
      lsSpanTrap u2.myCl (g.lsb * 256 : Nat) (g.lsb * 256 + g.depth * g.len * 256 : Nat) = none →
      exec (.wrset t xp y) s = .next (u2.withOp t.toNat 1 fun z op =>
        (z.setRing z.cur r { g with cmds := [(op, match g.mode with
          | 0 => .landed 0 (min g.depth g.rows)
          | 1 => .outs
          | _ => .reg)] }).ringSettle z.cur r)) ∧
    (d.read2 x y = (v, n, s') → ∀ g, s'.me.ring (fld v 0 4) = some g → room s' →
      (Ready (.wradv t x y) s → min n.toNat g.depth = 0 → exec (.wradv t x y) s = .next (s'.withOp t.toNat 1 fun u op => u.opDone op)) ∧
      (Ready (.wradv t x y) s → min n.toNat g.depth ≠ 0 → exec (.wradv t x y) s = .next (s'.withOp t.toNat 1 fun u op =>
        (u.setRing u.cur (fld v 0 4) { g with cmds := g.cmds ++ [(op, .adv (min n.toNat g.depth))] }).ringSettle u.cur (fld v 0 4))) ∧
      (Ready (.wrout t x y) s → g.mode = 1 → exec (.wrout t x y) s = .next (s'.withOp t.toNat 1 fun u op =>
        (u.setRing u.cur (fld v 0 4) { g with cmds := g.cmds ++ [(op, .out 0 (min n.toNat g.depth))] }).ringSettle u.cur (fld v 0 4))) ∧
      (Ready (.wrout t x y) s → g.mode ≠ 1 → exec (.wrout t x y) s = .next (s'.withOp t.toNat 1 fun u op => u.opFail op (12, v)))) ∧
    (d.readX x.toNat = (v, s') → ∀ g, s'.me.ring (fld v 0 4) = some g → room s' →
      (Ready (.wrfree t x) s → exec (.wrfree t x) s = .next (s'.withOp t.toNat 1 fun u op =>
        (u.setRing u.cur (fld v 0 4) { g with freeing := some (g.freeing.getD [] ++ [op]) }).ringSettle u.cur (fld v 0 4))) ∧
      (Ready (.wrflush t x) s → exec (.wrflush t x) s = .next (s'.withOp t.toNat 1 fun u op =>
        (u.setRing u.cur (fld v 0 4) { g with cmds := g.cmds ++ [(op, match g.mode with
          | 0 => .flush (tab (fun k => g.first + k) g.depth)
          | 1 => .outs
          | _ => .flush [])] }).ringSettle u.cur (fld v 0 4)))) ∧
    (d.readX y.toNat = (v, s') → ∀ q g, Ready (.wrbind q y) s → s'.me.ring (fld v 24 4) = some g → fld v 16 8 < g.len →
      (fld v 31 1 = 0 → s'.bindStop q.toNat = none → g.bind = none → exec (.wrbind q y) s =
        .next ((s'.setVBound s'.cur q.toNat (some (.ring (fld v 24 4)))).setRing s'.cur (fld v 24 4)
          { g with bind := some (q.toNat, fld v 16 8, g.first) })) ∧
      (fld v 31 1 = 1 → ∀ ch nx, g.bind = some (q.toNat, ch, nx) → exec (.wrbind q y) s =
        .next (((s'.setVBound s'.cur q.toNat none).setRing s'.cur (fld v 24 4) { g with bind := none }).ringSettle s'.cur (fld v 24 4)))) ∧
    (s.readX y.toNat = (v, s') → Ready (.wrstat x y) s →
      (s'.me.ring (fld v 0 4) = none → exec (.wrstat x y) s = .next (s'.inter [.x x.toNat] (some [.x x.toNat 0]))) ∧
      (∀ g, s'.me.ring (fld v 0 4) = some g → ∃ (w : W64) (u : State), exec (.wrstat x y) s = .next (u.inter [.x x.toNat] (some [.x x.toNat w])) ∧
        u.mem = s.mem ∧ (g.mode ≤ 2 → g.depth < 256 →
          fld w 0 4 = 8 ∧ fld w 4 2 = g.mode ∧ (fld w 6 1 = 1 ↔ g.bind.isSome) ∧
          (fld w 7 1 = 1 ↔ (g.mode = 0 ∧ g.rows ≤ g.landed) ∨ (g.mode = 1 ∧ recSize g.tr 1 ≤ g.o1 + g.next)) ∧
          ((g.mode ≠ 0 ∨ g.mcn = 0 ∨ g.credits = []) → fld w 8 8 = 0) ∧
          (g.mode = 0 → g.mcn ≠ 0 → ∀ c ∈ g.credits, fld w 8 8 ≤ c.2) ∧
          fld w 16 8 = (if g.mode = 1 then g.depth else min g.depth (g.landed - g.first)) ∧ fld w 24 8 = g.depth ∧
          (g.mode = 0 → fld w 32 32 = (g.o1 + g.landed) % 2 ^ 32) ∧ (g.mode = 1 → fld w 32 32 = (g.o1 + g.next) % 2 ^ 32)))) ∧
    (d.readX x.toNat = (v, s') → s'.me.ring (fld v 0 4) = none →
      (Ready (.wrfree t x) s → exec (.wrfree t x) s = s'.trapNow { cause := 0x0F, reason := 1, detail := 0xFFFF }) ∧
      (Ready (.wrflush t x) s → exec (.wrflush t x) s = s'.trapNow { cause := 0x0F, reason := 1, detail := 0xFFFF }))) ∧
  (∀ (s : State) (g r k n : Nat) (x : Ring) (op : Op), s.opDead op = false →
    (s.mayRetire g r x n = false → s.ringCmdStep g r x k op (.adv n) = s) ∧
    (s.mayRetire g r x n = true →
      (∀ a, x.first ≤ a → a < x.first + n → s.ofillNames g r a = false ∧ (x.mode = 0 → a < x.landed) ∧
        ∀ q ch m, x.bind = some (q, ch, m) → a < m) ∧
      (x.mode = 1 → s.ringCmdStep g r x k op (.adv n) =
        (s.setRing g r { x with first := x.first + n, next := x.next + n, cmds := x.cmds.eraseIdx k }).opDone op) ∧
      (let z := s.setRing g r { x with first := x.first + n, cmds := setAt x.cmds k (op, .landed (x.first + x.depth) (x.first + x.depth + n)) }
       (x.mode = 0 → s.ringCmdStep g r x k op (.adv n) = z) ∧
       (∀ cl, x.mode = 2 → x.registered = true → s.gangCl (g / 4) x.mcf = some cl → s.ringCmdStep g r x k op (.adv n) =
         z.send (g / 4) cl (.credit op (cl * 4 + x.dctx) x.dring (s.cl (g / 4)).ti.gangIx n)))))

/-! ## Windows, remote memory, the sorting office (R201 to R224) -/

/-- R201, R203, R207: the collective window commands. Each takes a number and sends the member's notice to the team; wnew checks its
record for remote use first. One whose timeline cancels it takes its place in the window's sequence all the same.
R204 to R208, R261: post, start, complete, wait, lock, unlock and flush. In the states the rules require a command acts; in others it
fails with BADSTATE (9), or with BADARG (12) where it names no rank of the team. A command that releases the context's stores is held in
BLOCK while those to pigeonhole memory are not performed. wquery answers without a number.
That the context's local-store accesses are performed as the command issues, and the hold, are the model's choice (log 65), and so is what a
cancelled collective command leaves of its part, which is what deadPart says (log 67). -/
def Obligations.WindowCommandsIssue : Prop :=
  (∀ (s s' : State) (v w : W64) (t : BitVec 3) (x y : BitVec 6),
    let d := s.drainLs
    let go (i : Instr) (u : State) (kind : Nat) (k : State → Op → State) : Prop :=
      let op := u.newOp t.toNat
      let z := u.takeNums u.cur t.toNat 1
      exec i s = .next (if z.opDead op then State.deadPart kind (winOf v) z op else k z op)
    (∀ r s2, d.read2 x y = (v, w, s') → Ready (.wnew t x y) s → s'.useRec (fld w 0 16) [rRemote] byteRange3 byteRange6 = .ok (r, s2) →
      (s2.tl s2.cur t.toNat).wraps 1 = false → go (.wnew t x y) s2 0 fun u op =>
        (u.takePlace (winOf v)).2.toTeam 0 (winOf v) (u.takePlace (winOf v)).1
          { rank := s2.myCl.ti.rank, op := op, word := fld v 9 4, base := recBase r, len := recExtent r }) ∧
    (d.readX x.toNat = (v, s') → Ready (.wfree t x) s → (s'.tl s'.cur t.toNat).wraps 1 = false →
      go (.wfree t x) s' 2 fun u op => (u.takePlace (winOf v)).2.toTeam 2 (winOf v) (u.takePlace (winOf v)).1
        { rank := s'.myCl.ti.rank, op := op, word := 0 }) ∧
    (d.read2 x y = (v, w, s') → Ready (.wfence t x y) s → (s'.tl s'.cur t.toNat).wraps 1 = false →
      (s'.pigPending s'.cur = true → exec (.wfence t x y) s = s'.hold .block) ∧
      (s'.pigPending s'.cur = false → go (.wfence t x y) s' 1 fun u op =>
        let z := (u.takePlace (winOf v)).2
        (z.setMyCl { z.myCl with shut := z.myCl.shut ++ [(z.cur, winOf v)] }).waitFor z.clNo
          { op := op, ids := z.myCl.accIds fun a => a.win == winOf v, act := .fence (winOf v) (fld w 0 2) (u.takePlace (winOf v)).1 }))) ∧
  (∀ (s s' : State) (v w : W64) (t : BitVec 3) (x y : BitVec 6),
    let d := s.drainLs
    (d.read2 x y = (v, w, s') → (s'.tl s'.cur t.toNat).wraps 1 = false →
      let f := s'.myFrank (winOf v)
      let fails (i : Instr) (code : Nat) : Prop := exec i s = .next (s'.withOp t.toNat 1 fun u op => u.winFail op code)
      (s'.pigPending s'.cur = true → ∀ i ∈ [Instr.wpost t x y, .wunlock t x y], Ready i s → exec i s = s'.hold .block) ∧
      (s'.pigPending s'.cur = false →
        (∀ first count, Ready (.wpost t x y) s → s'.groupOf w = some (first, count) → f.state = 1 →
          exec (.wpost t x y) s = .next (s'.withOp t.toNat 1 fun u op => ((List.range' first count).foldl (fun s r =>
              s.send s.clNo ((s.rankCl s.clNo r).getD s.clNo) (.post op (winOf v) s'.myCl.ti.rank (f.num + 1)))
            (u.setFrank u.clNo (winOf v) { f with
              state := 3, num := f.num + 1, tainted := false, first := first, count := count, compl := [], wait := none })).opDone op)) ∧
        (∀ g, Ready (.wpost t x y) s → s'.groupOf w = some g → f.state ≠ 1 → fails (.wpost t x y) 9) ∧
        (Ready (.wpost t x y) s → s'.groupOf w = none → fails (.wpost t x y) 12) ∧
        (∀ l, Ready (.wunlock t x y) s → fld w 0 17 < s'.teamSize s'.clNo →
          s'.myCl.locks.find? (fun l => l.1 == s'.cur && l.2.1 == winOf v && l.2.2.1 == fld w 0 17) = some l →
          (s'.myCl.winWaits.any fun q => decide (q.act = .unlock (winOf v) (fld w 0 17)) && q.op.ctx == s'.cur) = false →
          exec (.wunlock t x y) s = .next (s'.withOp t.toNat 1 fun u op => u.waitFor u.clNo
            { op := op, ids := u.myCl.accIds fun a => a.op.ctx == u.cur && a.win == winOf v && a.rank == fld w 0 17 &&
                decide (a.tag = .lock l.2.2.2), act := .unlock (winOf v) (fld w 0 17) }))) ∧
      (∀ first count, Ready (.wstart t x y) s → s'.groupOf w = some (first, count) → f.state ≠ 0 →
        s'.myCl.epochOf s'.cur (winOf v) = none → exec (.wstart t x y) s = .next (s'.withOp t.toNat 1 fun u op =>
          (u.setMyCl { u.myCl with epochs := u.myCl.epochs ++
            [{ ctx := u.cur, win := winOf v, first := first, count := count, start := some op }] }).settleStarts u.clNo)) ∧
      (∀ g, Ready (.wstart t x y) s → s'.groupOf w = some g → f.state = 0 → fails (.wstart t x y) 9) ∧
      (∀ c, Ready (.wlock t x y) s → s'.rankCl s'.clNo (fld w 0 17) = some c → f.state ≠ 0 →
        (s'.myCl.lockAsks.any fun a => a.1.ctx == s'.cur && a.2 == (winOf v, fld w 0 17)) = false →
        (s'.myCl.locks.any fun l => l.1 == s'.cur && l.2.1 == winOf v && l.2.2.1 == fld w 0 17) = false →
        exec (.wlock t x y) s = .next (s'.withOp t.toNat 1 fun u op =>
          (u.setMyCl { u.myCl with lockAsks := u.myCl.lockAsks ++ [(op, winOf v, fld w 0 17)] }).send u.clNo c
            (.lockReq (winOf v) { op := op, rank := fld w 0 17, excl := fld w 17 1 == 1 }))) ∧
      (Ready (.wflush t x y) s → exec (.wflush t x y) s = .next (s'.withOp t.toNat 1 fun u op => u.waitFor u.clNo
        { op := op, ids := u.myCl.accIds fun a => a.op.ctx == u.cur && a.win == winOf v && (fld w 17 1 == 1 || a.rank == fld w 0 17),
          act := .flush }))) ∧
    (d.readX x.toNat = (v, s') → (s'.tl s'.cur t.toNat).wraps 1 = false →
      let f := s'.myFrank (winOf v)
      (Ready (.wcompl t x) s → s'.pigPending s'.cur = true → exec (.wcompl t x) s = s'.hold .block) ∧
      (∀ e, Ready (.wcompl t x) s → s'.pigPending s'.cur = false → s'.myCl.epochOf s'.cur (winOf v) = some e → e.start = none →
        exec (.wcompl t x) s = .next (s'.withOp t.toNat 1 fun u op =>
          (u.setMyCl { u.myCl with
            epochs := u.myCl.epochs.map fun z => if z = e then { z with ending := some (op, e.count) } else z }).waitFor u.clNo
            { op := op, ids := u.myCl.accIds fun a => a.op.ctx == u.cur && a.win == e.win && (match a.tag with
                | .post _ => true
                | _ => false), act := .compl e.win e.first e.count })) ∧
      (Ready (.wcompl t x) s → s'.pigPending s'.cur = false → s'.myCl.epochOf s'.cur (winOf v) = none →
        exec (.wcompl t x) s = .next (s'.withOp t.toNat 1 fun u op => u.winFail op 9)) ∧
      (Ready (.wwait t x) s → f.state = 3 → f.wait = none → exec (.wwait t x) s = .next (s'.withOp t.toNat 1 fun u op =>
        (u.setFrank u.clNo (winOf v) { f with wait := some op }).settleExposure u.clNo (winOf v))) ∧
      (Ready (.wwait t x) s → f.state ≠ 3 → exec (.wwait t x) s = .next (s'.withOp t.toNat 1 fun u op => u.winFail op 9))) ∧
    (s.readX y.toNat = (v, s') → Ready (.wquery x y) s →
      exec (.wquery x y) s = .next (s'.inter [.x x.toNat] (some [.x x.toNat (s'.myFrank (winOf v)).query]))))

/-- R209 to R213: a remote operation whose window test, record and span pass takes a number and goes to its targets; the kind and the
number of further targets are those of its row. The context's local-store accesses are performed first (R258); that they are as the
command issues is the model's choice (log 65). -/
def Obligations.RemoteOperationsIssue : Prop :=
  ∀ (s s' s2 : State) (lw : W64) (t : BitVec 3) (x : BitVec 6) (y : BitVec 4) (r : List W64), s.drainLs.readX x.toNat = (lw, s') →
    ∀ c ∈ ([(Instr.get, .get, 0), (.put, .put, 0), (.putm, .put, lwAux lw), (.accAddf, .addf, 0), (.accAdds, .adds, 0),
        (.accFx, .fx, 0), (.accMaxf, .maxf, 0), (.accMinf, .minf, 0), (.rcas, .rcas, 0), (.getro, .getro, 0),
        (.getacc, .getacc (lwAux lw % 8), 0)] : List ((BitVec 3 → BitVec 6 → BitVec 4 → Instr) × RemKind × Nat)),
      let ra := s'.me.getX (2 * y.toNat)
      let len := s'.me.getX (2 * y.toNat + 1)
      let kind := c.2.1
      let span := if kind = .rcas then 16 else len.toNat
      let rights := [rRemote] ++ (if kind.readsL then [rRd] else []) ++ (if kind.writesL then [rW] else [])
      let t6 (r : List W64) : Bool := byteRange6 r && lwOff lw % 4 == 0 && decide (lwOff lw + span ≤ recExtent r)
      Ready (c.1 t x y) s →
        (∀ tr, s'.winTest kind c.2.2 lw ra len = some tr → exec (c.1 t x y) s = s'.trapNow tr) ∧
        (s'.winTest kind c.2.2 lw ra len = none → s'.useRec (lwHandle lw) rights byteRange3 t6 = .ok (r, s2) →
          (s2.tl s2.cur t.toNat).wraps 1 = false →
          (recSpace r = 1 ∨ lsSpanTrap s2.myCl (recBase r + lwOff lw : Nat) (recBase r + lwOff lw + span : Nat) = none) →
          exec (c.1 t x y) s = .next (s2.withOp t.toNat 1 fun u op =>
            if (match kind with
              | .getacc k => decide (6 ≤ k)
              | _ => false) then u.opFail op (12, ra) else u.remoteGo kind c.2.2 lw ra len.toNat r op))

/-- R214 to R224: a sorting-office command whose block lies in the local store and passes its record checks takes a number and joins
the office; a block that is not 64-byte aligned, or lies outside the bounds, traps, and so does a record that it reads where what it reads of
it lies outside the local store's bounds. cstat reports the outstanding commands of an
identifier: its state, how many are outstanding and how many members have issued the oldest, and that one's chunks; and ccancel cancels at its own cluster first. The context's local-store accesses are performed first (R258); that they are
as the command issues is the model's choice (log 65). -/
def Obligations.SortCommandsIssue : Prop :=
  ∀ (s s' s2 : State) (a v : W64) (t : BitVec 3) (x y : BitVec 6),
    (s.drainLs.readX x.toNat = (a, s') → ∀ c ∈ ([(Instr.dispatch, 0), (.combine, 1), (.coll, 2)] : List ((BitVec 3 → BitVec 6 → Instr) × Nat)),
      Ready (c.1 t x) s →
        (∀ rs, a.toNat % 64 = 0 → s'.myCl.lsOk a.toNat 64 = true →
          let pa := lsAt s'.clNo a.toNat
          let b := tab (fun i => BitVec.ofNat 64 (s'.load (pa + 8 * i) 8)) 8
          let w := blkWord c.2 b
          s'.badAt pa 64 = false → s'.getRecs (blkRecs c.2 b) = .ok (rs, s2) →
          (s2.tl s2.cur t.toNat).wraps 1 = false →
          (∀ tr, s2.srcTrap c.2 b rs = some tr → exec (c.1 t x) s = s2.trapNow tr) ∧
          (s2.srcTrap c.2 b rs = none → (s2.mySite.office.filter fun q => q.ch == cwId w % 8 && q.run != 2).length < 32 →
          let z := (s2.readAt s2.clNo pa 64).takeNums s2.cur t.toNat 1
          exec (c.1 t x) s = .next (z.joinOffice c.2 b rs (s2.newOp t.toNat) (z.opDead (s2.newOp t.toNat))))) ∧
        ((s'.tl s'.cur t.toNat).wraps 1 = false → a.toNat % 64 ≠ 0 → exec (c.1 t x) s = s'.trapNow (alignTrap a 64)) ∧
        ((s'.tl s'.cur t.toNat).wraps 1 = false → a.toNat % 64 = 0 → s'.myCl.lsOk a.toNat 64 = false →
          exec (c.1 t x) s = s'.trapNow (lsboundTrap a))) ∧
    (s.readX y.toNat = (v, s') → Ready (.cstat x y) s → ∃ w, exec (.cstat x y) s = .next (s'.inter [.x x.toNat] (some [.x x.toNat w])) ∧
      let mine := s'.mySite.office.filter fun c => c.op.ctx == s'.cur && cwId c.word == cwId v && !s'.opOver c.op
      (mine = [] → w = 0) ∧
      (∀ c cs, mine = c :: cs → s'.arrivedAt c < 2 ^ 17 →
        fld w 0 3 = (if c.run ≠ 0 then 2 else if s'.arrivedAt c = cwCount c.word then 3 else 1) ∧ fld w 7 8 = min 255 mine.length ∧
        fld w 15 17 = s'.arrivedAt c ∧ fld w 32 32 = c.chunks % 2 ^ 32)) ∧
    (s.drainLs.readX x.toNat = (v, s') → Ready (.ccancel t x) s → (s'.tl s'.cur t.toNat).wraps 1 = false →
      (s'.memberIx s'.clNo v = none → exec (.ccancel t x) s = .next (s'.withOp t.toNat 1 fun u op => u.winFail op 12)) ∧
      (∀ m, s'.memberIx s'.clNo v = some m → ((s'.members s'.clNo v).filter fun r => r != s'.myCl.ti.rank) = [] →
        exec (.ccancel t x) s = .next (s'.withOp t.toNat 1 fun u op => (u.cancelAt u.clNo (cwId v)).opDone op)) ∧
      (∀ m, s'.memberIx s'.clNo v = some m → ((s'.members s'.clNo v).filter fun r => r != s'.myCl.ti.rank) ≠ [] →
        exec (.ccancel t x) s = .next (s'.withOp t.toNat 1 fun u op =>
          let others := (s'.members s'.clNo v).filter fun r => r != s'.myCl.ti.rank
          let z := u.cancelAt u.clNo (cwId v)
          others.foldl (fun z r => z.send u.clNo ((z.rankCl u.clNo r).getD u.clNo) (.cancel (cwId v) op))
            (z.setMyCl { z.myCl with cancels := z.myCl.cancels ++ [(op, others.length)] }))))

/-! ## Atomics, barriers, timelines, tasks (R225 to R248) -/

/-- R227 to R230, R255: an atomic whose address passes its checks is under way, and D waits for the old value. Performed, it reads the
home, and writes the operation's value there, in one step; where the word fails, it leaves it and D, and MEMERR is due; at a pigeonhole bank
it waits for its turn.
The cycle in which an access is performed is free (log 60). -/
def Obligations.AtomicResults : Prop :=
  (∀ (s s' : State) (x y : W64) (d a b : BitVec 6) (pa : Nat), s.read2 a b = (x, y, s') →
    ∀ c ∈ ([(Instr.aadd, .add, x, y, 0), (.aand, .and, x, y, 0), (.aor, .or, x, y, 0), (.axchg, .xchg, x, y, 0), (.amaxs, .maxs, x, y, 0),
        (.amins, .mins, x, y, 0), (.aaddf, .addf, x, y, 0), (.afx, .fx, x, y, 0), (.acas, .cas, x, y, s.me.getX d.toNat),
        (.ahist, .hist, x + BitVec.ofNat 64 (4 * fld y 0 32), 0, 0)] :
        List ((BitVec 6 → BitVec 6 → BitVec 6 → Instr) × AmoOp × W64 × W64 × W64)),
      Ready (c.1 d a b) s → s'.access c.2.2.1 c.2.1.size .amo = .ok pa →
        ∃ t, exec (c.1 d a b) s = .next t ∧ Awaits s t [.x d.toNat] ∧ t.mem = s.mem ∧ t.me.pending = s.me.pending ∧
          UnderWay s' t { pa := pa, va := c.2.2.1, op := .amo c.2.1, arg := c.2.2.2.1, arg2 := c.2.2.2.2, id := s.nextInter, dst := d.toNat }) ∧
  (∀ (s : State) (r : MemReq) (op : AmoOp), r.op = .amo op →
    let cl := r.ctx / 4
    (s.atBankOf cl r.pa = true → s.perform1 r = some (s.sendPig r)) ∧
    (s.atBankOf cl r.pa = false →
      (∀ old fl t, s.amoAt cl r.pa op r.arg r.arg2 = (some (old, fl), t) →
        s.perform1 r = some (t.answer r.ctx r.id [.x r.dst (BitVec.ofNat 64 old)] fl)) ∧
      (∀ t, s.amoAt cl r.pa op r.arg r.arg2 = (none, t) → s.perform1 r = some ((t.dropInter r.ctx r.id).memErr r))) ∧
    (s.l1Line cl r.pa = none →
      let z := s.readRed cl r.pa op.size
      (z.badAt r.pa op.size = true → s.amoAt cl r.pa op r.arg r.arg2 = (none, z.logBad cl r.pa op.size 1)) ∧
      (z.badAt r.pa op.size = false →
        let v := op.apply (z.load r.pa op.size) r.arg r.arg2
        s.amoAt cl r.pa op r.arg r.arg2 = (some (z.load r.pa op.size, v.2), z.performRed r.pa op.size v.1 (some cl))))) ∧
  (∀ (x b d : W64), ∀ r ∈ ([(AmoOp.add, wrap 64 (x.toInt + b.toInt)), (.and, x &&& b), (.or, x ||| b), (.xchg, b),
      (.maxs, if x.toInt ≤ b.toInt then b else x), (.mins, if x.toInt ≤ b.toInt then x else b), (.fx, wrap 64 (satS64 (x.toInt + b.toInt))),
      (.cas, if x = d then b else x)] : List (AmoOp × W64)), r.1.apply x.toNat b d = (r.2.toNat, 0)) ∧
  (∀ (m : Nat) (b d : W64), AmoOp.addf.apply m b d = fAdd f32 .rne m (fld b 0 32) ∧ AmoOp.hist.apply m b d = ((m + 1) % 2 ^ 32, 0))

/-- R231 to R233: the barrier objects of the gang's first cluster.
R234 to R239: timeline waits (held until the counter reaches the value, at most ISSUE as the bundle found it; TLERR in ERROR), reads, tlerr, the declared phase and
wakew.
That the barrier objects stand in the first cluster of the gang is the model's choice (log 15). -/
def Obligations.BarrierAndTimelineResults : Prop :=
  (∀ (s s' : State) (x y : W64) (d a b : BitVec 6), s.read2 a b = (x, y, s') →
    let cl := s'.gangHome s'.clNo
    let o := fld x 0 4
    let c := s'.cl cl
    let z := c.bar o
    let ph := fld y 0 32
    (Ready (.barv d a b) s → z.status c.liveCount c.gone ph = none → s'.cur ∉ z.at (z.dist ph) →
      exec (.barv d a b) s = .next ((s'.setBar cl o ({ z with arr := z.arr ++ [(ph, s'.cur)] }.advance c.liveCount c.gone 4)).status d 0)) ∧
    (Ready (.barv d a b) s → z.status c.liveCount c.gone ph = none → s'.cur ∈ z.at (z.dist ph) →
      exec (.barv d a b) s = .next (s'.status d 4)) ∧
    (Ready (.barv d a b) s → z.status c.liveCount c.gone ph = some 1 → exec (.barv d a b) s = .next (s'.status d 1)) ∧
    (∀ st, Ready (.barw d a b) s → s'.cur ∉ z.resets → z.status c.liveCount c.gone ph = some st → exec (.barw d a b) s =
      .next ((s'.setBar cl o { z with waits := z.waits.filter (· != s'.cur), resets := z.resets.filter (· != s'.cur) }).waitResult
        [.x d.toNat] [.x d.toNat (BitVec.ofNat 64 st)])) ∧
    (Ready (.barw d a b) s → s'.cur ∈ z.resets → exec (.barw d a b) s =
      .next ((s'.setBar cl o { z with waits := z.waits.filter (· != s'.cur), resets := z.resets.filter (· != s'.cur) }).waitResult
        [.x d.toNat] [.x d.toNat 2])) ∧
    (Ready (.barw d a b) s → s'.cur ∉ z.resets → z.status c.liveCount c.gone ph = none →
      exec (.barw d a b) s = s'.holdWait (some (.bar cl o))) ∧
    (Ready (.barset d a b) s → 1 ≤ fld y 0 16 → fld y 0 16 ≤ 320 → exec (.barset d a b) s =
      .next ((s'.setBar cl o { e := fld y 0 16, waits := [], resets := z.resets ++ z.waits }).status d 0)) ∧
    (Ready (.barset d a b) s → (fld y 0 16 = 0 ∨ 320 < fld y 0 16) → exec (.barset d a b) s = .next (s'.status d 5)) ∧
    (∀ u, s.readX a.toNat = (x, u) → Ready (.barq d a) s → exec (.barq d a) s =
      .next (u.status d (((u.cl (u.gangHome u.clNo)).bar o).word (u.cl (u.gangHome u.clNo)).liveCount (u.cl (u.gangHome u.clNo)).gone)))) ∧
  (∀ (s s' : State) (y : W64) (d b : BitVec 6) (t : BitVec 3), s.readX b.toNat = (y, s') →
    let z := s.tl s.cur t.toNat
    let issue := (s.issue.issued.map fun l => l.getD t.toNat 0).getD z.issue
    (∀ c ∈ ([(Instr.tlwait, (·.done)), (.tlwaitr, (·.vis))] :
        List ((BitVec 6 → BitVec 3 → BitVec 6 → Instr) × (Timeline → Nat))), Ready (c.1 d t b) s →
      (min y.toNat issue ≤ c.2 z → exec (c.1 d t b) s = .next (s'.waitResult [.x d.toNat] [.x d.toNat (BitVec.ofNat 64 (c.2 z))])) ∧
      (c.2 z < min y.toNat issue → z.err.isSome → exec (c.1 d t b) s = s'.trapNow { cause := 0x0D, reason := 1, detail := t.toNat }) ∧
      (c.2 z < min y.toNat issue → z.err = none → exec (c.1 d t b) s = s'.holdWait)) ∧
    (∀ c ∈ ([(Instr.tlrd, (·.done)), (.tlrdi, (·.issue)), (.tlrdc, fun z => z.issue - z.done), (.tlrdv, (·.vis))] :
        List ((BitVec 6 → BitVec 3 → Instr) × (Timeline → Nat))), Ready (c.1 d t) s → exec (c.1 d t) s = .next (s.status d (c.2 z))) ∧
    (∀ r : BitVec 4, Ready (.tlerr r t) s →
      (∀ e w z', z.tlerr = some (e, w, z') → exec (.tlerr r t) s = .next ((s.setTl s.cur t.toNat z').inter
        [.x (2 * r.toNat), .x (2 * r.toNat + 1)] (some [.x (2 * r.toNat) e, .x (2 * r.toNat + 1) w]))) ∧
      (z.tlerr = none → ∃ u, exec (.tlerr r t) s = .next u ∧
        u.me.tlErrs = s.me.tlErrs ++ [(s.nextInter, t.toNat, 2 * r.toNat)] ∧ u.tl u.cur t.toNat = z)) ∧
    (Ready (.bwph b) s → exec (.bwph b) s =
      .next { s' with issue := { s'.issue with late := s'.issue.late ++ [.phase (min y.toNat 7)] } }) ∧
    (Ready .wakew s → s.setsReady s.clNo = true → exec .wakew s = .next s) ∧
    (Ready .wakew s → s.setsReady s.clNo = false → exec .wakew s = s.holdWait))

/-- R240 to R243, R313: work queues. A pop answers the head entry, an error status where the queue is not assigned to the team, or
holds the bundle where the queue is empty; a push appends; a cancel removes; a thaw clears the freeze.
Where slot 0 of a ring lies for an unaligned BASE, and that a cancel passes over an entry whose word cannot be read, are the model's
choice (logs 50, 68). -/
def Obligations.WorkQueueResults : Prop :=
  ∀ (s s' : State) (x y : W64) (d a b : BitVec 6) (c : BitVec 3),
    (s.readX a.toNat = (x, s') →
      let site := qSite x
      let i := qIx x
      let q := (s'.site site).queue i
      (∀ r u, Ready (.qpop d a c) s → (q.waits.find? fun w => w.ctx == s'.cur) = none → s'.qUsable x = true → firstWait q.waits = none →
        s'.qTake site i s'.cur = (some r, u) → exec (.qpop d a c) s = .next (u.popResult false site i d c r true)) ∧
      (Ready (.qpop d a c) s → (q.waits.find? fun w => w.ctx == s'.cur) = none → s'.qUsable x = false →
        exec (.qpop d a c) s = .next (s'.popResult false site i d c (false, 6) true)) ∧
      (∀ w r, Ready (.qpop d a c) s → (q.waits.find? fun w => w.ctx == s'.cur) = some w → w.ans = some r → exec (.qpop d a c) s =
        .next ((s'.setQueue site i { q with waits := q.waits.filter fun w => w.ctx != s'.cur }).popResult false site i d c r true)) ∧
      (Ready (.qpop d a c) s → (q.waits.find? fun w => w.ctx == s'.cur) = none → s'.qUsable x = true → firstWait q.waits = none →
        ∀ u, s'.qTake site i s'.cur = (none, u) → exec (.qpop d a c) s = u.holdWait (some (.qpop site i))) ∧
      (∀ r u, Ready (.qtry d a c) s → s'.qUsable x = true → s'.qTake site i s'.cur = (some r, u) →
        exec (.qtry d a c) s = .next (u.popResult false site i d c r false)) ∧
      (∀ u, Ready (.qtry d a c) s → s'.qUsable x = true → s'.qTake site i s'.cur = (none, u) →
        exec (.qtry d a c) s = .next ((u.countOp site i).popResult false site i d c (false, 1) false)) ∧
      (Ready (.qtry d a c) s → s'.qUsable x = false → exec (.qtry d a c) s = .next (s'.popResult false site i d c (false, 6) false)) ∧
      (Ready (.qthaw d a) s → fld x 16 1 = 0 → s'.qUsable x = true → exec (.qthaw d a) s =
        .next ((s'.setQueue site i { q with frozen := false, written := false }).status d 0)) ∧
      (Ready (.qthaw d a) s → fld x 16 1 = 1 → s'.hUsable x = true → exec (.qthaw d a) s = .next ((s'.setHeap (hSite x) (hIx x)
        { (s'.site (hSite x)).heap (hIx x) with frozen := false, written := false }).status d 0))) ∧
    (s.read2 a b = (x, y, s') →
      let site := qSite x
      let i := qIx x
      let q := (s'.site site).queue i
      (Ready (.qpush d a b) s → s'.qUsable x = true → q.closed = false → q.tail - q.head < q.size → exec (.qpush d a b) s =
        .next ((((s'.perform (q.slot site q.tail) 8 y.toNat).setQueue site i
          { q with tail := q.tail + 1, ops := q.ops + 1, closed := y == BitVec.allOnes 64 }).qSettle site i (q.waits.length + 1)).status d 0)) ∧
      (Ready (.qpush d a b) s → s'.qUsable x = false → exec (.qpush d a b) s = .next (s'.status d 6)) ∧
      (Ready (.qpush d a b) s → s'.qUsable x = true → q.closed = true → exec (.qpush d a b) s = .next ((s'.countOp site i).status d 4)) ∧
      (Ready (.qpush d a b) s → s'.qUsable x = true → q.closed = false → q.size ≤ q.tail - q.head →
        exec (.qpush d a b) s = .next ((s'.countOp site i).status d 5)) ∧
      (∀ j, Ready (.qcancel d a b) s → s'.qUsable x = true → y ≠ BitVec.allOnes 64 →
        (List.range' q.head ((if q.closed then q.tail - 1 else q.tail) - q.head)).find?
          (fun j => !q.gone.contains j && !s'.badAt (q.slot site j) 8 && s'.load (q.slot site j) 8 == y.toNat) = some j → exec (.qcancel d a b) s =
        .next ((s'.setQueue site i ({ q with ops := q.ops + 1, gone := q.gone ++ [j] }.trim (q.gone.length + 1))).status d 0)) ∧
      (Ready (.qcancel d a b) s → s'.qUsable x = false → exec (.qcancel d a b) s = .next (s'.status d 6)))

/-- R244 to R248, R315: gain heaps assigned to the team, for a task id below the capacity and a gain that is no NaN.
That the addition of hadj sets no flag is the model's choice (log 69). -/
def Obligations.GainHeapResults : Prop :=
  ∀ (s s' : State) (x y : W64) (d a b : BitVec 6) (c : BitVec 3),
    (s.read2 a b = (x, y, s') →
      let site := hSite x
      let i := hIx x
      let h := (s'.site site).heap i
      let id := fld y 0 16
      let gain := fld y 16 32
      (s'.hUsable x = true → id < h.cap → (unpack f32 gain).isNan = false →
        ∀ r ∈ ([(Instr.hpush, true, fun _ => some gain), (.hadj, false, gainSum gain),
            (.hmax, false, fun g => some (fMinMax f32 true g gain).1)] :
            List ((BitVec 6 → BitVec 6 → BitVec 6 → Instr) × Bool × (Nat → Option Nat))),
          Ready (r.1 d a b) s →
            let t := h.task id
            let n := h.update t (h.ops + 1) r.2.1 r.2.2
            exec (r.1 d a b) s = .next ((s'.setHeap site i ({ h.setTask id n.1 with ops := h.ops + 1 }.settle (h.waits.length + 1))).status d
              (n.1.st * 16 + bn n.2 * 4 + t.st))) ∧
      (s'.hUsable x = true → id < h.cap → Ready (.hdone d a b) s → exec (.hdone d a b) s =
        .next (((s'.setMe { s'.me with task := s'.me.task.filter fun k => !k.isHeapTask site i id }).setHeap site i
          (h.finish id).1).status d (h.finish id).2)) ∧
      (s'.hUsable x = true → Ready (.hres d a b) s →
        let r := wrap 64 (satS64 (h.res.toInt + y.toInt))
        exec (.hres d a b) s = .next ((s'.setHeap site i
          ({ h with res := r, ops := h.ops + 1 }.settle (h.waits.length + 1))).inter [.x d.toNat] (some [.x d.toNat r]))) ∧
      (s'.hUsable x = true → id < h.cap → Ready (.hread d a b) s → exec (.hread d a b) s =
        .next (s'.status d ((h.task id).st * 2 ^ 48 + (if (h.task id).st = 2 then (h.task id).p else (h.task id).g) * 2 ^ 16 + id))) ∧
      (∀ f ∈ [Instr.hpush, .hadj, .hmax, .hdone, .hres, .hread], Ready (f d a b) s → s'.hUsable x = false →
        exec (f d a b) s = s'.trapNow { cause := 0x16, reason := 3 })) ∧
    (s.readX a.toNat = (x, s') →
      let site := hSite x
      let i := hIx x
      let h := (s'.site site).heap i
      (∀ r h', Ready (.hpop d a c) s → (h.waits.find? fun w => w.ctx == s'.cur) = none → s'.hUsable x = true →
        Heap.pop { h with ops := h.ops + 1 } = some (r, h') → exec (.hpop d a c) s =
          .next ((s'.setHeap site i h').popResult true site i d c r (decide (fld x 16 1 ≠ 1)))) ∧
      (Ready (.hpop d a c) s → (h.waits.find? fun w => w.ctx == s'.cur) = none → s'.hUsable x = true →
        Heap.pop { h with ops := h.ops + 1 } = none →
          (fld x 16 1 = 1 → exec (.hpop d a c) s =
            .next ((s'.setHeap site i { h with ops := h.ops + 1 }).popResult true site i d c (false, 1) false)) ∧
          (fld x 16 1 = 0 → exec (.hpop d a c) s = s'.holdWait (some (.hpop site i)))))

/-! ## Sequencer, system registers, privileged slots, key slots (R27, R249 to R251, R309, R346 to R364) -/

/-- R309 to R311: trun starts a task record that its context may read; tchain names the next record, and tcond stores its condition
word, as a store under way (R255), while a sequencer runs. Each traps ILLEGAL where its rule says.
The cycle in which the store is performed is free (log 60), and the trap detail of a failing word is the model's choice (log 51). -/
def Obligations.SequencerResults : Prop :=
  ∀ (s s' : State) (x : W64) (a : BitVec 6), s.readX a.toNat = (x, s') →
    (∀ pa, Ready (.trun a) s → s.me.sqr.active = false →
      s'.addrCheck s'.clNo (s'.agentOf s'.cur) (s'.userOf s'.cur) x 64 .read = .ok pa → exec (.trun a) s =
        .next (s'.setMe { s'.me with
          sqr := { record := x, trun := true, step := 1, active := true, retPt := s'.issue.next, from_ := s'.issue.bpc } })) ∧
    (Ready (.trun a) s → s'.me.sqr.active = true → exec (.trun a) s = s'.trapNow { cause := 0x01, reason := 2 }) ∧
    (Ready (.tchain a) s → s'.me.sqr.active = true → exec (.tchain a) s =
      .next (s'.setMe { s'.me with sqr := { s'.me.sqr with ovr := some x } })) ∧
    (Ready (.tchain a) s → s'.me.sqr.active = false → exec (.tchain a) s = s'.trapNow { cause := 0x01, reason := 2 }) ∧
    (∀ pa, Ready (.tcond a) s → s'.me.sqr.active = true → lrCond s'.me.sqr.words ≠ 0 →
      s'.access (BitVec.ofNat 64 (lrCond s'.me.sqr.words)) 8 .write = .ok pa →
        ∃ t, exec (.tcond a) s = .next t ∧ t.mem = s.mem ∧
          UnderWay s' t { pa := pa, va := BitVec.ofNat 64 (lrCond s'.me.sqr.words), op := .store 8, arg := x, id := s.nextInter }) ∧
    (Ready (.tcond a) s → (s'.me.sqr.active = false ∨ lrCond s'.me.sqr.words = 0) →
      exec (.tcond a) s = s'.trapNow { cause := 0x01, reason := 2 })

/-- R27, R249: csrr of an allocated register at a sufficient level gives D its value at t + 1, with what the read clears; csrw takes
effect at t + 1. An unallocated number traps ILLEGAL with reason 2, a level too low PRIV with reason 2 and the number.
R28 to R32, R106, R290, R307, R345, R372: what the late write leaves in a register: its fields masked, clamped, or kept where the rule says so;
a register that is read only keeps its value (R4). R173, R183: an mfmt's format pair is the engine's from the context's next cycle on;
R237: a bwph's level is the context's; R31, R359: a segenter's local-store bounds are the cluster's.
The order of the two traps is the model's choice (log 18); values that the spec leaves open are free (logs 3 and 6); what is stored of a
RECBASE below the local store's top is the model's choice (log 72). -/
def Obligations.SystemRegisterAccess : Prop :=
  (∀ (s s' : State) (v : W64) (d : BitVec 6) (n : BitVec 12),
    (csrAllocated n.toNat = true → csrReadLevel n.toNat ≤ s.me.priv → s.issueCheck 0 [] [.x d.toNat] = none →
      exec (.csrr d n) s = .next ((s.fix 1 (.x d.toNat (s.csrValue n.toNat))).csrClear n.toNat)) ∧
    (csrAllocated n.toNat = true → csrWriteLevel n.toNat ≤ s.me.priv → s.issueCheck 0 [.x d.toNat] [] = none → s.readX d.toNat = (v, s') →
      exec (.csrw d n) s = .next { s' with issue := { s'.issue with late := s'.issue.late ++ [.csr n.toNat v] } }) ∧
    (csrAllocated n.toNat = false → exec (.csrr d n) s = s.trapNow { cause := 0x01, reason := 2 } ∧
      exec (.csrw d n) s = s.trapNow { cause := 0x01, reason := 2 }) ∧
    (csrAllocated n.toNat = true → s.me.priv < csrReadLevel n.toNat →
      exec (.csrr d n) s = s.trapNow { cause := 0x03, addr := BitVec.ofNat 64 n.toNat, reason := 2 }) ∧
    (csrAllocated n.toNat = true → s.me.priv < csrWriteLevel n.toNat →
      exec (.csrw d n) s = s.trapNow { cause := 0x03, addr := BitVec.ofNat 64 n.toNat, reason := 2 })) ∧
  (∀ (s : State) (v : W64),
    let at_ (n : Nat) : State := s.landLate (.csr n v)
    (at_ 0x000).me.fctl = BitVec.ofNat 64 (fld v 8 2 * 256 + fld v 0 5) ∧ (at_ 0x001).me.vflags = BitVec.ofNat 64 (fld v 0 5) ∧
    (at_ 0x010).me.ppriv = (if s.isMon s.clNo then min (fld v 6 2) 2 else min (fld v 6 2) 1) ∧
    (at_ 0x011).me.trapCause = fld v 0 8 ∧ (at_ 0x011).me.trapWrem = fld v 24 4 ∧ (fld v 9 1 = 1 → (at_ 0x011).me.shadow = []) ∧
    (at_ 0x012).me.trapPc = BitVec.ofNat 64 (fld v 2 46 * 4) ∧ (at_ 0x013).me.trapAddr = v ∧ (at_ 0x014).me.trapInfo = v ∧
    (at_ 0x015).me.trapVec = BitVec.ofNat 64 (fld v 2 46 * 4) ∧ (at_ 0x016).me.stkSpill = BitVec.ofNat 64 (fld v 6 58 * 64) ∧
    (at_ 0x017).me.ckptBase = BitVec.ofNat 64 (fld v 15 33 * 2 ^ 15) ∧ (at_ 0x017).me.dirty = BitVec.allOnes 104 ∧
    ((at_ 0x040).myCl.lsBase = min (fld v 0 6) 48 ∧ (at_ 0x040).myCl.lsLim = min s.myCl.lsLim 48) ∧
    ((at_ 0x041).myCl.lsLim = min (fld v 0 6) 48 ∧ (at_ 0x041).myCl.lsBase = min s.myCl.lsBase 48) ∧
    ((at_ 0x042).myCl.sbMode = true ↔ fld v 0 1 = 1) ∧ (at_ 0x044).myCl.recBase = BitVec.ofNat 64 (fld v 6 42 * 64) ∧
    (at_ 0x045).myCl.recLim = min (fld v 0 17) 65536 ∧
    ((at_ 0x100).myCl.ptroot = BitVec.ofNat 64 (fld v 14 34 * 2 ^ 14 + fld v 0 1) ∧ (at_ 0x100).myCl.tlb = [] ∧ (at_ 0x100).myCl.engTlb = []) ∧
    (s.expert s.clNo = true → (at_ 0x104).myCl.retIdle = max 4096 (fld v 16 24) ∧ (at_ 0x104).myCl.napIdle = max 16 (fld v 0 16) ∧
      (at_ 0x115).myCl.rhThr = max 256 (fld v 0 12) ∧ (at_ 0x310).mySite.mbWait = fld v 0 5 ∧
      (fld v 0 6 < fld v 8 6 → (at_ 0x114).myCl.wqHi = fld v 8 6 ∧ (at_ 0x114).myCl.wqLo = fld v 0 6)) ∧
    (s.expert s.clNo = false → ∀ n ∈ [0x101, 0x102, 0x104, 0x111, 0x114, 0x115, 0x310, 0x334], at_ n = s) ∧
    (fld v 8 6 ≤ fld v 0 6 → at_ 0x114 = s) ∧ (fld v 0 1 = 1 → (at_ 0x201).myCl.saveFail = false) ∧
    (at_ 0x203).myCl.clSave = fld v 23 25 * 2 ^ 23 ∧ (at_ 0x208).me.wqSel = fld v 0 10 ∧ (at_ 0x210).me.hpSel = fld v 0 4 ∧
    (fld v 0 1 = 1 → (at_ 0x309).myCl.rtc = [] ∧ (at_ 0x309).myCl.replicas = []) ∧ (at_ 0x330).me.iczSel = fld v 0 5 ∧
    (at_ 0x400).me.ksSel = fld v 0 6 ∧ (at_ 0x406).me.resSel = fld v 0 7 ∧ (at_ 0x410).mySite.sealHdr = fld v 0 48 ∧
    (at_ 0x411).mySite.sealSlot = fld v 0 6 ∧ (at_ 0x412).mySite.sealPar = (fld v 24 8, fld v 8 16, fld v 0 8) ∧
    (at_ 0x418).me.pmSel = fld v 0 12 ∧
    (∀ n ∈ [0x002, 0x003, 0x043, 0x046, 0x048, 0x049, 0x04A, 0x04B, 0x04C, 0x04D, 0x108, 0x109, 0x10A, 0x10B, 0x110, 0x112, 0x118, 0x119,
      0x11A, 0x308, 0x30A, 0x311, 0x331, 0x332, 0x333, 0x338], at_ n = s) ∧ (∀ n, 0x080 ≤ n → n < 0x100 → at_ n = s)) ∧
  (∀ (s : State) (e na nb : Nat), s.me.fmts = [] →
    let t := s.landLate (.mfmt e na nb)
    (t.myCl.engine e).na = (s.myCl.engine e).na ∧ (t.myCl.engine e).nb = (s.myCl.engine e).nb ∧
    ((t.landFmts s.cur).myCl.engine e).na = na ∧ ((t.landFmts s.cur).myCl.engine e).nb = nb) ∧
  (∀ (s : State) (l lo hi : Nat), (s.landLate (.phase l)).me.phase = l ∧
    (s.landLate (.lsBounds lo hi)).myCl.lsBase = min lo 48 ∧ (s.landLate (.lsBounds lo hi)).myCl.lsLim = min hi 48)

/-- R250, R251, R287, R288, R25, R332, R359: the slots of level SUPER. Invalidations drop what meets the range, and list the tokens over
it; the syncs end at once or wait while one of those is being revoked; eret returns; segenter enters a segment that verifies, its bounds
taking effect when every slot of its bundle has passed; pgmap is queued with its leaf.
The place of the constant blocks in a segment is the model's choice (log 19), and the cryptographic functions are
opaque (log 7). -/
def Obligations.PrivilegedSlotResults : Prop :=
  ∀ (s s' : State) (x y : W64) (a b : BitVec 6) (t : BitVec 3),
    (s.read2 a b = (x, y, s') → Ready (.tlbinv a b) s → ∃ u, exec (.tlbinv a b) s = .next u ∧
      ∀ e ∈ u.myCl.tlb ++ u.myCl.engTlb, e ∈ s.myCl.tlb ++ s.myCl.engTlb ∧
        meets (e.vpn * 2 ^ pageBits e.level) (2 ^ pageBits e.level) x.toNat y.toNat = false) ∧
    (s.read2 a b = (x, y, s') → Ready (.tlbinv a b) s → ∃ u, exec (.tlbinv a b) s = .next u ∧
      ∀ ix t, (ix, t) ∈ s.myCl.tokens → t.state ≠ 0 → meets t.va t.size x.toNat y.toNat = true → t.gen * 1024 + ix ∈ u.myCl.tlbInv) ∧
    (Ready .tlbsync s → (∀ k ∈ s.myCl.tlbInv, ∀ t, t = mget {} s.myCl.tokens (k % 1024) → ¬ (t.state = 2 ∧ t.gen = k / 1024)) →
      exec .tlbsync s = .next (s.setMyCl { s.myCl with tlbInv := [] })) ∧
    (∀ k ∈ s.myCl.tlbInv, (mget {} s.myCl.tokens (k % 1024)).state = 2 → (mget {} s.myCl.tokens (k % 1024)).gen = k / 1024 →
      Ready .tlbsync s → exec .tlbsync s = s.holdWait) ∧
    (s.read2 a b = (x, y, s') → Ready (.rtcinv a b) s → ∃ u, exec (.rtcinv a b) s = .next u ∧ u.mem = s.mem ∧
      (y = 0 → u.myCl.recCache = []) ∧
      ∀ e ∈ u.myCl.recCache, e ∈ s.myCl.recCache ∧ ¬ (e.1 + 2 ^ 16 - fld x 0 16) % 2 ^ 16 < y.toNat) ∧
    (Ready .rtcsync s → exec .rtcsync s = .next s) ∧
    (Ready .eret s → exec .eret s = .next (s.setMe s.me.eret)) ∧
    (s.readX a.toNat = (x, s') → Ready (.segenter a) s →
      let s' := s'.drainMine
      (∀ o u, s'.segCheck s'.clNo (s'.agentOf s'.cur) s'.myCl.ti.slot x.toNat = .ok o →
        s'.putConsts s'.clNo (s'.agentOf s'.cur) o.hdr.const o.consts = .ok u → ∃ z, exec (.segenter a) s = .next z ∧
          z.issue.target = some (BitVec.ofNat 64 o.hdr.entry) ∧ z.me.seg = o.segment ∧ z.me.fetchBuf = none ∧
          z.issue.late = s.issue.late ++ [.lsBounds o.hdr.lsBase o.hdr.lsLim]) ∧
      (∀ r d, s'.segCheck s'.clNo (s'.agentOf s'.cur) s'.myCl.ti.slot x.toNat = .error (.check r d) →
        exec (.segenter a) s = s'.trapNow (segTrap x r d))) ∧
    (s.read2 a b = (x, y, s') → Ready (.pgmap t a b) s → (s'.tl s'.cur t.toNat).wraps 1 = false →
      (fld y 7 2 = 3 ∨ x.toNat % 2 ^ pageBits (fld y 7 2) = 0 → exec (.pgmap t a b) s = .next (s'.withOp t.toNat 1 fun u op =>
        u.setMyCl { u.myCl with pgmaps := u.myCl.pgmaps ++ [{ op := op, va := x, pte := y, sealedCtx := u.me.sealedCtx }] })) ∧
      (fld y 7 2 < 3 → x.toNat % 2 ^ pageBits (fld y 7 2) ≠ 0 →
        exec (.pgmap t a b) s = s'.trapNow (alignTrap x (2 ^ pageBits (fld y 7 2)))))

/-- R346 to R357: kslot at MONITOR on an operand block in bounds, and the status each operation answers: OK with its effect, STATE
(1) for slot 0 or the wrong state, BUSY (4) while a rotation or a scrub of the slot runs; a zeroise ends a rotation, so that a scrub alone
makes it BUSY. A zeroise does not read its second operand.
The precedence of the statuses is the model's choice (log 43), and the cryptographic functions are opaque (log 7). -/
def Obligations.KeySlotResults : Prop :=
  ∀ (s s0 s' : State) (x y : W64) (d a b : BitVec 6) (n : Nat), s.read2 a b = (x, y, s0) →
    -- n bytes of the block are read
    let u := s0.drainMine
    s' = (if n = 0 then u else u.readAt u.clNo (lsAt u.clNo y.toNat) n) →
    let k := fld x 8 6
    let block (m : Nat) : Prop := n = m ∧ y.toNat % 64 = 0 ∧ u.myCl.lsOk y.toNat n = true ∧ s'.badAt (lsAt u.clNo y.toNat) n = false
    let ws := s'.lsWords y.toNat 24
    (Ready (.kslotQuery d a b) s → n = 0 → y.toNat % 64 = 0 → u.myCl.lsOk y.toNat 112 = true → fld x 0 3 < 5 →
      exec (.kslotQuery d a b) s = .next ((s'.putLsWords y.toNat (s'.queryBlock k)).status d 0)) ∧
    (Ready (.kslotQuery d a b) s → n = 0 → y.toNat % 64 = 0 → u.myCl.lsOk y.toNat 112 = true → 5 ≤ fld x 0 3 → exec (.kslotQuery d a b) s = .next (s'.status d 5)) ∧
    (∀ s1, s.readX a.toNat = (x, s1) → Ready (.kslotZeroise d a b) s →
      let v := s1.drainMine
      let scrubbed := v.mySite.scrub.active = true ∧ v.mySite.scrub.slot = k
      (k = 0 → exec (.kslotZeroise d a b) s = .next (v.status d 1)) ∧
      (k ≠ 0 → scrubbed → exec (.kslotZeroise d a b) s = .next (v.status d 4)) ∧
      (k ≠ 0 → ¬ scrubbed → exec (.kslotZeroise d a b) s = .next ((v.zeroiseSlot v.siteNo k).status d 0))) ∧
    (block 192 → k ≠ 0 → s'.slotBusy k = true → ∀ i ∈ [Instr.kslotInstall d a b, .kslotRotate d a b], Ready i s →
      exec i s = .next (s'.status d 4)) ∧
    (Ready (.kslotBind d a b) s → block 112 → k ≠ 0 → s'.slotBusy k = true → exec (.kslotBind d a b) s = .next (s'.status d 4)) ∧
    (∀ p, Ready (.kslotInstall d a b) s → block 192 → k ≠ 0 → s'.slotBusy k = false → (s'.slotOf k).st = .empty →
      s'.mySite.sealOk = true → s'.unwrap k ws = (0, p) → exec (.kslotInstall d a b) s = .next ((s'.setSlot s'.siteNo k
        { st := .loaded, dataKey := p.setWidth 512, codeKey := (p >>> 512).setWidth 256, signer := blockSigner ws }).status d 0)) ∧
    (Ready (.kslotInstall d a b) s → block 192 → k ≠ 0 → s'.slotBusy k = false → (s'.slotOf k).st ≠ .empty →
      exec (.kslotInstall d a b) s = .next (s'.status d 1)) ∧
    (∀ p, Ready (.kslotRotate d a b) s → block 192 → k ≠ 0 → s'.slotBusy k = false →
      (∀ cl ∈ s'.slicesOf s'.siteNo k, (s'.cl cl).kbActive = false) → (s'.slotOf k).st = .bound → blockSigner ws = (s'.slotOf k).signer →
      s'.unwrap k ws = (0, p) → exec (.kslotRotate d a b) s =
        .next (((s'.slicesOf s'.siteNo k).foldl (fun u cl => u.setCl cl { u.cl cl with kbActive := true, kbSlot := k, kbPos := 0 })
          (s'.setSlot s'.siteNo k { s'.slotOf k with st := .rotating, newKey := p.setWidth 512 })).status d 0)) ∧
    (∀ w0 rs, Ready (.kslotBind d a b) s → block 112 → k ≠ 0 → s'.slotBusy k = false → (s'.slotOf k).st = .loaded →
      (s'.lsWords y.toNat 14).getD 0 0 = w0 → ((s'.lsWords y.toNat 14).drop 1).take 6 = rs →
      fld w0 19 1 = 0 → fld w0 24 40 = 0 → 1 ≤ fld w0 12 7 → fld w0 12 7 ≤ 64 → (s'.lsWords y.toNat 14).getD 13 0 = 0 →
      (∀ r ∈ rs, s'.bindRange r = true) → (∀ i < fld w0 12 7, fld w0 0 12 + i < 4096 ∧ (s'.pb (fld w0 0 12 + i)).letters = [] ∧
        (s'.pb (fld w0 0 12 + i)).sealedTo = none) → (s'.session (fld w0 20 4)).st = 2 →
      exec (.kslotBind d a b) s = .next ((s'.bindSlot k y (fld w0 0 12) (fld w0 12 7) (fld w0 20 4) rs).status d 0)) ∧
    (Ready (.kslotBind d a b) s → block 112 → k ≠ 0 → s'.slotBusy k = false → (s'.slotOf k).st ≠ .loaded →
      exec (.kslotBind d a b) s = .next (s'.status d 1)) ∧
    (∀ i ∈ [Instr.kslotQuery, .kslotInstall, .kslotRotate, .kslotBind], Ready (i d a b) s → y.toNat % 64 ≠ 0 →
      exec (i d a b) s = u.trapNow (alignTrap y 64))

/-- R361, R364: segseal of blocks that all seal leaves the state they make, and traps SEGSEAL reason 9 on a range outside the
segment; it is held in BLOCK while an earlier access of its context waits at a pigeonhole bank (R255). scrub of a zeroised slot's units starts the engine.
The cryptographic functions are opaque (log 7). -/
def Obligations.SealAndScrubResults : Prop :=
  ∀ (s s' : State) (x y : W64) (d a b : BitVec 6),
    (s.read2 a b = (x, y, s') → ∀ c ∈ ([(Instr.segsealSeal, false), (.segsealPatch, true)] : List ((BitVec 6 → BitVec 6 → Instr) × Bool)),
      Ready (c.1 a b) s →
      (s'.pigPending s'.cur = true → exec (c.1 a b) s = s'.hold .block) ∧
      (s'.pigPending s'.cur = false → ∀ h u', s'.drainEvery.sealHeader c.2 = .ok (h, u') →
        let inside := x.toNat % 256 = 0 ∧ fld y 0 48 % 256 = 0 ∧ h.text ≤ x.toNat ∧ x.toNat + fld y 0 48 ≤ h.text + 256 * h.nCode ∧
          h.text % 256 = 0
        (∀ u t, inside → u'.segsealRun c.2 h u'.mySite.sealSlot ((x.toNat - h.text) / 256) (fld y 0 48 / 256) = (u, 0, t) →
          exec (c.1 a b) s = .next u) ∧
        (¬ inside → exec (c.1 a b) s = u'.trapNow (segTrap (BitVec.ofNat 64 u'.mySite.sealHdr) 9 0)))) ∧
    (s.readX a.toNat = (x, s') → Ready (.scrub d a) s → x.toNat % 64 = 0 → s'.drainMine.myCl.lsOk x.toNat 8 = true →
      let u := s'.drainMine
      let h := (u.lsWords x.toNat 1).getD 0 0
      let n := fld h 8 8
      let s' := u.readAt u.clNo (lsAt u.clNo x.toNat) (8 * (n + 1))
      u.myCl.lsOk x.toNat (8 * (n + 1)) = true → s'.badAt (lsAt s'.clNo x.toNat) (8 * (n + 1)) = false →
        (s'.mySite.scrub.active = true → exec (.scrub d a) s = .next (s'.status d 4)) ∧
        (s'.mySite.scrub.active = false → (s'.slotOf (fld h 0 6)).st ≠ .zeroised → exec (.scrub d a) s = .next (s'.status d 1)) ∧
        (s'.mySite.scrub.active = false → (s'.slotOf (fld h 0 6)).st = .zeroised → n ≠ 0 →
          (∀ w ∈ (s'.lsWords x.toNat (n + 1)).drop 1, s'.scrubRange (fld h 0 6) w = true) → exec (.scrub d a) s =
            .next ((s'.setSite s'.siteNo { s'.mySite with scrub :=
              { active := true, slot := fld h 0 6, entry := 1, n := n, words := (s'.lsWords x.toNat (n + 1)).drop 1 } }).status d 0)))

/-! ## Steps of contexts and of the machine: each completes, with the effect the spec gives it -/

/-- R14, R62, R63, R75, R89 to R93, R103, R314, R360: opening a block, landings and arrivals, deferred traps, deliveries to a bound
queue register, and an unallocated slot word. In COMPENSATE nothing lands and no deferred trap is taken (R93).
When a known result lands, and the count at which a deferred trap's offsets are taken, are the model's choices (logs 46 and 47). -/
def Obligations.ContextStepResults : Prop :=
  ∀ (s : State) (g : Nat),
    let c := s.ctx g
    (c.atBundle = true → c.replayed = none → s.stopping g = false →
      (∀ t, s.fetchBlock g (c.pc.toNat / 256) = .error t →
        exec (.blockOpen g) s = .next ((s.logTrap g t).trapEntry g t c.pc)) ∧
      (∀ p z, s.fetchBlock g (c.pc.toNat / 256) = .ok (p, z) →
        (∀ ws, slotsAt p c.pc = .ok ws → exec (.blockOpen g) s = .next z) ∧
        (∀ e, slotsAt p c.pc = .error e →
          exec (.blockOpen g) s = .next (z.trapEntry g { cause := 0x02, reason := e.code } c.pc)))) ∧
    (c.cstate = .compensate → exec (.fixedLatencyLanding g) s = .next (s.setCtx g c)) ∧
    (c.cstate ≠ .compensate → ∃ t, exec (.fixedLatencyLanding g) s = .next t ∧ (t.ctx g).pending = c.pending.filter (fun p => decide (c.ccount < p.due)) ∧
      (t.ctx g).ccount = c.ccount ∧ (∀ h, h ≠ g → t.ctx h = s.ctx h) ∧ t.mem = s.mem) ∧
    (∀ id f, c.tlErrs.all (fun e => e.1 != id) → c.inflight.find? (fun f => f.id == id) = some f →
      (c.canLand f = true → exec (.interlockedResultArrival g id) s = .next (s.setCtx g (c.landInflight f))) ∧
      (c.canLand f = false → exec (.interlockedResultArrival g id) s = .next s)) ∧
    (let now := (s.cl (g / 4)).cycle
     (c.cstate = .compensate → c.late now = false →
       exec (.compensatedResultArrival g) s = .next (s.setCtx g { c with cstate := .held }.landAll)) ∧
     (c.late now = true → exec (.compensatedResultArrival g) s = .next (s.setCtx g c))) ∧
    (∀ t ts, c.memErrs = t :: ts → c.live = .run → c.cstate ≠ .compensate → s.answered g = false → exec (.loadMemoryError g) s =
      .next ((s.setCtx g { c with memErrs := ts }).takeDeferred g t)) ∧
    (∀ t ts, c.taskFaults = t :: ts → c.live = .run → c.cstate ≠ .compensate → s.answered g = false → exec (.taskfaultDelivery g) s =
      .next ((s.setCtx g { c with taskFaults := ts }).takeDeferred g t)) ∧
    (∀ q r, q < 20 → (if q < 16 then (c.getQ q).bound else (c.getVQ (q - 16)).bound) = some (.ring r) →
      exec (.boundQueueDelivery g q) s = .next (s.deliverChunk g r)) ∧
    (∀ q sid, q < 20 → (if q < 16 then (c.getQ q).bound else (c.getVQ (q - 16)).bound) = some (.delivery sid) →
      exec (.boundQueueDelivery g q) s = .next (s.deliverEntry g sid)) ∧
    (∀ q e k, 16 ≤ q → (c.getVQ (q - 16)).bound = some (.drain e) →
      ((s.cl (g / 4)).engine e).drains.findIdx? (fun d => d.ctx == g && d.vq == q - 16) = some k →
      exec (.boundQueueDelivery g q) s = .next (s.deliverDrain (g / 4) e k)) ∧
    (∀ (w : BitVec 32) e, s.me.live = .run → unallocated w.toNat = some e →
      exec (.unallocatedEncoding w) s = .next (s.trapEntry s.cur { cause := 0x01, reason := e.code } s.me.pc)) ∧
    (∀ (w : BitVec 32), unallocated w.toNat = none → exec (.unallocatedEncoding w) s = .next s)

/-- R170, R175, R176, R184 to R187: an idle engine takes the head of its queue; mzero, mwrv, mrdv and mrdq act on their accumulator,
and mst and mma begin; a repetition is accepted; the MMA and the store complete, or fail at a word that cannot be read (R177, R284); a
drain buffer pushes a row, and one whose context has ended is freed at once (R185). A store makes its writes in two steps, and which in the
first is free; that it is two, each granule in one of them, and the address of a failure, are the model's choices (logs 81 and 61). -/
def Obligations.EngineStepResults : Prop :=
  ∀ (s : State) (cl e : Nat),
    let x := (s.cl cl).engine e
    (∀ q qs, x.run = none → x.queue = q :: qs → s.opDead q.op = false →
      let z := s.setEngine cl e { x with queue := qs }
      (∀ k, q.act = .mzero k → exec (.engineCommandStart cl e) s = .next ((z.zeroMem (accAt cl (k * 16384)) 16384).opDone q.op)) ∧
      (∀ k r v, q.act = .mwrv k r v → exec (.engineCommandStart cl e) s = .next (z.setAccRow cl k r v)) ∧
      (∀ k r id vd v u, z.takeRow cl k r = (v, u) →
        (q.act = .mrd k r id vd false → exec (.engineCommandStart cl e) s = .next (u.answer q.op.ctx id [.v vd v])) ∧
        (q.act = .mrd k r id vd true → exec (.engineCommandStart cl e) s = .next ((u.answer q.op.ctx id [.v vd v]).setAccRow cl k r 0))) ∧
      (∀ k v, q.act = .mdrain k v →
        let words := [(accAt cl (k * 16384), 16384)]
        let u := z.correctAll cl words
        let y := (u.cl cl).engine e
        (2 ≤ x.drains.length → exec (.engineCommandStart cl e) s = .next s) ∧
        (x.drains.length < 2 → u.firstBadOf words = none → exec (.engineCommandStart cl e) s = .next ((u.setEngine cl e
          { y with drains := y.drains ++ (if (u.ctx q.op.ctx).live = .exiting ∨ (u.ctx q.op.ctx).live = .off then []
            else [{ ctx := q.op.ctx, vq := v, rows := tab (u.accRow cl k) 64 }]) }).opDone q.op)) ∧
        (∀ pa, x.drains.length < 2 → u.firstBadOf words = some pa →
          exec (.engineCommandStart cl e) s = .next ((u.setVBound q.op.ctx v none).opFailAt q.op pa))) ∧
      (∀ kind k y r, q.act = .mst kind k y r → exec (.engineCommandStart cl e) s =
        .next (z.setEngine cl e { x with queue := qs, run := some { cmd := q } })) ∧
      (∀ k m na nb p ps rpt, q.act = .mma k m na nb (p :: ps) rpt → exec (.engineCommandStart cl e) s =
        .next (z.setEngine cl e { x with queue := qs, run := some { cmd := q, cur := if rpt then none else some (p.1, p.2, q.stamp) } }))) ∧
    (∀ r k m na nb p ps rpt, x.run = some r → r.cur = none → r.cmd.act = .mma k m na nb (p :: ps) rpt →
      ∃ t, exec (.mmaRepetitionAccept cl e) s = .next t ∧
        ((t.cl cl).engine e).run = some { r with cur := some (p.1, p.2, (s.cl cl).stamp) } ∧
        (t.cl cl).stamp = (s.cl cl).stamp + 1 ∧ t.mem = s.mem) ∧
    (∀ r sa sb st k m na nb p rpt, x.run = some r → r.cur = some (sa, sb, st) → r.cmd.act = .mma k m na nb [p] rpt →
      (s.cl cl).loadBefore sa st = false → (s.cl cl).loadBefore sb st = false → s.opDead r.cmd.op = false →
      let words := mmaReads cl k m na nb sa sb
      let u := s.correctAll cl words
      (∀ rows fl, u.firstBadOf words = none → u.mmaResult cl k m na nb sa sb = (rows, fl) →
        ∃ t, exec (.mmaCompletion cl e) s = .next t ∧ ((t.cl cl).engine e).run = none ∧
          t.mem = (rows.zipIdx.foldl (fun u v => u.setAccRow cl k v.2 v.1) u).mem) ∧
      (∀ pa, u.firstBadOf words = some pa →
        let z := u.opFailAt r.cmd.op pa
        exec (.mmaCompletion cl e) s = .next (z.setEngine cl e { (z.cl cl).engine e with run := none }))) ∧
    (∀ r kind k y rc, x.run = some r → r.cmd.act = .mst kind k y rc →
      let words := mstReads cl k y rc
      let u := s.correctAll cl words
      let idle (z : State) : State := z.setEngine cl e { (z.cl cl).engine e with run := none }
      (u.opDead r.cmd.op = true → exec (.mstCompletion cl e) s = .next (idle u)) ∧
      (∀ pa, u.opDead r.cmd.op = false → u.firstBadOf words = some pa →
        exec (.mstCompletion cl e) s = .next ((idle u).opFailAt r.cmd.op pa)) ∧
      (∀ ws fl, u.opDead r.cmd.op = false → u.firstBadOf words = none → u.mstWrites cl kind k y rc = (ws, fl) →
        (∀ z, r.half = none → u.engWriteAll cl r.cmd.op ws = (z, none) →
          ∃ t, exec (.mstCompletion cl e) s = .next t ∧ ((t.cl cl).engine e).run = some { r with half := some u.free }) ∧
        (∀ z err, r.half = none → u.engWriteAll cl r.cmd.op ws = (z, some err) →
          exec (.mstCompletion cl e) s = .next ((idle z).opFail r.cmd.op err)) ∧
        (∀ h z, r.half = some h → u.engWriteAll cl r.cmd.op (freeHalf h false ws) = (z, none) →
          exec (.mstCompletion cl e) s = .next (((idle z).opFlags r.cmd.op fl).opDone r.cmd.op)) ∧
        (∀ h z err, r.half = some h → u.engWriteAll cl r.cmd.op (freeHalf h false ws) = (z, some err) →
          exec (.mstCompletion cl e) s = .next ((idle z).opFail r.cmd.op err)))) ∧
    (∀ k d v vs, x.drains.findIdx? s.drainRoom = some k → x.drains[k]? = some d → d.rows = v :: vs → vs ≠ [] →
      exec (.drainRowDelivery cl e) s = .next ((s.setCtx d.ctx ((s.ctx d.ctx).land (.v (28 + d.vq) v))).setEngine cl e
        { x with drains := setAt x.drains k { d with rows := vs } }))

/-- R181, R182, R193 to R197: loads of operand slots, and the ring engine's rows, registrations, credits and writes. A row is written in two
steps, a free half of its granules in each, and lands with the second.
Which rows of a ring are fetched while its context is stopped, that a wrout that fails retires the rows it took, when its rows count as
written, and that a row takes two steps, are the model's choices (logs 24, 78, 11 and 81). -/
def Obligations.LoaderAndRingStepResults : Prop :=
  ∀ (s : State),
    (∀ cl k l y rc, (s.cl cl).loader[k]? = some l → l.src = .tile y rc → (s.cl cl).loadReady l = true →
      ∀ bs u, readAll (fun q s => s.loadBlk cl l y rc (q / 8) (q % 8)) (List.range 512) s = (bs, u) →
        exec (.oloadCompletion cl k) s = .next (u.endLoad cl l bs)) ∧
    (∀ cl k l r blk0 row x, (s.cl cl).loader[k]? = some l → l.src = .ring r blk0 row → (s.ctx l.op.ctx).ring r = some x →
      (∀ bs u, (s.cl cl).loadReady l = true → (∀ i, i < l.vr → x.hasLanded (row + i) = true) →
        readAll (fun q s => s.ringBlk cl l x blk0 row (q / 8) (q % 8)) (List.range 512) s = (bs, u) →
        exec (.ofillCompletion cl k) s = .next ((u.endLoad cl l bs).ringSettle l.op.ctx r)) ∧
      (∀ i, i < l.vr → x.hasLanded (row + i) = false → exec (.ofillCompletion cl k) s = .next s)) ∧
    (∀ g r x, (s.ctx g).ring r = some x →
      ((s.ctx g).paused = true → x.part = none → s.ofillWaits g r x = false → exec (.ringRowLanding g r) s = .next s) ∧
      (∀ p, x.mode = 0 → x.part = some p → p.again = false → p.row < x.rows → exec (.ringRowLanding g r) s =
        .next ((((s.putSome g x p.row p false).opFlags ((x.owner p.row).getD { s.plainOp with
          ctx := g, user := s.userOf g, agent := s.agentOf g }) p.fl).endRow g r x p.row
          ((x.owner p.row).getD { s.plainOp with ctx := g, user := s.userOf g, agent := s.agentOf g }) p.val).ringSettle g r)) ∧
      ((s.ctx g).paused = false → x.freeing = none → x.part = none →
        (∀ a, s.flushNext g r x = none → s.nextFetch g r x = some a →
          a = x.landed ∧ x.mode = 0 ∧ a < x.first + x.depth ∧ (a < x.rows → ∀ c ∈ x.credits, c.2 ≠ 0) ∧
          (a < x.rows → exec (.ringRowLanding g r) s = .next ((s.fetchNext g r x a).ringSettle g r)) ∧
          (x.rows ≤ a → exec (.ringRowLanding g r) s = .next (((s.putRow g x a 0).setRing g r (x.land a)).ringSettle g r))) ∧
        (s.flushNext g r x = none → s.nextFetch g r x = none → exec (.ringRowLanding g r) s = .next s)) ∧
      (∀ k op a n, (s.ctx g).paused = false → x.cmds.findIdx (fun c => c.2.retires) = k → x.cmds[k]? = some (op, .out a n) →
        s.opDead op = false →
        let fails (u : State) (e : Nat × W64) : Prop := exec (.ringRowWriteAccept g r) s =
          .next (((u.opFail op e).setRing g r { x with
            next := x.next + (n - a), cmds := setAt x.cmds k (op, .out n n), part := none }).ringSettle g r)
        (∀ u, x.part = none → s.writeRow (g / 4) op x (x.first + a) = (u, none) →
          let z : State := { s with free := s.free + 16 * x.rowel + 1 }
          exec (.ringRowWriteAccept g r) s = .next ((z.writeHalf (g / 4) op x (x.first + a) s.free true).1.setRing g r
            { x with part := some { row := x.first + a, free := s.free, val := 0 } })) ∧
        (∀ u e, x.part = none → s.writeRow (g / 4) op x (x.first + a) = (u, some e) → fails u e) ∧
        (∀ p u, x.part = some p → s.writeHalf (g / 4) op x (x.first + a) p.free false = (u, none) → exec (.ringRowWriteAccept g r) s =
          .next ((u.setRing g r { x with next := x.next + 1, cmds := setAt x.cmds k (op, .out (a + 1) n), part := none }).ringSettle g r)) ∧
        (∀ p u e, x.part = some p → s.writeHalf (g / 4) op x (x.first + a) p.free false = (u, some e) → fails u e))) ∧
    (∀ m msg op c r src sr v b x, s.arrived m = some msg → msg.act = .ringRow op c r src sr v b → (s.ctx c).ring r = some x →
      x.mode = 2 → x.registered = true → s.gangCl (c / 4) x.mcf = some (src / 4) → x.dctx = src % 4 → x.dring = sr →
      (x.part = none → exec (.ringMulticastRow m) s = .next (s.beginRow c r x x.landed v 0)) ∧
      (∀ p, x.part = some p → exec (.ringMulticastRow m) s = .next
        (((((s.take m).putSome c x x.landed p false).setRing c r { x.land x.landed with part := none }).ringSettle c r).ringSettle src sr))) ∧
    (∀ g r x y cl, (s.ctx g).ring r = some x → x.mode = 2 → x.registered = false → s.gangCl (g / 4) x.mcf = some cl →
      (s.ctx (cl * 4 + x.dctx)).ring x.dring = some y → y.mode = 0 →
      let me := (s.cl (g / 4)).ti.gangIx
      y.mcf ≤ me → me < y.mcf + y.mcn → y.dctx = g % 4 → y.dring = r → mget 1 y.dests me ≠ 0 →
      y.freeing = none → s.creditsOut (cl * 4 + x.dctx) x.dring me = false → exec (.recvRegistration g r) s =
        .next (((s.setRing (cl * 4 + x.dctx) x.dring { y with dests := mset y.dests me (x.first + x.depth - x.landed + 1) }).setRing
        g r { x with registered := true }).ringSettle g r)) ∧
    (∀ m msg op c r i n x, s.arrived m = some msg → msg.act = .credit op c r i n → ((s.take m).ctx c).ring r = some x → x.mode = 0 →
      mget 0 x.dests i ≠ 0 → exec (.ringCreditReturn m) s =
        .next (((s.take m).setRing c r { x with dests := mset x.dests i (mget 0 x.dests i + n) }).ringSettle c r)) ∧
    (∀ g r x q ch n, (s.ctx g).ring r = some x → x.bind = some (q, ch, n) → x.hasLanded n = true → n < x.first + x.depth →
      ((s.ctx g).getVQ q).ents.length < 4 → (s.ctx g).live = .run → (x.mode ≠ 0 ∨ n + 1 < x.rows) →
      ∀ v u, s.takeBytes (g / 4) (lsAt (g / 4) (x.rowAt n + ch * 256)) = (v, u) →
        exec (.ringBoundRowDelivery g r) s = .next (((u.setCtx g ((u.ctx g).land (.v (28 + q) v))).setRing g r
        { x with bind := some (q, ch, n + 1) }).ringSettle g r))

/-! ## Packets, notices and links -/

/-- R202, R206, R209, R210, R327 to R332: a request at its target's port is rejected, answered STALE, or accepted and held until it is
applied; a held packet applied; the answers at the origin, whichever comes first; translations, tokens and their invalidation.
R327: an ordered packet is applied once every earlier one of its context has resolved, and waits before.
When an accepted packet is applied is free within a bound (log 66), clusters of another panel are not modelled (log 14), that a packet
never sent counts as resolved is the model's choice (log 80), and so are the operand read again and the answer delivered in two steps
(log 81). -/
def Obligations.RemoteStepResults : Prop :=
  (∀ (s : State) (m : Nat) (msg : Msg), s.arrived m = some msg →
    let z := s.take m
    let cl := msg.dst
    (∀ p, msg.act = .req p →
      (p.late = none → z.reread p = (.ok p, z)) ∧
      (∀ e u, z.reread p = (.error e, u) → exec (.remoteRequestArrival m) s =
        .next (((u.opFail p.op e).accFail (p.op.ctx / 4) p e.1 0).resolveSeq cl p.op.ctx p.seq)) ∧
      (∀ q u, z.reread p = (.ok q, u) →
        let f := mget {} (u.cl cl).frank q.win
        ((u.cl cl).ti.ranks.findIdx? (· == q.op.ctx / 4) = none →
          exec (.remoteRequestArrival m) s = .next (u.rejectPacket cl q 2 false)) ∧
        (∀ o code, (u.cl cl).ti.ranks.findIdx? (· == q.op.ctx / 4) = some o → f.test q o = some code →
          exec (.remoteRequestArrival m) s = .next ((u.rejectPacket cl q code true).resolveSeq cl q.op.ctx q.seq)) ∧
        (∀ o, (u.cl cl).ti.ranks.findIdx? (· == q.op.ctx / 4) = some o → f.test q o = none →
          ((u.cl cl).liveToken q = none → exec (.remoteRequestArrival m) s = .next (u.respond cl q (.stale q))) ∧
          (∀ t v, (u.cl cl).liveToken q = some t → u.clearPacket cl { q with base := f.base } t = (v, none) →
            exec (.remoteRequestArrival m) s = .next v) ∧
          (∀ t pas v, (u.cl cl).liveToken q = some t → u.clearPacket cl { q with base := f.base } t = (v, some pas) →
            ∃ due, (u.cl cl).cycle ≤ due ∧
              let y : State := { v with free := v.free + 1 }
              let h := y.setCl cl { y.cl cl with held := (y.cl cl).held ++ [{ q with base := f.base, due := due }] }
              exec (.remoteRequestArrival m) s =
                .next (if q.kind.answers = true ∨ q.op.ctx / 4 = cl then h else h.respond cl { q with base := f.base } (.accepted { q with base := f.base })))))) ∧
    (∀ p, msg.act = .accepted p → exec (.remoteResponseArrival m) s = .next (z.accNote cl p true false 0)) ∧
    (∀ p fl, msg.act = .applied p fl → exec (.remoteResponseArrival m) s = .next (z.accNote cl p false true fl)) ∧
    (∀ p v fl lines, msg.act = .data p v fl lines → (s.cl cl).accs.any (fun a => a.id == p.acc) = true →
      let ws := p.delivery v
      let fails (u : State) (e : Nat × W64) : Prop := exec (.remoteResponseArrival m) s = .next ((u.opFail p.op e).accFail cl p e.1 0)
      (p.row = none → p.half = none →
        let u0 : State := { s with free := s.free + ws.length / 64 + 1 }
        (∀ t, u0.engWriteAll cl p.op (freeHalf s.free true ws) = (t, none) → exec (.remoteResponseArrival m) s =
          .next (t.setAct m (.data { p with half := some s.free } v fl lines))) ∧
        (∀ t e, u0.engWriteAll cl p.op (freeHalf s.free true ws) = (t, some e) → fails (t.take m) e)) ∧
      (∀ k, p.row = none → p.half = some k →
        (∀ u, z.engWriteAll cl p.op (freeHalf k false ws) = (u, none) →
          exec (.remoteResponseArrival m) s = .next ((u.keepReplicas cl p lines).accNote cl p true true fl)) ∧
        (∀ u e, z.engWriteAll cl p.op (freeHalf k false ws) = (u, some e) → fails u e)) ∧
      (∀ row, p.row = some row →
        exec (.remoteResponseArrival m) s = .next ((z.keepRow cl p row v).accNote cl p true true 0))) ∧
    (∀ p code, msg.act = .reject p code → exec (.remoteResponseArrival m) s = .next (z.accFail cl p code 1)) ∧
    (∀ p, msg.act = .stale p → exec (.remoteResponseArrival m) s = .next (z.resend cl p)) ∧
    (∀ src rank win off rd wr ra room, msg.act = .transReq src rank win off rd wr ra room →
      let f := mget {} (s.cl cl).frank win
      let fails (u : State) (code : Nat) : Prop := exec (.translationRequest m) s =
        .next (((u.take m).noteReject cl win src ra code true).send cl src (.transFail rank win off code rd wr))
      ((f.state = 0 ∨ f.len ≤ off) → fails s 4) ∧
      (∀ tr, f.state ≠ 0 → off < f.len → s.windowPage cl f off (reqAcc rd wr) = .error tr →
        fails (s.logFor cl (s.portAgent cl) tr) (portCode tr)) ∧
      (∀ t, f.state ≠ 0 → off < f.len → s.windowPage cl f off (reqAcc rd wr) = .ok t →
        let u := if t.va < lsTop then s else s.noteTlb cl (s.portAgent cl) true (f.base + off)
        let c := u.cl cl
        let same (e : Nat × Token) : Bool := e.2.state == 1 && e.2.win == win && e.2.va == t.va && e.2.home == t.home &&
          e.2.rd == t.rd && e.2.wr == t.wr
        (∀ ix old, c.tokens.find? same = some (ix, old) →
          exec (.translationRequest m) s = .next ((u.take m).issueToken cl src rank win ix old)) ∧
        (∀ ix, c.tokens.find? same = none → c.freeToken = some ix → exec (.translationRequest m) s =
          .next (((u.take m).setCl cl { c with tokAge := c.tokAge + 1 }).issueToken cl src rank win ix
            { t with win := win, gen := ((mget {} c.tokens ix).gen + 1) % 2 ^ 22, state := 1, age := c.tokAge })) ∧
        (c.tokens.find? same = none → c.freeToken = none → room = true → exec (.translationRequest m) s = .next u))) ∧
    (∀ e, msg.act = .transOk e → (s.cl cl).rtcWait = [] →
      ∃ t, exec (.translationReply m) s = .next t ∧ ∀ p, Packet.waitsFor e p = true → (t.cl cl).rtcFind p = some e) ∧
    (∀ rank win off code rd wr, msg.act = .transFail rank win off code rd wr →
      let w := z.takeWaiting cl (Packet.asked rank win off rd wr)
      exec (.translationReply m) s = .next (w.1.foldl (fun s p => (s.accFail cl p code 1).skipSeq p) w.2)) ∧
    (∀ port gen ix, msg.act = .inval port gen ix → ∃ t, exec (.tokenInvalidation m) s = .next t ∧
      (∀ e ∈ (t.cl cl).rtc, ¬(s.rankCl cl e.rank = some port ∧ e.gen = gen ∧ e.ix = ix))) ∧
    (∀ ix gen, msg.act = .invalAck ix gen → (mget {} (s.cl cl).tokens ix).state = 2 → (mget {} (s.cl cl).tokens ix).gen = gen →
      msg.src ∈ (mget {} (s.cl cl).tokens ix).wait → ∃ t, exec (.tokenInvalidationAck m) s = .next t ∧
        (mget {} (t.cl cl).tokens ix).acks = (mget {} (s.cl cl).tokens ix).acks - 1 ∧
        (mget {} (t.cl cl).tokens ix).state =
          if (mget {} (s.cl cl).tokens ix).acks ≤ 1 ∧ (∀ p ∈ (s.cl cl).held, p.token ≠ some (gen, ix)) then 0 else 2)) ∧
  (∀ (s : State) (k cl : Nat) (p : Packet), (s.clusters.flatMap fun e => e.2.held.map fun p => (e.1, p))[k]? = some (cl, p) →
    let c := s.cl cl
    ((p.ordered = true ∧ c.seqReady p = false) ∨ c.cycle < p.due → exec (.orderedPacketRelease k) s = .next s) ∧
    ((p.ordered = false ∨ c.seqReady p = true) → p.due ≤ c.cycle →
      exec (.orderedPacketRelease k) s = .next ((s.setCl cl { c with held := c.held.erase p }).applyPacket cl p))) ∧
  (∀ (s : State) (cl : Nat) (p : Packet) (t : Token) (pas : List Nat), (s.cl cl).tokenOf p = some t →
    s.clearPacket cl p t = (s, some pas) →
    let w := s.wholeLines cl { mget {} (s.cl cl).frank p.win with base := p.base } t p
    let r := w.2.applyAll cl p 0 pas
    let u := ((r.2.touch cl p).resolveSeq cl p.op.ctx p.seq).settleTokens cl
    s.applyPacket cl p = if p.kind.answers then u.respond cl p (.data p (pack (8 * p.kind.elem) r.1.1) r.1.2 w.1)
      else (if p.op.ctx / 4 = cl then u.respond cl p (.accepted p) else u).respond cl p (.applied p r.1.2))

/-- R203 to R207, R344: the notices of the window commands reach their members, a lock request is queued and granted, and an unlock
releases its holder; a target answers a member of another panel by a message, which has the command's effect at its origin.
Where a collective is matched, and how the parts of one on several panels are told of its end, are the model's choices (log 12). -/
def Obligations.WindowStepResults : Prop :=
  ∀ (s : State) (m : Nat) (msg : Msg), s.arrived m = some msg →
    let z := s.take m
    let cl := msg.dst
    (∀ kind w k p c u, msg.act = .winNotice kind w k p → z.joinColl (s.cl cl).ti.team w k kind p = (c, u) →
      exec (.windowCollectiveNotice m) s = .next (u.runColl cl c)) ∧
    (∀ kind w ok p, msg.act = .winEnd kind w ok p →
      exec (.windowCollectiveNotice m) s = .next (z.farEnd cl kind w ok p)) ∧
    (∀ w k p c u, msg.act = .closeNotice w k p → z.joinColl (s.cl cl).ti.team w k 1 p = (c, u) →
      exec (.fenceCloseNotice m) s = .next (u.runColl cl c)) ∧
    (∀ o w r num, msg.act = .post o w r num →
      let c := z.cl cl
      exec (.postNotice m) s = .next ((z.setCl cl { c with posts := c.posts ++ [(w, r, num)] }).settleStarts cl)) ∧
    (∀ w r op o, msg.act = .compl w r op o →
      let f := mget {} (z.cl cl).frank w
      let u := (z.setFrank cl w { f with compl := r :: f.compl }).settleExposure cl w
      let c := u.cl o
      (8192 ≤ o → exec (.completeNotice m) s = .next (u.send cl o (.ack op))) ∧
      ∀ e n, o < 8192 → c.epochs.find? (fun e => (e.ending.map (·.1)) == some op) = some e → e.ending = some (op, n) →
        (n ≤ 1 → exec (.completeNotice m) s = .next ((u.setCl o { c with epochs := c.epochs.filter fun x => !decide (x = e) }).opDone op)) ∧
        (1 < n → exec (.completeNotice m) s =
          .next (u.setCl o { c with epochs := c.epochs.map fun x => if x = e then { x with ending := some (op, n - 1) } else x }))) ∧
    (∀ w r, msg.act = .lockReq w r →
      let f := mget {} (s.cl cl).frank w
      (f.queue.length < 64 → f.state ≠ 0 → exec (.lockRequest m) s =
        .next ((z.setFrank cl w { f with queue := f.queue ++ [r] }).grantLocks cl w 65)) ∧
      (f.queue.length < 64 → f.state = 0 → 32768 ≤ r.op.ctx →
        exec (.lockRequest m) s = .next (z.send cl (r.op.ctx / 4) (.lockGrant w r none))) ∧
      (f.queue.length < 64 → f.state = 0 → r.op.ctx < 32768 →
        let c := z.cl (r.op.ctx / 4)
        exec (.lockRequest m) s = .next ((z.setCl (r.op.ctx / 4) { c with
          lockAsks := c.lockAsks.erase (r.op, w, r.rank) }).winFail r.op 9)) ∧
      (64 ≤ f.queue.length → exec (.lockRequest m) s = .next s)) ∧
    (∀ w r g, msg.act = .lockGrant w r g →
      let c := z.cl (r.op.ctx / 4)
      let asks := c.lockAsks.erase (r.op, w, r.rank)
      (∀ n, g = some n → exec (.lockRequest m) s = .next ((z.setCl (r.op.ctx / 4) { c with
        lockAsks := asks, locks := c.locks ++ [(r.op.ctx, w, r.rank, n)] }).opDone r.op)) ∧
      (g = none → exec (.lockRequest m) s = .next ((z.setCl (r.op.ctx / 4) { c with lockAsks := asks }).winFail r.op 9))) ∧
    (∀ w op, msg.act = .unlock w op →
      let f := mget {} (z.cl cl).frank w
      let u := z.setFrank cl w { f with holders := f.holders.filter fun h => h.1 != op.ctx }
      exec (.lockRelease m) s =
        .next ((if op.ctx < 32768 then u.opDone op else u.send cl (op.ctx / 4) (.ack op)).grantLocks cl w 65)) ∧
    (∀ op, msg.act = .ack op → exec (.lockRelease m) s = .next (z.acked op))

/-- R215 to R224, R336: announcements of heads, the counts of a dispatch, cancellations, the chunks of the channels in turn, and a stream's
entry. That the results of a dispatch are written in two steps is the model's choice (log 81). -/
def Obligations.SortStepResults : Prop :=
  ∀ (s : State),
    (∀ m msg, s.arrived m = some msg →
      let z := s.take m
      let cl := msg.dst
      (∀ n, msg.act = .head n → mget 0 (z.cl cl).commCancel n.id ≤ n.cc →
        let c := z.cl cl
        exec (.headAnnouncement m) s = .next ((z.setCl cl { c with heads := c.heads ++ [n] }).tryStart cl (n.id % 8))) ∧
      (∀ n, msg.act = .head n → n.cc < mget 0 (z.cl cl).commCancel n.id →
        exec (.headAnnouncement m) s = .next (z.tryStart cl (n.id % 8))) ∧
      (∀ id cc k ix pre c, msg.act = .counts id cc k ix pre none → s.runningDispatch cl id cc k = some c →
        exec (.dispatchCountExchange m) s = .next (z.countPhase c ix pre)) ∧
      (∀ id cc k ix pre no sum c, msg.act = .counts id cc k ix pre (some (no, sum)) → s.runningDispatch cl id cc k = some c →
        exec (.dispatchCountExchange m) s = .next (if c.half = none then s.placeHalf c ix sum else z.placePhase c ix no sum)) ∧
      (∀ id cc k ix pre tot, msg.act = .counts id cc k ix pre tot → s.runningDispatch cl id cc k = none →
        exec (.dispatchCountExchange m) s = .next (if cc < mget 0 (s.cl cl).commCancel id then z else s)) ∧
      (∀ id op, msg.act = .cancel id op → 32768 ≤ op.ctx →
        exec (.cancelArrival m) s = .next ((z.cancelAt cl id).send cl (op.ctx / 4) (.ack op))) ∧
      (∀ id op n, msg.act = .cancel id op → op.ctx < 32768 → ((z.cancelAt cl id).cl (op.ctx / 4)).cancels.find? (fun e => decide (e.1 = op)) = some (op, n) →
        let u := z.cancelAt cl id
        let o := op.ctx / 4
        let c := u.cl o
        (n ≤ 1 → exec (.cancelArrival m) s =
          .next ((u.setCl o { c with cancels := c.cancels.filter fun f => !decide (f.1 = op) }).opDone op)) ∧
        (1 < n → exec (.cancelArrival m) s =
          .next (u.setCl o { c with cancels := c.cancels.map fun f => if f.1 = op then (op, f.2 - 1) else f })))) ∧
    (∀ ctx sid, exec (.deliveryStreamEntry ctx sid) s = .next (s.deliverEntry ctx sid)) ∧
    (∀ p ch,
      let u := s.dropChunks p
      let next := (u.turnOrder p).find? fun h => (u.mover p h).isSome
      (next ≠ some ch → exec (.collectiveChunk p ch) s = .next u) ∧
      (∀ c, next = some ch → u.mover p ch = some c →
        let z := u.setSite p { u.site p with lastCh := ch }
        exec (.collectiveChunk p ch) s = .next (if c.fn = 1 then z.combineTurn c else z.collTurn c (z.ixOf c))))

/-- R322 to R326, R342: a packet takes a link with its mailbag's others, comes off it, leaves by a port, or is discarded with UNREACHABLE;
a mailbag is closed at its wait's end and opened at its target; a lane fails at both ends of its link, and a link that goes down
discards what it holds.
R338 to R342: groups at an Iczer port, whose flits are taken in before the tag is checked and whose other packets are released after;
idle fill after 16 cycles, keys and counters, retraining and the route table.
The numbers of the links and a hop as one step, the far panel, the cycles of a wait counted at the cluster whose packet began it, and the
layout of a tag's nonce are the model's choices (logs 13, 14, 82 and 99). -/
def Obligations.FabricStepResults : Prop :=
  (∀ (s : State),
    (∀ m msg q, s.net.find? (fun x => x.id == m) = some msg → s.bags.any (fun b => decide (msg.bag = some b.id) && b.open_) = false →
      msg.via = none → s.aim msg = some q →
      let base := if 4 < msg.cls ∨ (msg.cls = 4 ∧ 8192 ≤ msg.src) then 4 else 0
      (∀ n k, msg.pos ≠ q → s.nextHop msg.pos q (msg.cls - base) = some (n, k) → ∃ t, exec (.fabricPacketHop m) s = .next t ∧
        t.net.map (·.id) = s.net.map (·.id) ∧
        (∀ x ∈ t.net, ((x.id = m ∨ (msg.bag.isSome ∧ x.bag = msg.bag)) → x.via = some n ∧ x.cls = base + k))) ∧
      (msg.pos ≠ q → s.nextHop msg.pos q (msg.cls - base) = none →
        exec (.fabricPacketHop m) s = .next ((s.fellows msg).foldl (fun s x => s.discard x 8) s)) ∧
      (∀ p, msg.pos = q → s.portFor msg.src msg.dst = some p →
        let leads := s.net.any fun x => x.leads m
        (leads = true → exec (.fabricPacketHop m) s = .next s) ∧
        (leads = false → (s.port p).spent msg.act.flits = true → exec (.fabricPacketHop m) s = .next (s.portDown p false)) ∧
        (leads = false → (s.port p).spent msg.act.flits = false → exec (.fabricPacketHop m) s =
          .next (({ s with net := s.net.filter fun x => x.id != m } : State).setPort p
            ((s.port p).push msg.act.flits msg.src (s.cl msg.src).cycle))))) ∧
    (∀ m msg, s.net.find? (fun x => x.id == m) = some msg →
      s.bags.any (fun b => decide (msg.bag = some b.id) && b.open_) = false →
      (∀ n, msg.via = some n → ∃ t, exec (.fabricPacketHop m) s = .next t ∧ t.net.map (·.id) = s.net.map (·.id) ∧
        (∀ x ∈ t.net, ((x.id = m ∨ (msg.bag.isSome ∧ x.bag = msg.bag)) → x.pos = n ∧ x.via = none))) ∧
      (msg.via = none → s.aim msg = none → exec (.fabricPacketHop m) s = .next (s.discard msg 8))) ∧
    (∀ p q, ∃ t, exec (.mailbagWaitExpiry p q) s = .next t ∧ t.net = s.net ∧
      (∀ b ∈ t.bags, b.src = p → b.dst = q → b.born + (s.site p).mbWait ≤ (s.cl b.cl).cycle → b.open_ = false) ∧
      (∀ b ∈ s.bags, ¬(b.src = p ∧ b.dst = q) → b ∈ t.bags)) ∧
    (∀ p q b, s.bags.find? (fun b => b.src == p && b.dst == q && !b.open_ &&
        s.net.all fun x => decide (x.bag ≠ some b.id) || (x.pos == q && x.via.isNone)) = some b →
      exec (.mailbagArrival p q) s = .next { s with bags := s.bags.filter fun x => x.id != b.id }) ∧
    (∀ p k j, k < 14 → p < 64 → linkTo (linkPeer p k) p = some j →
      let l := (s.link p k).lose
      let z := ((s.setLink p k l).setLink (linkPeer p k) j l).logLink p 3
      exec (.laneFailure p k) s = .next (if l.width = 3 then z.clearLink p (linkPeer p k) else z))) ∧
  (∀ (s : State) (p : Nat),
    let x := s.port p
    let down (i : Instr) (why : Bool) : Prop := exec i s = .next (s.portDown p why)
    let late := x.rx.zipIdx.find? fun e => !e.1.released
    (∀ q why, let t := s.portDown q why
      (t.port q).state = 0 ∧ (t.port q).rx = [] ∧ (t.port q).fail = if why then min ((s.port q).fail + 1) (2 ^ 32 - 1) else (s.port q).fail) ∧
    (x.live = true → ∀ good, (x.rx = [] → exec (.iczerGroupArrival p good) s = .next (if good then s else s.portDown p true)) ∧
      (∀ h k, late = some (h, k) → k = 0 ∨ s.fresh.1.getLsbD 0 = true →
        exec (.iczerGroupArrival p good) s = .next (s.fresh.2.releaseSkid p k h)) ∧
      (∀ g gs, x.rx = g :: gs → late = none →
        (good = true → x.checks g = true → exec (.iczerGroupArrival p good) s = .next (s.fresh.2.passGroup p g) ∧
          ((s.fresh.2.passGroup p g).port p).rx = gs ∧ ((s.fresh.2.passGroup p g).port p).seen = x.seen + 1) ∧
        (good = false ∨ x.checks g = false → exec (.iczerGroupArrival p good) s = .next (s.fresh.2.portDown p true)))) ∧
    (∀ g, x.checks g = true ↔ g.counter = x.seen ∧ g.key = x.key ∧ g.tag = Config.linkTag x.keyBits (linkNonce g.counter 1 x.peerPort) g.text) ∧
    (x.live = true → x.flits ≠ 0 →
      ((s.cl x.opened.1).cycle < x.opened.2 + 16 → exec (.iczerIdleFill p) s = .next s) ∧
      (x.opened.2 + 16 ≤ (s.cl x.opened.1).cycle → x.spent 5 = true → down (.iczerIdleFill p) false) ∧
      (x.opened.2 + 16 ≤ (s.cl x.opened.1).cycle → x.spent 5 = false →
        exec (.iczerIdleFill p) s = .next (s.setPort p { x with sent := x.sent + 1, flits := 0 }))) ∧
    (let k := s.fresh256.1;
      let z := s.fresh256.2
      let new (k : BitVec 256) : IczPort :=
        { x with state := 2, key := (x.key + 1) % 256, sent := 0, seen := 0, keyBits := k, nextKey := none }
      (x.state = 1 → exec (.iczerRekey p) s = .next (z.setPort p (new k))) ∧
      (x.state = 3 → x.flits = 0 → x.rx = [] → exec (.iczerRekey p) s = .next (s.setPort p (new (x.nextKey.getD k)))) ∧
      (x.state = 2 → (x.limit ≤ x.sent ∨ x.limit ≤ x.seen) →
        exec (.iczerRekey p) s = .next (z.setPort p { x with state := 3, nextKey := some k }))) ∧
    (x.live = true → (2 ^ 48 ≤ x.sent + 1 ∨ 2 ^ 48 ≤ x.seen + 1) → ∃ t, exec (.iczerCounterExhausted p) s = .next t ∧
      (t.port p).state = 0 ∧ (t.port p).fail = x.fail) ∧
    (x.state = 0 → p < 32 → (s.site (portSite p)).present = true → exec (.iczerLinkRetrain p) s = .next (match Config.cable p with
      | none => s
      | some (panel, far) =>
        (s.setPort p { x with state := 1, peer := panel % 256, peerPort := far % 32 }).addRoute (panel % 256) p)) ∧
    (x.state ≠ 0 ∨ 32 ≤ p ∨ (s.site (portSite p)).present = false → exec (.iczerLinkRetrain p) s = .next s))

/-! ## The memory system, key engines and letters -/

/-- R268, R270, R276, R279, R283, R284, R287, R251: cache fills and walks, a pigeonhole bank's next request, the write queues, row
counters, the patrol, and pgmap's completion.
The row counters without row buffers and by number of bank and row, the word that MERRADDR names, that a line with a failing word is not
kept, and which words fail are the model's choices (logs 16, 21, 48 and 49). -/
def Obligations.MemoryStepResults : Prop :=
  ∀ (s : State) (cl : Nat),
    let c := s.cl cl
    (∀ line, c.l1Miss.contains line = true →
      (s.badAt (s.lineHome cl line) 128 = false → exec (.l1MissFill cl line) s = .next (s.l1Fill cl line)) ∧
      (s.badAt (s.lineHome cl line) 128 = true → ∃ t, exec (.l1MissFill cl line) s = .next t ∧ t.mem = s.mem ∧
        (t.cl cl).l1 = c.l1 ∧ (t.cl cl).l1Miss = c.l1Miss.filter (· != line))) ∧
    (∀ line, c.l1Miss.contains line = false → exec (.l1MissFill cl line) s = .next s) ∧
    (∀ va eng, let a : Agent := { slot := c.ti.slot, monitor := s.isMon cl }
      exec (.pageTableWalk cl va eng) s = .next ((s.logWalk cl a va).noteTlb cl a eng va)) ∧
    (∀ site bank r, (s.site site).pigQueue.find? (fun r => pigBank r.pa == bank) = some r →
      let x := s.site site
      let z := s.setSite site { x with pigQueue := x.pigQueue.erase r }
      (∀ n, r.op = .store n → exec (.pigeonholeBankAccess site bank) s = .next (z.storeVia (r.ctx / 4) r.pa n r.arg.toNat)) ∧
      (∀ w v u, r.op = .load w → z.loadVia (r.ctx / 4) r.pa (szBytes w) = (some v, u) → exec (.pigeonholeBankAccess site bank) s =
        .next (u.answer r.ctx r.id [.x r.dst (widen w v)])) ∧
      (∀ w u, r.op = .load w → z.loadVia (r.ctx / 4) r.pa (szBytes w) = (none, u) → exec (.pigeonholeBankAccess site bank) s =
        .next ((u.dropInter r.ctx r.id).memErr r)) ∧
      (∀ o old fl u, r.op = .amo o → z.amoAt (r.ctx / 4) r.pa o r.arg r.arg2 = (some (old, fl), u) →
        exec (.pigeonholeBankAccess site bank) s = .next (u.answer r.ctx r.id [.x r.dst (BitVec.ofNat 64 old)] fl))) ∧
    (∀ ch, let q := mget [] c.wqs ch
      c.wqHi ≤ q.length → c.wqLo ≤ c.wqHi → (q.map (·.range)).Nodup → ∃ t, exec (.writeQueueWatermarkDrain cl ch) s = .next t ∧
      mget [] (t.cl cl).wqs ch = q.drop (q.length - c.wqLo) ∧ t.mem = s.mem) ∧
    (∀ ch, (mget [] c.wqs ch).length < c.wqHi → exec (.writeQueueWatermarkDrain cl ch) s = .next s) ∧
    (∀ ch, ∃ t, exec (.writeQueueAgeDrain cl ch) s = .next t ∧ t.mem = s.mem ∧
      ∀ e, e ∈ mget [] (t.cl cl).wqs ch ↔ e ∈ mget [] c.wqs ch ∧ c.cycle < e.born + 4096) ∧
    (∀ row, ∃ t, exec (.rowActivationRefresh cl row) s = .next t ∧ t.mem = s.mem ∧ row ∉ (t.cl cl).rowBad ∧
      mget 0 (t.cl cl).rowCnt row =
        if c.rhThr ≤ mget 0 c.rowCnt row ∨ mget 0 c.rowCnt row = 4095 ∨ row ∈ c.rowBad then 0 else mget 0 c.rowCnt row) ∧
    (∀ g pa, c.alloc (g * 256 / 0x60000000) = true → s.slicePa cl (256 * g) = some pa →
      exec (.patrolRead cl g) s = .next ((s.correct cl pa 256).logBad cl pa 256)) ∧
    (∀ p ps, c.pgmaps = p :: ps → exec (.pgmapCompletion cl) s = .next ((s.setCl cl { c with pgmaps := ps }).runPgmap cl p))

/-- R267, R273 to R275, R280, R281, R357, R364: power of banks and bank sets, retirement of a channel, rotation of a key, and the scrub
engine. Waking a bank, starting and ending a retirement, and the step of a rotation that skips a granule change no byte of memory; one that
re-encrypts a granule of the slot keeps its value and every other byte; a bank set that enters DEEP, and a bank or frame that the scrub
engine reaches, read zero from then on, the frame's tag is FREE, and SCRUBPROG counts each unit.
How a rotation walks the slice is the model's choice (log 44). -/
def Obligations.EngineRoomStepResults : Prop :=
  ∀ (s : State) (cl : Nat),
    let c := s.cl cl
    (∀ b, b < 48 → ∃ t, exec (.lsBankWake cl b) s = .next t ∧ mget 0 (t.cl cl).lsPwr b = 0 ∧
      t.mem = s.mem) ∧
    (∀ k, s.isMon cl = false → c.isSet k = true → mget .on c.bankPwr k = .on → c.napIdle ≤ c.idle k → exec (.bankSetNap cl k) s = .next (s.setPower cl k .nap)) ∧
    (∀ k, s.isMon cl = false → c.isSet k = true → c.setReady k = true → c.retIdle ≤ c.idle k → s.eff cl ≤ c.heatOf (k / 4) →
      exec (.bankSetRetain cl k) s = .next (s.setPower cl k .retain)) ∧
    (∀ k, s.isMon cl = false → c.isSet k = true → c.alloc (k / 4) = false → c.deepen = true → c.retIdle ≤ c.idle k → s.eff cl ≤ c.heatOf (k / 4) →
      mget .on c.bankPwr k ≠ .deep → (∀ e ∈ mget [] c.wqs (k % 4), e.range * 64 / 0x60000000 ≠ k / 4) →
      exec (.bankSetDeep cl k) s = .next ((s.setPower cl k .deep).zeroSet cl k)) ∧
    (∀ k, c.alloc (k / 4) = true → exec (.bankSetDeep cl k) s = .next s) ∧
    (∀ k, c.isSet k = true → exec (.bankSetWake cl k) s = .next (s.readySet cl k)) ∧
    (s.isMon cl = true → (∀ k, exec (.bankSetNap cl k) s = .next s ∧ exec (.bankSetRetain cl k) s = .next s ∧ exec (.bankSetDeep cl k) s = .next s) ∧
      ∀ ch, exec (.channelRetirementStart cl ch) s = .next s) ∧
    (∀ ch sp rest, s.isMon cl = false → c.chState = .normal → ch < c.nChan → (s.site (siteOf cl)).sparePool = sp :: rest →
      c.cethr < ((mget [] c.chEvents ch).filter fun t => decide (c.cycle < t + 2 ^ 30)).length →
      ∃ t, exec (.channelRetirementStart cl ch) s = .next t ∧ (t.cl cl).chState = .spare ∧ (t.cl cl).retiring = some (ch, some sp) ∧
        (t.cl cl).mbnd = 0 ∧ (∀ q, q < 4 → mget .on (t.cl cl).bankPwr (4 * q + 3) = .on) ∧ (t.site (siteOf cl)).sparePool = rest ∧
        t.mem = s.mem) ∧
    ((c.chState = .spare ∨ c.chState = .reduce) → c.mbnd < c.moveSize → ∃ t, exec (.granuleMove cl) s = .next t ∧
      (t.cl cl).mbnd = c.mbnd + 1 ∧ (s.bad = [] → t.mem = s.mem)) ∧
    (∀ ch sp, c.retiring = some (ch, some sp) → c.chState = .spare → c.moveSize ≤ c.mbnd →
      ∃ t, exec (.retirementComplete cl) s = .next t ∧ (t.cl cl).chans = some (setAt (c.chanList (cl % 128)) ch sp) ∧
        (t.cl cl).chState = .normal ∧ (t.cl cl).retiring = none ∧ t.mem = s.mem) ∧
    (∀ ch, c.retiring = some (ch, none) → c.chState = .reduce → c.moveSize ≤ c.mbnd →
      ∃ t, exec (.retirementComplete cl) s = .next t ∧ (t.cl cl).chans = some ((c.chanList (cl % 128)).eraseIdx ch) ∧
        (t.cl cl).chState = .normal ∧ (t.cl cl).retiring = none ∧ t.mem = s.mem) ∧
    (c.kbActive = false → exec (.keyRotationGranule cl) s = .next s) ∧
    (c.kbActive = true → s.rotates cl = false → exec (.keyRotationGranule cl) s =
      .next (s.setCl cl { c with kbPos := c.kbPos + 1, kbActive := decide (c.kbPos + 1 < 25165824) })) ∧
    (c.kbActive = true → s.rotates cl = true → ∃ t, exec (.keyRotationGranule cl) s = .next t ∧ (t.cl cl).kbPos = c.kbPos + 1 ∧
      (t.cl cl).kbActive = decide (c.kbPos + 1 < 25165824) ∧
      let g := sliceAt cl (256 * c.kbPos)
      (s.memOk → ∀ i, i < 4 → t.unitText (keyed (g + 64 * i) (c.kbSlot + 1)) = s.unitText (keyed (g + 64 * i) (c.kbSlot + 1))) ∧
      ∀ a, a < bare g ∨ bare g + 256 ≤ a → readByte t.mem a = readByte s.mem a) ∧
    (∀ site k y, (s.site site).slots.find? (fun e => e.2.st == .rotating &&
        !s.clusters.any fun c => siteOf c.1 == site && c.2.kbActive && c.2.kbSlot == e.1) = some (k, y) →
      exec (.keyRotationComplete site) s = .next (s.setSlot site k { y with st := .bound, dataKey := y.newKey, newKey := 0 })) ∧
    (∀ site, let x := (s.site site).scrub
      let w := x.words.getD (x.entry - 1) 0
      let put (x : Scrub) : State := s.setSite site { s.site site with scrub := x }
      (s.scrubs site = true ↔ x.active = true ∧ (s.site site).stage = none ∧ s.stage ≠ 4) ∧
      (s.scrubs site = false → exec (.scrubUnit site) s = .next s ∧ exec (.scrubComplete site) s = .next s) ∧
      (s.scrubs site = true → rgCount w ≤ x.unit → x.entry < x.n →
        exec (.scrubUnit site) s = .next (put { x with entry := x.entry + 1, unit := 0 })) ∧
      (s.scrubs site = true → x.unit < rgCount w → s.rgUnit site w x.unit = none →
        exec (.scrubUnit site) s = .next (put { x with unit := x.unit + 1 })) ∧
      (∀ pa, s.scrubs site = true → x.unit < rgCount w → s.rgUnit site w x.unit = some pa →
        let n := if rgKind w = 1 then 131072 else 32768
        ∃ t, exec (.scrubUnit site) s = .next t ∧ t.mem = ((s.wake pa n).zeroMem pa n).mem ∧
          (∀ a, pa ≤ a → a < pa + n → readByte t.mem a = 0) ∧ (t.site site).scrub = { x with unit := x.unit + 1 } ∧
          (rgKind w ≠ 1 → mget 0 (t.site site).tags (frameOf pa) = 0) ∧ (rgKind w = 1 → (t.site site).tags = (s.site site).tags)) ∧
      (s.scrubs site = true → x.entry = x.n → rgCount w ≤ x.unit → ∃ t, exec (.scrubComplete site) s = .next t ∧
        (t.site site).scrub.active = false ∧ (t.site site).scrub.result = (if (s.site site).frames x.slot = 0 then 1 else 2) ∧
        t.mem = s.mem))

/-- R293 to R298, R308, R369, R371, R379: the letter window and the write that enqueues, cancels, the reads that clear, letters that act
at the head, aging, and a scheduling decision.
The refill of credits, reservations, a letter that finds its box full, and that the host writes the window by aligned 8-byte words are the
model's choices (logs 26, 27, 28, 45 and 57). -/
def Obligations.LetterStepResults : Prop :=
  ∀ (s : State) (p : Nat),
    let b := s.pb p
    (∀ off v, s.stage = 5 → p < 4096 → off % 8 = 0 → off < 0x78 →
      exec (.letterWindowWrite p off v) s = .next (s.setPb p { b with win := mset b.win (off / 8) v })) ∧
    (∀ port v ide, s.stage = 5 → p < 4096 → (mget {} s.hostPorts port).up = true →
      let l : Letter := { id := 0, words := tab (fun i => mget 0 b.win i) 15 ++ [v] }
      (l.kind = 4 → exec (.letterEnqueue port p v ide) s = .next (s.rebind p l port ide)) ∧
      (l.kind ≠ 4 → b.sealedTo = none → exec (.letterEnqueue port p v ide) s = .next (s.enterLetter p l)) ∧
      (∀ site k, l.kind ≠ 4 → b.sealedTo = some (site, k) →
        exec (.letterEnqueue port p v ide) s = .next (s.postmark p l site k port ide))) ∧
    (∀ port v ide, s.stage ≠ 5 ∨ (mget {} s.hostPorts port).up = false → exec (.letterEnqueue port p v ide) s = .next s) ∧
    (s.stage ≠ 5 → (∀ tag, exec (.pbcancelWrite p tag) s = .next s) ∧ exec (.pbstatRead p) s = .next { s with reply := .abort }) ∧
    (∀ tag : BitVec 16, s.stage = 5 → let z := (s.setPb p { b with cancel := some tag.toNat, cstatus := 0, taker := 0 }).fresh
      exec (.pbcancelWrite p tag) s = .next (if fld z.1 0 1 = 1 then z.2.decideCancel p else z.2)) ∧
    (s.stage = 5 → ∃ t, exec (.pbstatRead p) s = .next t ∧ (t.pb p).drop = 0 ∧
      t.reply = .value (b.drop * 2 ^ 48 + bn b.sealedTo.isSome * 512 + bn b.halt * 256 + b.letters.length)) ∧
    (∀ l h hs, (s.checkHead p 64).activeHead p = some l → ((s.checkHead p 64).pb p).letters = h :: hs → l.kind = 1 → h.id = l.id →
      (s.checkHead p 64).cwRefused (((s.checkHead p 64).pb p).sealedTo.map (·.2)) (l.w 5) = false →
      exec (.completionWriteLetter p) s =
        .next (((s.checkHead p 64).perform (cwHome (l.w 5)) 8 (l.w 6).toNat).retireLetter p l.id)) ∧
    (∀ l, (s.checkHead p 64).activeHead p = some l → l.kind = 2 →
      (s.checkHead p 64).cwRefused (((s.checkHead p 64).pb p).sealedTo.map (·.2)) (l.w 5) = false →
      (s.checkHead p 64).badAt (cwHome (l.w 5)) 8 = false →
      ((l.w 6).toNat ≤ (s.checkHead p 64).load (cwHome (l.w 5)) 8 →
        exec (.completionWaitPoll p) s = .next ((s.checkHead p 64).retireLetter p l.id)) ∧
      ((s.checkHead p 64).load (cwHome (l.w 5)) 8 < (l.w 6).toNat → exec (.completionWaitPoll p) s = .next (s.checkHead p 64))) ∧
    (∀ l, s.activeHead p = some l → 4096 ≤ l.passed → l.cls ≠ 0 →
      exec (.letterAging p) s = .next (s.mapLetter p l.id fun x => { x with passed := 0, cls := x.cls - 1 })) ∧
    (∀ l, s.activeHead p = some l → 4096 ≤ l.passed → l.cls = 0 → s.reserving.any (fun r => r.2 == l.id) = false →
      ∃ t, exec (.letterAging p) s = .next t ∧ t.reserving = s.reserving ++ [(p, l.id)]) ∧
    (∀ l, s.activeHead p = some l → l.passed < 4096 → exec (.letterAging p) s = .next s) ∧
    (s.stage = 5 → let z := ((s.pbs.map (·.1)).foldl (fun s p => s.checkHead p 64) s).admitOne
      exec .schedulingDecision s = .next ((z.pbs.map (·.1)).foldl (fun s p => s.decideCancel p) z))

/-! ## Instances, registers, the host and the management core -/

/-- R117, R265, R302 to R305, R344: a gang starts, a context exits, an instance completes, contexts stop and are saved, a team resumes,
and the parts of a join report, wait and fail.
R107, R117: a context that is to stop for a pre-emption stops with its bundle unissued; one that is exiting is OFF, its ownership,
rings, buffers and return stack gone, once its results have landed and its operations have completed.
R344: a JOIN part starts once every part has reported, ends REFUSED TMO × 2^20 cycles after its reservation, and is let go with the last.
The numbers of teams, the order in which an exiting context gives things up, what a save waits for, the layout of a save area, the saved pc
between iterations, when and by which cluster's cycles a JOIN part is told and timed, and the status of an ended launch are the model's
choices (logs 20, 23 to 25, 29 to 31, 37, 38, 41, 52, 53 and 84). -/
def Obligations.InstanceStepResults : Prop :=
  (∀ (s : State) (n : Nat) (x : Team),
    s.team n = some x →
    (∀ l, x.phase = .placed → s.letter x.pb x.letter = some l →
      let r := s.prepareAll n x l x.clusters.zipIdx
      (∀ e, r.2 = some e → exec (.gangStart n) s = .next (r.1.abandon n x e)) ∧
      (r.2 = none → l.kind ≠ 3 → exec (.gangStart n) s = .next (r.1.startAll n x)) ∧
      (r.2 = none → l.kind = 3 →
        let y : Team := { x with phase := .joining, heard := l.pidx :: x.heard }
        exec (.gangStart n) s = .next (if (List.range l.npanel).all y.heard.contains then r.1.joined n y l else r.1.setTeam n y))) ∧
    ((x.phase = .running ∨ x.phase = .stopping) → s.teamOver x = true → (x.started = false ∨ x.asLetter.pidx ∉ x.finished) →
      let y : Team := { x with finished := x.asLetter.pidx :: x.finished }
      let z := if y.lastPart then s.freeTeam n x else s.setTeam n y
      exec (.instanceCompletion n) s =
        .next ((z.mapLetter x.pb x.letter fun l => l.endOne x.trap x.failed).tryRetire x.pb x.letter)) ∧
    (x.phase = .running → (s.teamOver x = false ∨ (x.started = true ∧ x.asLetter.pidx ∈ x.finished)) →
      exec (.instanceCompletion n) s = .next s) ∧
    (s.mayResume x = true → (∀ e ∈ s.teams, s.mayResume e.2 = true → x.savedAt ≤ e.2.savedAt) →
      exec (.teamResumption n) s = .next (s.resumeTeam n x)) ∧
    (x.phase = .stopping →
      let z := ((ctxsOf x.clusters).filter fun g => (s.ctx g).live == .stopped).foldl (fun s g =>
        let u := (s.ctx g).tlErrs.foldl (fun s e => s.tryTlErr g e.1) s
        u.setCtx g (u.ctx g).settleKnown) s
      let failed := x.clusters.filter fun cl => !(z.clSaveOk cl x.slot && (ctxsOf [cl]).all (z.ckptOk x.slot))
      (z.teamQuiet x = true → (∃ g ∈ ctxsOf x.clusters, (z.ctx g).live ≠ .off) →
        exec (.contextSave n) s = .next (if failed.isEmpty then z.saveTeam n x else z.failSave n x failed)) ∧
      (z.teamQuiet x = false → exec (.contextSave n) s = .next z)) ∧
    (let l := x.asLetter;
      (∀ part, l.kind = 3 → part < l.npanel → part ≠ l.pidx →
        (x.started = false → (x.phase = .placed ∨ x.phase = .joining) → part ∉ x.heard →
          let y : Team := { x with heard := part :: x.heard }
          exec (.joinReport n part) s = .next (if x.phase = .joining ∧ (List.range l.npanel).all y.heard.contains = true then s.joined n y l
            else s.setTeam n y)) ∧
        (x.started = true →
          let y : Team := { x with finished := if x.finished.contains part then x.finished else part :: x.finished }
          exec (.joinReport n part) s = .next (if y.lastPart = true ∧ l.pidx ∈ y.finished then s.freeTeam n y else s.setTeam n y))) ∧
      (l.kind = 3 → (x.phase = .placed ∨ x.phase = .joining) →
        let due := x.joinAt + l.tmo * 2 ^ 20
        (due ≤ (s.cl (x.clusters.headD 0)).cycle → exec (.joinTimeout n) s = .next (s.abandon n x .refused)) ∧
        ((s.cl (x.clusters.headD 0)).cycle < due → exec (.joinTimeout n) s = .next s))) ∧
    (fld (x.words.getD 0 0) 0 4 = 3 → x.phase = .joining → exec (.joinPartFailure n) s = .next (s.abandon n x .refused)) ∧
    (fld (x.words.getD 0 0) 0 4 = 3 → x.phase = .running → exec (.joinPartFailure n) s =
      .next ((ctxsOf x.clusters).foldl (fun s g => s.killCtx g) (s.setTeam n { x with failed := true })))) ∧
  (∀ (s : State) (g : Nat),
    (s.stopDue g = true → ∃ t, exec (.contextPreemptionStop g) s = .next t ∧ (t.ctx g).live = .stopped ∧
      (t.ctx g).cstate = .preempted ∧ (t.ctx g).pc = ((s.withdraw g).ctx g).pc ∧ (t.ctx g).waiting = false ∧ t.mem = s.mem) ∧
    (s.stopDue g = false → exec (.contextPreemptionStop g) s = .next s) ∧
    ((s.ctx g).live = .exiting →
      let z := (s.dropStreams g).landAll g
      ((z.ctx g).settled = true → ((z.freeRings g).ctx g).rings = [] → ∃ t, exec (.contextExitCompletion g) s = .next t ∧
        (t.ctx g).live = .off ∧ (t.ctx g).rstack = [] ∧ (t.ctx g).lbuf = none ∧ (t.ctx g).shadow = []) ∧
      ((z.ctx g).settled = true → ((z.freeRings g).ctx g).rings ≠ [] → exec (.contextExitCompletion g) s = .next (z.freeRings g)) ∧
      ((z.ctx g).settled = false → exec (.contextExitCompletion g) s = .next z)) ∧
    ((s.ctx g).live ≠ .exiting → exec (.contextExitCompletion g) s = .next s))

/-- R247, R248, R290, R312, R315, R330, R341, R386, R388: writes and reads of registers that act on another context or unit, as steps of
their own.
What becomes of pops that wait on a queue being configured is the model's choice (log 17). -/
def Obligations.RegisterStepResults : Prop :=
  ∀ (s : State) (cl : Nat),
    (∀ g v, exec (.ckptbaseWrite g v) s = .next (s.setCtx g ((s.ctx g).setCkpt v))) ∧
    (∀ g, let c := s.ctx g
      exec (.trapcauseDiscard g) s = .next (s.setCtx g { c with shadow := [], trapShadow := false })) ∧
    (∀ lo hi, exec (.lsboundsWrite cl lo hi) s = .next (s.setLsBounds cl lo hi)) ∧
    (∀ j v, j < 2 → exec (.lspwrWrite cl j v) s = .next (s.setLsPwr cl j v)) ∧
    (∀ v, exec (.ptrootWrite cl v) s = .next (s.setPtroot cl v)) ∧
    (∀ ch, s.expert cl = true → exec (.slretRetire cl ch) s = .next (s.retire cl ch)) ∧
    (∀ ch, s.expert cl = false → exec (.slretRetire cl ch) s = .next s) ∧
    (s.expert cl = true → exec (.slretGo cl) s = .next (s.retireGo cl)) ∧ (s.expert cl = false → exec (.slretGo cl) s = .next s) ∧
    (∀ site q v, exec (.wqcfgWrite site q v) s = .next (s.setWqcfg site q v)) ∧
    (∀ site h, let x := (s.site site).heap h
      exec (.hpctlReset site h) s = .next (s.setHeap site h { x with ops := x.ops + 1 }.reset)) ∧
    (∀ site h v, let x := (s.site site).heap h
      exec (.hpcapWrite site h v) s = .next (s.setHeap site h { x with ops := x.ops + 1, cap := capOf v }.reset)) ∧
    (∀ g, exec (.gmkillWrite g) s = .next (s.killCtx g)) ∧
    (exec (.rtcdropAll cl) s = .next (s.dropRtc cl)) ∧
    (∃ t, exec (.cecntRead cl) s = .next t ∧ t.reply = .value (s.cl cl).ceCnt ∧ (t.cl cl).ceCnt = 0) ∧
    (∃ t, exec (.merrstatRead cl) s = .next t ∧ t.reply = .value (s.cl cl).merrStat ∧ (t.cl cl).merrStat = 0) ∧
    (∃ t, exec (.rtcstatRead cl) s = .next t ∧ (t.cl cl).rtcMisses = 0 ∧
      t.reply = .value (min (s.cl cl).rtcMisses (2 ^ 32 - 1) * 2 ^ 32 + (s.cl cl).rtc.length)) ∧
    (∀ p, ∃ t, exec (.iczerrRead p) s = .next t ∧ t.reply = .value (min (s.port p).fail (2 ^ 32 - 1)) ∧ (t.port p).fail = 0) ∧
    (∀ p, ∃ t, exec (.pmcntRead p) s = .next t ∧ t.reply = .value (s.pb p).pmcnt ∧ (t.pb p).pmcnt = 0) ∧
    (∀ site, exec (.sealreqDone site) s = .next (s.answerSeal site true)) ∧
    (∀ site, exec (.sealreqRefuse site) s = .next (s.answerSeal site false))

/-- R34, R294, R365, R373 to R385: the host's accesses, resets, start-up, links of the host ports, power and cooling, and a cycle.
What start-up finds, what a hot site loses, reads that fail, the turns of a cycle, and which posted accesses are performed in it are the
model's choices (logs 32 to 35, 54, 5 and 60). -/
def Obligations.HostStepResults : Prop :=
  ∀ (s : State),
    (∀ site, ∃ t, exec (.elstatRead site) s = .next t ∧ t.reply = .value (s.hostValue 0 (0x1000 + 8 * site)) ∧ (t.site site).elLost = 0) ∧
    (∀ site on, ∃ t, exec (.sitectlExpertWrite site on) s = .next t ∧ (t.site site).expert = on) ∧
    (∀ off v, s.stage = 5 → off / 4096 < 4096 → exec (.hostRegisterWrite 2 off v) s = .next (s.writeBox off v)) ∧
    (∀ v, exec (.hostRegisterWrite 0 0x0008 v) s = .next (s.writePanelctl v)) ∧
    (∀ v, ∃ t, exec (.hostRegisterWrite 0 0x0010 v) s = .next t ∧
      t.b4win = BitVec.ofNat 64 (fld v 30 18 * 2 ^ 30 + fld v 7 8 * 2 ^ 7 + fld v 0 6)) ∧
    (∀ bar off wr, barSize bar ≤ off → ∃ t, exec (.hostUnimplementedAccess bar off wr) s = .next t ∧
      t.reply = (if wr then .none else .abort) ∧ t.mem = s.mem) ∧
    (∀ bar off wr, off < barSize bar → exec (.hostUnimplementedAccess bar off wr) s = .next s) ∧
    (∀ off n pa, s.stage = 5 → s.b4Access off n = some pa →
      let z := s.readAt (s.reporter pa none) pa n
      (z.badAt pa n = false → exec (.bar4Read off n) s = .next { z with reply := .value (s.load pa n) }) ∧
      (∀ v, n ≤ 8 → exec (.bar4Write off n v) s = .next (s.perform pa n (v.toNat % 2 ^ (8 * n))))) ∧
    (∀ off n v, s.stage ≠ 5 → exec (.bar4Write off n v) s = .next s ∧
      ∃ t, exec (.bar4Read off n) s = .next t ∧ t.reply = .abort ∧ t.mem = s.mem) ∧
    (exec .panelctlCold s = .next s.cold) ∧ (∃ t, exec .powerOn s = .next t ∧ t.mem = [] ∧ t.stage = 1) ∧
    (exec .panelctlWarm s = .next s.panelWarm) ∧ (∀ site, exec (.panelctlSitewarm site) s = .next (s.siteReset site 4)) ∧
    (exec .startupStageAdvance s = .next s.advanceStage) ∧
    (∀ port, ∃ t, exec (.hostLinkDown port) s = .next t ∧ (t.hostPort port).conn = 0 ∧ (t.hostPort port).sessions = [] ∧
      (t.hostPort port).ide = [] ∧ ∀ p b, (p, b) ∈ t.pbs → b.sealedTo.isSome → b.session / 4 = port → b.halt = true ∧ b.haltWhy = 3) ∧
    (∀ site, ∃ t, exec (.thermalThrottle site) s = .next t ∧ (t.site site).throttle = (s.site site).throttle + 1 ∧ t.mem = s.mem) ∧
    (∀ site, ∃ t, exec (.thermalShutdown site) s = .next t ∧ (t.site site).off = true) ∧
    (∀ site, (s.site site).off = true → ∃ t, exec (.thermalRestart site) s = .next t ∧ (t.site site).off = false ∧
      (t.site site).stage = some 3) ∧
    (exec .coolantFlowLow s = .next s.panelWarm) ∧
    (∀ site, ∃ t, exec (.dvfsChange site) s = .next t ∧ t.mem = s.mem ∧ t.ctxs = s.ctxs ∧ t.clusters = s.clusters) ∧
    (∀ cl, let c := s.cl cl
      let z := (List.range 4).foldl (fun s k => s.performDue (4 * cl + k)) (s.setCl cl { c with cycle := (c.cycle + 1) % 2 ^ 64 })
      (∀ g gs, z.lineUp cl = g :: gs → exec (.aclkCycle cl) s = .next { z with cur := g, lane := { left := gs } }) ∧
      (z.lineUp cl = [] → exec (.aclkCycle cl) s = .next z) ∧
      ((∀ k, k < 4 → (s.ctx (4 * cl + k)).posted = []) → ∃ t, exec (.aclkCycle cl) s = .next t ∧ t.mem = s.mem ∧
        (t.cl cl).cycle = (c.cycle + 1) % 2 ^ 64 ∧ ∀ g, t.ctx g = s.ctx g))

/-- R367, R368: the SPDM requests in their order, sessions, and IDE_KM inside a live session. GET_VERSION resets the connection and ends its
sessions; the IDE streams go on (R370, R376). CHALLENGE, GET_MEASUREMENTS and KEY_EXCHANGE are signed by the alias key over the transcript.
Before a malformed request (doe) the answer is InvalidRequest and no state changes.
The answers that the rule does not name, the values of keys and secrets, and the places of the flags, the transcript's bytes and when a
request is malformed are the model's choices (logs 36, 6 and 101). -/
def Obligations.SpdmStepResults : Prop :=
  ∀ (s : State) (p : Nat), (s.hostPort p).up = true →
    let h := s.hostPort p
    let tell (z : State) (b : List Nat) : State := (z.answerSpdm b).nextRequest p
    let error (r : Reply) : State := ({ s with reply := r } : State).nextRequest p
    (h.doe = true → ∀ k j, ∀ i ∈ [Instr.getVersion p, .getCapabilities p, .negotiateAlgorithms p, .getDigests p, .getCertificate p, .challenge p,
        .keyExchange p, .getMeasurements p k, .finish p k, .endSession p k, .ideKmQuery p k, .ideKmKeyProg p k j, .ideKmKSetGo p k j,
        .ideKmKSetStop p k j], exec i s = .next (error .invalid)) ∧
    (exec (.unlistedSpdmRequest p) s = .next (error .unsupported)) ∧
    (h.doe = false →
      (let n := s.note 0;
        exec (.getVersion p) s = .next (tell (n.2.setHostPort p { h with conn := 1, sessions := [], vca := n.1, m12 := 0, l12 := 0 }) [0x13])) ∧
      (let n := s.note h.vca;
        (h.conn = 1 → exec (.getCapabilities p) s = .next (tell (n.2.setHostPort p { h with conn := 2, vca := n.1 }) [capFlags])) ∧
        (h.conn = 2 → exec (.negotiateAlgorithms p) s =
          .next (tell (n.2.setHostPort p { h with conn := 3, vca := n.1, m12 := n.1, l12 := n.1 }) algorithms)) ∧
        (∀ i, h.conn = 3 → (List.range 4).find? (fun i => (mget {} h.sessions i).st == 0) = some i → exec (.keyExchange p) s =
          .next (tell (n.2.setHostPort p { h with sessions := mset h.sessions i { st := 1, th := n.1 } })
            [p * 4 + i, (Config.sign s.devAlias n.1).toNat]))) ∧
      (let n := s.note h.m12;
        h.conn = 3 → exec (.getDigests p) s = .next (tell (n.2.setHostPort p { h with m12 := n.1 }) [s.chainDigest.toNat]) ∧
          exec (.getCertificate p) s = .next (tell (n.2.setHostPort p { h with m12 := n.1 }) (s.certs.map (·.toNat))) ∧
          exec (.challenge p) s = .next (tell (n.2.setHostPort p { h with m12 := h.vca })
            [s.chainDigest.toNat, (Config.sign s.devAlias n.1).toNat])) ∧
      (h.conn ≠ 1 → exec (.getCapabilities p) s = .next (error .unexpected)) ∧
      (h.conn ≠ 2 → exec (.negotiateAlgorithms p) s = .next (error .unexpected)) ∧
      (h.conn ≠ 3 → ∀ i ∈ [Instr.getDigests p, .getCertificate p, .challenge p, .keyExchange p], exec i s = .next (error .unexpected)) ∧
      (h.conn ≠ 3 → ∀ ix, exec (.getMeasurements p ix) s = .next (error .unexpected)) ∧
      (∀ ix, 1 ≤ ix → ix ≤ 16 → s.measurements ix = some ([(mget 0 s.measured (ix - 1)).toNat], s)) ∧
      (s.measurements 0xFF = some (tab (fun k => (mget 0 s.measured k).toNat) 16, s)) ∧
      (∀ ix ms z, h.conn = 3 → s.measurements ix = some (ms, z) →
        let n := z.note h.l12
        exec (.getMeasurements p ix) s =
          .next (tell (n.2.setHostPort p { h with l12 := h.vca }) (ms ++ [(Config.sign s.devAlias n.1).toNat]))) ∧
      (∀ ix, h.conn = 3 → s.measurements ix = none → exec (.getMeasurements p ix) s = .next (error .invalid)) ∧
      (h.conn = 3 → (List.range 4).find? (fun i => (mget {} h.sessions i).st == 0) = none →
        exec (.keyExchange p) s = .next (error .invalid)) ∧
      (∀ i, i < 4 → (mget {} h.sessions i).st = 1 →
        let n := s.note (mget {} h.sessions i).th
        let d := n.2.fresh384
        exec (.finish p i) s = .next (tell (d.2.setHostPort p { h with
          sessions := mset h.sessions i { st := 2, ems := Config.exportSecret n.1 d.1, th := n.1 } }) [])) ∧
      (∀ i, i < 4 → (mget {} h.sessions i).st ≠ 1 → exec (.finish p i) s = .next (error .unexpected)) ∧
      (∀ i, i < 4 → ((mget {} h.sessions i).st = 1 ∨ (mget {} h.sessions i).st = 2) → exec (.endSession p i) s =
        .next (tell (s.setHostPort p { h with sessions := mset h.sessions i {} }) [])) ∧
      (∀ i, i < 4 → (mget {} h.sessions i).st = 2 →
        (exec (.ideKmQuery p i) s = .next (tell s (p :: tab (fun k => mget 0 h.ide k) 5))) ∧
        (∀ k, k < 5 → exec (.ideKmKeyProg p i k) s =
          .next (tell (s.setHostPort p { h with ide := mset h.ide k (max (mget 0 h.ide k) 1) }) [k])) ∧
        (∀ k, k < 5 → mget 0 h.ide k ≠ 0 →
          exec (.ideKmKSetGo p i k) s = .next (tell (s.setHostPort p { h with ide := mset h.ide k 2 }) [k]) ∧
          exec (.ideKmKSetStop p i k) s = .next (tell (s.setHostPort p { h with ide := mset h.ide k 1 }) [k]))) ∧
      (∀ i, i < 4 → (mget {} h.sessions i).st ≠ 2 → exec (.ideKmQuery p i) s = .next (error .unexpected) ∧
        ∀ k, ∀ j ∈ [Instr.ideKmKeyProg p i k, .ideKmKSetGo p i k, .ideKmKSetStop p i k], exec j s = .next (error .unexpected)))

/-! ## The whole machine -/

/-- R59, R69 to R76: the worked words of the encoding chapter and a few words of other majors decode to the instructions they stand for. -/
def Obligations.DecodeWords : Prop :=
  ∀ r ∈ ([(0x110209F8, .addi 4 4 504), (0x12029D81, .ld 5 3 1 3 1), (0x48230B10, .add 6 5 34), (0x838110C8, .vaddF32 1 2 3 1),
      (0x07E00003, .ext 3), (0x01C386A0, .movi 7 1696), (0x07C28C3D, .kslotQuery 5 6 7), (0x04683886, .vtopk 8 7 2 0),
      (0x00000000, .nop), (0x00000002, .exit)] : List (Nat × Instr)),
    decodeBody r.1 = .ok r.2

/-- R69 to R76: the word of every well-formed slot instruction decodes to it, whatever its frame bits S and G, and every word that decodes
is the word of the well-formed instruction it decodes to: no bit is dropped. The rows that share a word decode to one of them. -/
def Obligations.DecodeEncode : Prop :=
  (∀ (i : Instr) (w : Nat), i.wf = true → encode i = some w → w < 2 ^ 27 ∧ ∀ f < 32, decodeBody (w + f * 2 ^ 27) = .ok (wordForm i)) ∧
  (∀ (i : Instr) (w : Nat), w < 2 ^ 27 → decodeBody w = .ok i → encode i = some w ∧ i.wf = true)

/-- R75: every value in an Unallocated column of Tables 14 to 17 is ILLEGAL: MAJOR for a whole major, FUNCTION for the rest. A bundle
whose first slot holds one traps with that reason. -/
def Obligations.UnallocatedTraps : Prop :=
  ∀ w : Nat,
    let major := bits w 21 6
    let fn := bits w 0 3
    let fe := bits w 0 6
    let vb := bits w 6 5
    (major ∈ [0x30, 0x31, 0x36, 0x37] → decodeBody w = .error .major) ∧
    (∀ r ∈ ([(0x00, fn = 7 ∨ (fn = 6 ∧ 8 ≤ bits w 3 6)), (0x05, fn = 7), (0x06, 6 ≤ fn), (0x0C, 4 ≤ bits w 6 3), (0x10, bits w 7 3 = 7),
        (0x11, 4 ≤ bits w 7 3), (0x12, 6 ≤ fn ∨ (fn = 4 ∧ 3 ≤ bits w 9 6)), (0x13, fn = 7), (0x16, 5 ≤ fn), (0x23, fn = 6 ∧ (vb = 0 ∨ 9 ≤ vb)),
        (0x26, 3 ≤ fn ∨ vb < 2 ∨ 9 ≤ vb), (0x2A, 6 ≤ fn), (0x2B, 5 ≤ fn), (0x2C, 4 ≤ fe), (0x2D, 3 ≤ bits w 4 3), (0x2E, 6 ≤ fe),
        (0x2F, 5 ≤ fe), (0x32, 7 ≤ fe), (0x33, 11 ≤ fe), (0x34, 11 ≤ fe), (0x35, 5 ≤ fe), (0x3A, fn = 7), (0x3B, 4 ≤ fn), (0x3D, fn = 7)] :
        List (Nat × Prop)), major = r.1 → r.2 → decodeBody w = .error .function) ∧
    (∀ e k ws, decodeBody w = .error e → (k = 0 ∨ bits w 27 4 ≠ 8) →
      decodeAll k (w :: ws) = .error { cause := 0x01, reason := e.code, slot := k }) ∧
    (∀ e s ws, decodeBody w = .error e → s.AtBundle → s.me.hasBundle = true → s.me.bundleWords = (w, .ok (w :: ws)) →
      s.me.waitLeft.getD (bits w 27 4) = 0 → (s.me.shadow = [] ∨ s.me.pending = []) → ∃ t, step s = .next t ∧
      (t.ctx s.cur).trapCause = 0x01 ∧ (t.ctx s.cur).trapInfo = BitVec.ofNat 64 e.code ∧ (t.ctx s.cur).trapPc = s.me.pc) ∧
    Illegal.major.code = 1 ∧ Illegal.function.code = 2

/-- R60, R61, R68, R88, R91, R99, R104: where the turn is the issuing context's and its next bundle is due, one step spends a cycle of its
wait count, or fetches its block, or, the count spent, is the trap that the bundle's checks name, a cycle in STALL where buffered writes
and landings collide, and else exec of the instruction, with what a bundle adds: the pc's advance or transfer and one cycle where
the bundle takes effect; the trap taken on the state before it where a slot traps; a cycle in STALL or BLOCK where it is held. The last
is said of a bundle whose slot 0 is any word and whose others are nop. The format pairs that the context has set are the engines' from the
bundle's cycle on (R173). A block that the fetch buffer holds gives the bundle's words.
One step as the turn of one context, and whose turn is next, are the model's own scheduling (log 5). -/
def Obligations.StepRunsBundle : Prop :=
  ∀ (s : State), s.AtBundle →
    let z := s.setMe s.me
    let u := z.unyield
    let c := u.me
    (∀ p, c.fetchBuf = some (c.pc.toNat / 256, p) → c.hasBundle = true ∧ c.bundleWords = (blockWord p (fld c.pc 2 6), slotsAt p c.pc)) ∧
    (∀ n, c.waitLeft = some (n + 1) → step s = .next (z.turned (u.waitStep n))) ∧
    (∀ w ws n, c.waitLeft = none → c.hasBundle = true → c.bundleWords = (w, ws) → bits w 27 4 = n + 1 →
      step s = .next (z.turned (u.waitStep n))) ∧
    ((c.waitLeft = none ∨ c.waitLeft = some 0) → c.hasBundle = false → ∃ t, u.fetchStep = .next t ∧ step s = .next (z.turned t)) ∧
    (∀ w words, c.hasBundle = true → c.bundleWords = (w, words) → c.waitLeft.getD (bits w 27 4) = 0 →
      (c.shadow ≠ [] → c.pending ≠ [] → step s = .next (z.turned (u.heldStep .stall))) ∧
      ((c.shadow = [] ∨ c.pending = []) →
        (∀ e, words = .error e → ∃ t, u.earlyTrap { cause := 0x02, reason := e.code } = .next t ∧ step s = .next (z.turned t)) ∧
        (∀ ws x, words = .ok ws → checkBundle ws = .error x → ∃ t, u.earlyTrap x = .next t ∧ step s = .next (z.turned t)) ∧
        (∀ i, words = .ok (oneSlotWords w) → checkBundle (oneSlotWords w) = .ok (oneSlot w i) →
          let ss := oneSlot w i
          let v := u.landFmts u.cur
          let s0 : State := { v.atSlot0 with issue := { v.atSlot0.issue with unit := latUnit i } }
          decodeBody w = .ok i ∧
          (∀ st, stalls c (needs ss ss) = some st → step s = .next (z.turned (v.heldStep st))) ∧
          (stalls c (needs ss ss) = none → boundShort c ss = true → step s = .next (z.turned (v.heldStep .block))) ∧
          (stalls c (needs ss ss) = none → boundShort c ss = false → ∀ s1, exec (s0.resolve i) s0 = .next s1 →
            (s1.issue.verdict = .ok →
              let s2 := if Instr.isLast i then s0 else s1
              ∃ t, ({ s2 with issue := { s2.issue with slot := 3, unit := 0, later := [], ext := none } }).closeBundle ss (oneSlotWords w)
                (c.pc + 16) = .next t ∧ step s = .next (z.turned t)) ∧
            (∀ x, s1.issue.verdict = .trapped x → ∃ t, (v.reseal s1.issue).earlyTrap x = .next t ∧ step s = .next (z.turned t)) ∧
            (∀ st, s1.issue.verdict = .held st →
              step s = .next (z.turned (((v.keepWaiting s1.issue).markWaiting s1.issue.waits).heldStep st)))))))

/-- R9, R10, R16, R18, R29, R31, R106, R171, R290, R293, R378: what reset leaves, in each context, cluster, site and post box; memory
lists nothing, in its canonical form, and no agent's step is due.
The values for which the spec states no reset are the model's choice (logs 1 and 2). -/
def Obligations.ResetState : Prop :=
  let s := State.reset
  s.memOk ∧ s.agendaOk ∧ (∀ a, readByte s.mem a = 0) ∧ s.stage = 1 ∧
  (∀ g, let c := s.ctx g
    (∀ n, c.getX n = 0) ∧ (∀ n, c.getV n = 0) ∧ (∀ n, c.getP n = if n = 0 then BitVec.allOnes 64 else 0) ∧ (∀ n, c.getC n = decide (n = 0)) ∧
    (∀ q, (c.getQ q).ents = [] ∧ (c.getQ q).bound = none ∧ (c.getVQ q).ents = [] ∧ (c.getVQ q).bound = none) ∧
    (∀ t, (c.tl t).issue = 0 ∧ (c.tl t).done = 0 ∧ (c.tl t).vis = 0 ∧ (c.tl t).err = none) ∧ c.rstack = [] ∧ c.ccount = 0 ∧ c.fctl = 0 ∧
    c.vflags = 0 ∧ c.priv = 0 ∧ c.ppriv = 0 ∧ c.trapcause = 0 ∧ c.trapPc = 0 ∧ c.trapAddr = 0 ∧ c.trapInfo = 0 ∧ c.trapVec = 0 ∧
    c.stkSpill = 0 ∧ c.ckptBase = 0 ∧ c.dirty = BitVec.allOnes 104 ∧ (∀ r, c.ring r = none)) ∧
  (∀ n, let c := s.cl n
    c.lsBase = 0 ∧ c.lsLim = 0 ∧ c.sbMode = false ∧ c.ptroot = 0 ∧ c.deepen = true ∧ c.retIdle = 65536 ∧ c.napIdle = 256 ∧ c.cethr = 4096 ∧
    c.wqHi = 48 ∧ c.wqLo = 16 ∧ c.rhThr = 1024 ∧ c.ceCnt = 0 ∧ c.merrStat = 0 ∧ (∀ k i, c.ownerOf k i = 0) ∧
    (∀ e, (c.engine e).na = 8 ∧ (c.engine e).nb = 8)) ∧
  (∀ n k, (mget {} (s.site n).slots k).st = .empty) ∧
  (∀ b, (s.pb b).letters = [] ∧ (s.pb b).weight = 1 ∧ (s.pb b).cls = 3)

/-- Every step of the machine completes: from a state whose agenda holds only agents' steps at places the device has, no step meets a
fault or a refusal, and its agenda holds only such steps again. (The agenda is the model's own, log 5.) -/
def Obligations.NeverStops : Prop :=
  ∀ s : State, s.agendaOk → ∃ t, step s = .next t ∧ t.agendaOk

/-- R26, R94, R99: the checks that every slot shares come first: a slot that they trap has no other effect, and one that they hold waits.
A level too low is found first, as PRIV with reason 1. Said of every slot but nop and ext, which check nothing, and csrr and csrw, whose
level is their register's (R249). -/
def Obligations.SharedChecks : Prop :=
  ∀ (s : State) (i : Instr) (w : Nat), encode i = some w → bits w 21 6 ≠ 0x3F → i ≠ .nop →
    (∀ d n, i ≠ .csrr d n ∧ i ≠ .csrw d n) →
    (∀ t, s.issueCheck (shape i).level (shape i).srcs (shape i).dsts (shape i).peek = some (.trap t) → exec i s = s.trapNow t) ∧
    (∀ c, s.issueCheck (shape i).level (shape i).srcs (shape i).dsts (shape i).peek = some (.hold c) → exec i s = s.hold c) ∧
    (s.me.priv < (shape i).level → exec i s = s.trapNow { cause := 0x03, reason := 1 }) ∧
    (∀ r ∈ (shape i).srcs, (shape i).level ≤ s.me.priv → s.myCl.sbMode = true → r.isQueue = false → s.me.isPending r = true →
      ∃ x ∈ (shape i).srcs, s.me.isPending x = true ∧ exec i s = s.trapNow { cause := 0x0B, reason := x.file, detail := x.ix })

/-- R99: an instruction whose checks pass takes effect. Every slot of takesEffect, which no other trap and no wait of its own stops, goes on
with its own meaning wherever the checks that all slots share pass; and every step of an agent has a next state, whatever the state. -/
def Obligations.CheckedSlotsComplete : Prop :=
  (∀ (s : State) (i : Instr), takesEffect i = true →
    s.issueCheck (shape i).level (shape i).srcs (shape i).dsts (shape i).peek = none → s.issue.verdict = .ok →
      ∃ t, exec i s = .next t ∧ t.issue.verdict = .ok) ∧
  (∀ (s : State) (i : Instr), isAgentStep i = true → ∃ t, exec i s = .next t)

/-- R102, R104, R105: a trap saves the cause, the address, the detail and the level, raises the level, moves the writes in flight to the
shadow buffer unless it holds entries, suspends a replay and goes to TRAPVEC, or ends the context where TRAPVEC is 0; no register file and
no byte of memory changes but by the writes that are due, which land. eret restores the level and the pc, spends WREM, resumes the replay, and where SHADOW is 1 the buffered
writes re-enter the pipeline at their offsets, as issued before the handler's (R90). -/
def Obligations.TrapEntryRule : Prop :=
  (∀ (s : State) (g : Nat) (t : Trap) (pc : W64) (w : Nat),
    let z : State := s.freezeTask g t pc
    let c : Ctx := (z.ctx g).landDue
    ((∀ p ∈ (z.ctx g).pending, (z.ctx g).ccount < p.due) → c = z.ctx g) ∧ c.ccount = (z.ctx g).ccount ∧
    let u : Ctx := (s.trapEntry g t pc w).ctx g
    ((s.ctx g).task = none → z = s) ∧ u.settle = true ∧ u.waitLeft = none ∧
    u.trapCause = t.cause ∧ u.trapPc = pc ∧ u.trapAddr = t.addr ∧ u.trapInfo = BitVec.ofNat 64 (t.detail * 2 ^ 11 + t.slot * 2 ^ 8 + t.reason) ∧
    u.trapWrem = w ∧ u.ppriv = c.priv ∧ u.priv = (if s.isMon (g / 4) then 2 else 1) ∧ u.pc = c.trapVec ∧
    (c.trapVec = 0 → u.live = .exiting ∧ u.exitTrap = some t) ∧ (c.trapVec ≠ 0 → u.live = c.live ∧ u.exitTrap = c.exitTrap) ∧
    (c.shadow = [] → u.pending = [] ∧ u.shadow.length = c.pending.length ∧ u.trapShadow = !c.pending.isEmpty ∧
      ∀ (k : Nat) (p : Pend), c.pending[k]? = some p → ∃ e : Shadow, u.shadow[k]? = some e ∧ e.wr = p.wr ∧ e.k = p.due - c.ccount ∧ e.fl = p.fl ∧ e.toV = p.toV) ∧
    (c.shadow ≠ [] → u.pending = c.pending ∧ u.shadow = c.shadow ∧ u.trapShadow = false) ∧
    (∀ l, u.lbuf = some l → l.suspended = true) ∧
    u.xs = c.xs ∧ u.vs = c.vs ∧ u.ps = c.ps ∧ u.cs = c.cs ∧ u.qs = c.qs ∧ u.vqs = c.vqs ∧ u.fctl = c.fctl ∧ u.vflags = c.vflags ∧
    u.inflight = c.inflight ∧ (s.trapEntry g t pc w).mem = z.mem ∧ ∀ h, h ≠ g → (s.trapEntry g t pc w).ctx h = z.ctx h) ∧
  (∀ c : Ctx,
    let u := c.eret
    u.priv = c.ppriv ∧ u.pc = c.trapPc ∧ u.waitLeft = some c.trapWrem ∧ (∀ l, u.lbuf = some l → l.suspended = false) ∧ u.sqr.susp = false ∧
    (c.trapShadow = true → u.shadow = [] ∧ u.trapShadow = false ∧ u.pending = (c.shadow.map fun e =>
      { wr := if e.noVal then .flags else e.wr, due := c.ccount + e.k, seq := 0, fl := e.fl, toV := e.toV }) ++ c.pending) ∧
    (c.trapShadow = false → u.shadow = c.shadow ∧ u.pending = c.pending) ∧
    u.xs = c.xs ∧ u.vs = c.vs ∧ u.ps = c.ps ∧ u.cs = c.cs ∧ u.ccount = c.ccount)

/-- R10, R29, R89, R93: a fixed-latency result of latency L to a register with no other write pending lands L cycles on: before, the
register reads as it did, and from then on it reads the result; its flags are set then. s0, c0 and p0 read as they always do. Said of a
context for which no interlocked result that is known waits to land, and of cycles now + 1 and on by which the stepping has delivered
every pending result and format pair; where one that is due has not been delivered, the count stands, nothing lands, and the context is in COMPENSATE
until a cycle by which it has come, in which it lands. -/
def Obligations.FixedLatencyLands : Prop :=
  (∀ (s : State) (L k n now : Nat) (fl : BitVec 5), 1 ≤ L → (∀ f ∈ s.me.inflight, f.val = none) → (∀ e ∈ s.me.fmts, e.2.2.2 ≤ now) →
    let in_ (wr : Wr) (toV : Bool) : Ctx := (s.fix L wr fl toV).me
    let ok (wr : Wr) (toV : Bool) : Prop := ∀ p ∈ (in_ wr toV).pending, p.arr ≤ now
    let at_ (wr : Wr) (toV : Bool) : Ctx := (in_ wr toV).ticks now k
    let other (r : Reg) : Prop := ∀ p ∈ s.me.pending, p.wr.reg ≠ some r
    (∀ v b, ok (.x n v) b → other (.x n) → 0 < n → n < 48 → (at_ (.x n v) b).getX n = if k < L then s.me.getX n else v) ∧
    (∀ v b, ok (.v n v) b → other (.v n) → n < 28 → (at_ (.v n v) b).getV n = if k < L then s.me.getV n else v) ∧
    (∀ v b, ok (.p n v) b → other (.p n) → 0 < n → (at_ (.p n v) b).getP n = if k < L then s.me.getP n else v) ∧
    (∀ v b, ok (.c n v) b → other (.c n) → 0 < n → n < 8 → (at_ (.c n v) b).getC n = if k < L then s.me.getC n else v) ∧
    (∀ q v b, ok (.x (48 + q) v) b → s.me.pending = [] → q < 16 →
      ((at_ (.x (48 + q) v) b).getQ q).ents = (s.me.getQ q).ents ++ (if k < L then [] else [v])) ∧
    (∀ q v b, ok (.v (28 + q) v) b → s.me.pending = [] → q < 4 →
      ((at_ (.v (28 + q) v) b).getVQ q).ents = (s.me.getVQ q).ents ++ (if k < L then [] else [v])) ∧
    (∀ v x y b, (at_ (.x 0 v) b).getX 0 = 0 ∧ (at_ (.c 0 x) b).getC 0 = true ∧ (at_ (.p 0 y) b).getP 0 = BitVec.allOnes 64) ∧
    (∀ wr, ok wr true → ok wr false → s.me.pending = [] → (at_ wr false).fctl = s.me.fctl ||| (if k < L then 0 else fl.setWidth 64) ∧
      (at_ wr true).vflags = s.me.vflags ||| (if k < L then 0 else fl.setWidth 64))) ∧
  (∀ (c : Ctx) (p : Pend) (now : Nat), p ∈ c.pending → p.due ≤ c.ccount + 1 → now < p.arr →
    c.tick now = { c with ccount := c.ccount + 1, cstate := .compensate } ∧
    (∀ later, later < p.arr → (c.tick now).endCompensate later = c.tick now) ∧
    (∀ later, (∀ q ∈ c.pending, q.arr ≤ later) → (∀ e ∈ c.fmts, e.2.2.2 ≤ later) → (c.tick now).endCompensate later = { c.tick now with cstate := .held }.landAll))

/-- The frame of the register instructions: majors 0x01 to 0x0F and 0x18 to 0x26, where the slot takes effect. Memory, clusters, sites,
fabric, teams and post boxes, every other context, and of the issuing context every register file, status and special register, timeline
and ring stay as they are: the results wait in flight, only for the registers the slot names as destinations, and a queue
register changes only where the slot names it as a source. -/
def Obligations.RegisterFrame : Prop :=
  ∀ (s t : State) (i : Instr) (w : Nat), encode i = some w → (1 ≤ bits w 21 6 ∧ bits w 21 6 ≤ 15 ∨ 24 ≤ bits w 21 6 ∧ bits w 21 6 ≤ 38) →
    s.issue.verdict = .ok → exec i s = .next t → t.issue.verdict = .ok →
      t.mem = s.mem ∧ t.bad = s.bad ∧ t.clusters = s.clusters ∧ t.sites = s.sites ∧ t.net = s.net ∧ t.teams = s.teams ∧ t.pbs = s.pbs ∧
      t.issue = s.issue ∧ t.cur = s.cur ∧ (∀ g, g ≠ s.cur → t.ctx g = s.ctx g) ∧
      (∃ qs vqs dirty ps fs k, t.me = { s.me with
          qs := qs, vqs := vqs, dirty := dirty, pending := s.me.pending ++ ps, inflight := s.me.inflight ++ fs, nextId := k } ∧
        (∀ p ∈ ps, ∀ r, p.wr.reg = some r → r ∈ (shape i).dsts) ∧ (∀ f ∈ fs, ∀ r ∈ f.dsts, r ∈ (shape i).dsts)) ∧
      (∀ q, Reg.x (48 + q) ∉ (shape i).srcs → t.me.getQ q = s.me.getQ q) ∧
      (∀ q, Reg.v (28 + q) ∉ (shape i).srcs → t.me.getVQ q = s.me.getVQ q)

/-- The frame of the storing instructions. st, vst, scatters, scatter-adds and atomics change no byte of memory as they issue: the
access of each element, at the address computed for it, is under way. Performed, an access to the local store changes the bytes it
addresses, and no other byte; a store to a home that the L1 caches changes the line: a load there gives the bytes back, and bytes of the
home change only where a dirty line of the same set is written back; a load changes no byte but so; and at a pigeonhole bank nothing
changes until its turn. Said where no word of memory fails and the L1's tags are sound; a write to an encrypted home changes the ciphertext
of its data unit (R356). -/
def Obligations.StoreFrame : Prop :=
  (∀ (s : State),
    (∀ (s1 : State) (x : W64) (d : BitVec 6) (r : BitVec 4) (u : BitVec 1) (z : BitVec 3) (o : BitVec 7) (pa : Nat),
      Ready (.st d r u z o) s → s.readX d.toNat = (x, s1) →
      let n := szBytes z.toNat
      let va := fmAddr u (s.areg r.toNat) (s.imm o * n)
      let s' := s1.noteTlb s.clNo (s.agentOf s.cur) false va.toNat
      s1.access va n .write = .ok pa → s'.missFull s'.clNo (s'.missing s'.clNo pa) = false → ∃ t, exec (.st d r u z o) s = .next t ∧
        UnderWay s1 t { pa := pa, va := va, op := .store n, arg := x, id := s.nextInter } ∧ t.mem = s.mem ∧
        (∃ qs dirty ps, t.me = { s.me with
          qs := qs, dirty := dirty, posted := ps, pending := (s.bump u r.toNat (s.areg r.toNat) (s.imm o * n)).me.pending }) ∧
        (∀ g, g ≠ s.cur → t.ctx g = s.ctx g)) ∧
    (∀ (s1 : State) (x : V2048) (d : BitVec 5) (r : BitVec 4) (u : BitVec 1) (p : BitVec 3) (m : BitVec 2) (o : BitVec 6) (acc : VAcc),
      Ready (.vst d r u p m o) s → s.readV d.toNat = (x, s1) → s1.vAcc true r u (s1.me.getP p.toNat) m (s1.imm o) = .ok acc →
      s1.vecCheck 4 acc.badStride (acc.lanes.map acc.at_) = none → ∃ t rs, exec (.vst d r u p m o) s = .next t ∧ t.mem = s.mem ∧
        t.me.posted = s.me.posted ++ rs ∧ rs.map (fun q => (q.pa, q.op)) = acc.lanes.map (fun l => (lsAt s.clNo (acc.at_ l).toNat, .store 4))) ∧
    (∀ (s1 : State) (x y : V2048) (d b : BitVec 5) (r : BitVec 4) (p : BitVec 3), s.read2V d b = (x, y, s1) →
      ∀ g ∈ ([(Instr.vsct32, false, 4, MemOp.store 4), (.vsct16, true, 2, .store 2), (.vsctaddF32, false, 4, .addEl true),
          (.vsctaddS32, false, 4, .addEl false)] : List ((BitVec 5 → BitVec 4 → BitVec 5 → BitVec 3 → Instr) × Bool × Nat × MemOp)),
        Ready (g.1 d r b p) s →
          let es := elems g.2.1 (s.areg r.toNat) y (s.me.getP p.toNat)
          s1.vecCheck g.2.2.1 false (es.map (·.2.2)) = none → ∃ t rs, exec (g.1 d r b p) s = .next t ∧ t.mem = s.mem ∧
            t.me.posted = s.me.posted ++ rs ∧ rs.map (fun q => (q.pa, q.op)) = es.map (fun e => (lsAt s.clNo e.2.2.toNat, g.2.2.2))) ∧
    (∀ (s1 : State) (x y : W64) (d a b : BitVec 6) (pa : Nat), s.read2 a b = (x, y, s1) →
      ∀ c ∈ ([(Instr.aadd, .add, x), (.aand, .and, x), (.aor, .or, x), (.axchg, .xchg, x), (.amaxs, .maxs, x), (.amins, .mins, x),
          (.aaddf, .addf, x), (.afx, .fx, x), (.acas, .cas, x), (.ahist, .hist, x + BitVec.ofNat 64 (4 * fld y 0 32))] :
          List ((BitVec 6 → BitVec 6 → BitVec 6 → Instr) × AmoOp × W64)),
        Ready (c.1 d a b) s → s1.access c.2.2 c.2.1.size .amo = .ok pa → ∃ t q, exec (c.1 d a b) s = .next t ∧ t.mem = s.mem ∧
          t.me.posted = s.me.posted ++ [q] ∧ q.pa = pa ∧ q.op = .amo c.2.1)) ∧
  (∀ (s : State) (r : MemReq), s.bad = [] →
    let cl := r.ctx / 4
    let same (a : Nat) : Prop := readByte (s.serve r).mem a = readByte s.mem a
    (s.l1Line cl r.pa = none →
      (∀ n, r.op = .store n → (s.memOk → (s.serve r).load r.pa n = r.arg.toNat % 2 ^ (8 * n)) ∧
        ∀ a, a < r.pa ∨ r.pa + n ≤ a → same a) ∧
      (∀ op, r.op = .amo op → ∀ a, a < r.pa ∨ r.pa + op.size ≤ a → same a) ∧ (∀ w, r.op = .load w → (s.serve r).mem = s.mem)) ∧
    (∀ f, r.op = .addEl f → keyOf r.pa = 0 → ∀ a, a < r.pa ∨ r.pa + 4 ≤ a → same a) ∧ (∀ n b, r.op = .lane n b → (s.serve r).mem = s.mem) ∧
    (r.op = .bcst → (s.serve r).mem = s.mem) ∧ (s.sendPig r).mem = s.mem ∧
    (∀ line, s.l1Line cl r.pa = some line → (∀ l ∈ (s.cl cl).l1, l.parity = false) →
      let clear (a : Nat) : Prop := ∀ l ∈ (s.cl cl).l1, l.line ≠ line → l.line % 1024 = line % 1024 → l.dirty ≠ 0 →
        let h := keyed (s.lineHome cl l.line) l.key
        (a < h ∨ h + 128 ≤ a) ∧ (a < bare h ∨ bare h + 128 ≤ a)
      (∀ w, r.op = .load w → ∀ a, clear a → same a) ∧
      (∀ n, r.op = .store n → n ∈ [1, 2, 4, 8] → r.pa % n = 0 →
        ((s.serve r).loadVia cl r.pa n).1 = some (r.arg.toNat % 2 ^ (8 * n)) ∧ ∀ a, clear a → same a)))

/-- R39: an fx addition of codes a and b yields SatS64(a + b) and raises no flag, for afx, acc.fx and the residual of a heap; it is exact where
a + b lies in range; and any order of additions has one result, the exact total, where the absolute values of the initial code and
of all the deltas add up to at most 2^63 − 1. Otherwise each addition saturates in turn. -/
def Obligations.FxAddition : Prop :=
  let fx (x y : W64) : W64 := BitVec.ofNat 64 (AmoOp.fx.apply x.toNat y 0).1
  (∀ a b d : W64, AmoOp.fx.apply a.toNat b d = ((fx a b).toNat, 0) ∧ RemKind.fx.apply a.toNat b.toNat = ((fx a b).toNat, 0) ∧
    (fx a b).toInt = satS64 (a.toInt + b.toInt) ∧ -(2 ^ 63) ≤ (fx a b).toInt ∧ (fx a b).toInt ≤ 2 ^ 63 - 1 ∧
    (-(2 ^ 63) ≤ a.toInt + b.toInt → a.toInt + b.toInt ≤ 2 ^ 63 - 1 → (fx a b).toInt = a.toInt + b.toInt)) ∧
  (∀ (a : W64) (l l' : List W64), l.Perm l' → a.toInt.natAbs + (l.map fun x => x.toInt.natAbs).sum ≤ 2 ^ 63 - 1 →
    l.foldl fx a = l'.foldl fx a ∧ (l.foldl fx a).toInt = a.toInt + (l.map fun x => x.toInt).sum) ∧
  (∀ (s s' : State) (x y : W64) (d a b : BitVec 6), s.read2 a b = (x, y, s') → s'.hUsable x = true → Ready (.hres d a b) s →
    ∃ t, exec (.hres d a b) s = .next t ∧ ((t.site (hSite x)).heap (hIx x)).res = fx ((s'.site (hSite x)).heap (hIx x)).res y)

end
end

