-- ==== Sys2Proof/Laws/Access.lean ====
section
/-! SUPPORT. What reading, waking and translating leave of the state: memory, the contexts, the bundle being issued, and the clusters'
cycles. -/
namespace Sys2Proof.Machine

/-- Nothing that a program computes with differs between s and t: only clusters' caches, queues, counters and logs may. -/
structure Reads (s t : State) : Prop where
  mem : t.mem = s.mem
  ctxs : t.ctxs = s.ctxs
  cur : t.cur = s.cur
  issue : t.issue = s.issue
  cycle : ∀ n, (t.cl n).cycle = (s.cl n).cycle

theorem Reads.refl (s : State) : Reads s s := ⟨rfl, rfl, rfl, rfl, fun _ => rfl⟩

theorem Reads.trans {s t u : State} (h : Reads s t) (k : Reads t u) : Reads s u :=
  ⟨k.mem.trans h.mem, k.ctxs.trans h.ctxs, k.cur.trans h.cur, k.issue.trans h.issue, fun n => (k.cycle n).trans (h.cycle n)⟩

theorem Reads.me {s t : State} (h : Reads s t) : t.me = s.me := by unfold State.me State.ctx; rw [h.ctxs, h.cur]
theorem Reads.clNo {s t : State} (h : Reads s t) : t.clNo = s.clNo := by unfold State.clNo; rw [h.cur]
theorem Reads.myCycle {s t : State} (h : Reads s t) : t.myCl.cycle = s.myCl.cycle := by
  unfold State.myCl; rw [h.clNo]; exact h.cycle _

theorem Reads.setCl (s : State) (n : Nat) (c : Cluster) (h : c.cycle = (s.cl n).cycle) : Reads s (s.setCl n c) := by
  refine ⟨rfl, rfl, rfl, rfl, fun m => ?_⟩
  by_cases e : m = n
  · subst e; rw [State.cl_setCl, h]
  · rw [State.cl_setCl_ne _ _ _ _ e]

theorem Reads.foldl {α : Type} (f : State → α → State) (hf : ∀ s a, Reads s (f s a)) (l : List α) (s : State) : Reads s (l.foldl f s) :=
  foldl_keeps (Reads s) f (fun t a h => h.trans (hf t a)) l (Reads.refl s)

theorem Reads.ite {s t u : State} {p : Prop} [Decidable p] (h : Reads s t) (k : Reads s u) : Reads s (if p then t else u) := by
  split
  · exact h
  · exact k

theorem State.reads_logEntry (s : State) (site cls : Nat) (cl : Option Nat) (code src addr detail : Nat) :
    Reads s (s.logEntry site cls cl code src addr detail) := ⟨rfl, rfl, rfl, rfl, fun _ => rfl⟩

theorem State.reads_logErr (s : State) (cl pa code : Nat) : Reads s (s.logErr cl pa code) := by
  unfold State.logErr
  dsimp only
  refine Reads.trans ?_ (State.reads_logEntry _ _ _ _ _ _ _ _)
  exact Reads.setCl s cl _ rfl

theorem State.reads_logBad (s : State) (cl pa n code : Nat) : Reads s (s.logBad cl pa n code) :=
  Reads.ite (State.reads_logErr _ _ _ _) (Reads.refl s)

theorem State.reads_countEvent (s : State) (cl pa : Nat) : Reads s (s.countEvent cl pa) := by
  unfold State.countEvent
  dsimp only
  refine Reads.trans ?_ (State.reads_logEntry _ _ _ _ _ _ _ _)
  refine Reads.setCl s cl _ ?_
  split <;> rfl

theorem State.reads_correct (s : State) (cl pa n : Nat) : Reads s (s.correct cl pa n) :=
  Reads.trans (t := { s with soft := s.soft.filter fun w => !decide (w < bare pa + n ∧ bare pa < w + wordLen w) })
    ⟨rfl, rfl, rfl, rfl, fun _ => rfl⟩ (Reads.foldl _ (fun _ _ => State.reads_countEvent _ _ _) _ _)

theorem State.reads_wakeLs (s : State) (cl x n : Nat) : Reads s (s.wakeLs cl x n) :=
  Reads.foldl _ (fun t _ => Reads.ite (Reads.refl t) (Reads.setCl t cl _ (by rfl))) _ _

theorem State.reads_readySet (s : State) (cl k : Nat) : Reads s (s.readySet cl k) := Reads.ite (Reads.refl s) (Reads.setCl s cl _ (by rfl))

theorem State.reads_activate (s : State) (cl x : Nat) : Reads s (s.activate cl x) := by
  unfold State.activate
  dsimp only
  have k : Reads s (if (s.cl cl).rowBad.contains ((s.cl cl).rowKey x) then s.countEvent cl (sliceAt cl x) else s) :=
    Reads.ite (State.reads_countEvent _ _ _) (Reads.refl s)
  revert k
  generalize (if (s.cl cl).rowBad.contains ((s.cl cl).rowKey x) then s.countEvent cl (sliceAt cl x) else s) = t
  intro k
  refine (k.trans (Reads.setCl t cl _ ?_)).trans (State.reads_readySet _ _ _)
  split <;> rfl

theorem State.reads_noteEnc (s : State) (pa : Nat) : Reads s (s.noteEnc pa) :=
  Reads.ite (Reads.refl s) (Reads.setCl s (unitOf pa) _ (by rfl))

/-- Waking changes only what is awake, and which frames are known to hold ciphertext. -/
theorem State.reads_wake (s : State) (pa n : Nat) : Reads s (s.wake pa n) :=
  Reads.ite (State.reads_wakeLs _ _ _ _)
    (Reads.ite ((Reads.foldl _ (fun _ _ => State.reads_activate _ _ _) _ _).trans (State.reads_noteEnc _ _)) (Reads.refl s))

theorem Cluster.cycle_slcTouch (l : List Nat) (c : Cluster) : (l.foldl Cluster.slcTouch c).cycle = c.cycle := by
  induction l generalizing c with
  | nil => rfl
  | cons a l ih => exact (ih _).trans rfl

theorem State.reads_slcPass (s : State) (cl x n : Nat) : Reads s (s.slcPass cl x n) :=
  Reads.setCl s cl _ (Cluster.cycle_slcTouch _ _)

theorem State.reads_drainWq (s : State) (cl ch : Nat) (gone : WqEnt → Bool) : Reads s (s.drainWq cl ch gone) :=
  Reads.trans (Reads.setCl s cl _ (by rfl)) (Reads.foldl _ (fun _ _ => State.reads_slcPass _ _ _ _) _ _)

theorem State.reads_drainRead (s : State) (cl x n : Nat) : Reads s (s.drainRead cl x n) :=
  Reads.ite (Reads.refl s) (Reads.foldl _ (fun _ _ => State.reads_drainWq _ _ _ _) _ _)

/-- A read of memory changes nothing that a program computes with. -/
theorem State.reads_readAt (s : State) (cl pa n : Nat) : Reads s (s.readAt cl pa n) := by
  unfold State.readAt
  dsimp only
  have w := State.reads_wake s pa n
  have d : ∀ t : State, Reads s t → Reads s ((t.drainRead (unitOf pa) (offOf pa) n).slcPass (unitOf pa) (offOf pa) n) := fun t h =>
    h.trans ((State.reads_drainRead _ _ _ _).trans (State.reads_slcPass _ _ _ _))
  have k : Reads s (if spaceOf pa = 1 then ((s.wake pa n).drainRead (unitOf pa) (offOf pa) n).slcPass (unitOf pa) (offOf pa) n
      else s.wake pa n) := Reads.ite (d _ w) w
  exact Reads.ite k (k.trans (State.reads_correct _ _ _ _))

theorem State.reads_walkReads (s : State) (cl : Nat) (a : Agent) (va : Nat) : Reads s (s.walkReads cl a va) :=
  Reads.ite (Reads.refl s) (Reads.foldl _ (fun _ _ => State.reads_readAt _ _ _ _) _ _)

/-- A translation noted in a TLB changes nothing that a program computes with. -/
theorem State.reads_noteTlb (s : State) (cl : Nat) (a : Agent) (eng : Bool) (va : Nat) : Reads s (s.noteTlb cl a eng va) := by
  unfold State.noteTlb
  dsimp only
  split
  · exact Reads.refl s
  · split
    · refine (State.reads_walkReads s cl a va).trans (Reads.setCl _ cl _ ?_)
      split <;> rfl
    · exact State.reads_walkReads s cl a va
    · exact Reads.refl s

theorem State.reads_wantLine (s : State) (cl line key : Nat) : Reads s (s.wantLine cl line key) :=
  Reads.ite (Reads.refl s) (Reads.setCl s cl _ (by rfl))

theorem State.reads_askLine (s : State) (cl : Nat) (line : Option Nat) (key : Nat) : Reads s (s.askLine cl line key) := by
  unfold State.askLine
  split
  · exact Reads.refl s
  · exact Reads.ite (Reads.refl s) ((Reads.setCl s cl _ (by rfl)).trans (State.reads_wantLine _ _ _ _))

/-! ## Accesses under way -/

theorem foldl_max_le {l : List MemReq} (m : Nat) : m ≤ l.foldl (fun d p => max d p.due) m ∧
    ∀ p ∈ l, p.due ≤ l.foldl (fun d p => max d p.due) m := by
  induction l generalizing m with
  | nil => exact ⟨le_refl m, fun _ h => by cases h⟩
  | cons q l ih =>
    obtain ⟨h1, h2⟩ := ih (max m q.due)
    refine ⟨le_trans (le_max_left _ _) h1, fun p hp => ?_⟩
    cases hp with
    | head => exact le_trans (le_max_right _ _) h1
    | tail _ hp => exact h2 p hp

/-- Posting an access only adds it to its context's list, due at a later cycle and after what it meets. -/
theorem State.post_spec (s : State) (r : MemReq) : ∃ due, s.myCl.cycle < due ∧ (∀ p ∈ s.me.posted, r.meets p = true → p.due ≤ due) ∧
    s.post r = { s.setMe { s.me with
      posted := s.me.posted ++ [{ r with ctx := s.cur, bpc := s.issue.bpc, slot := s.issue.slot, due := due, seq := s.me.seq }] } with free := s.free + 1 } := by
  unfold State.post State.fresh
  dsimp only
  generalize hm : s.myCl.cycle + 1 + (Config.freeWord s.free).toNat % Config.postBound = m
  have k := foldl_max_le (l := s.me.posted.filter
    (MemReq.meets { r with ctx := s.cur, bpc := s.issue.bpc, slot := s.issue.slot, seq := s.me.seq })) m
  refine ⟨_, ?_, fun p hp h => k.2 p ?_, ?_⟩
  · exact lt_of_lt_of_le (by omega) k.1
  · rw [List.mem_filter]; exact ⟨hp, h⟩
  · subst hm; rfl

end Sys2Proof.Machine
end

