-- ==== Sys2Proof/Tests/Slice0.lean ====
section
/-! SUPPORT. Tests: words written out from the encoding tables of the spec, ill-formed terms, single steps whose results the
spec gives, and for each statement states and operands that meet its hypotheses. -/
namespace Sys2Proof.Tests
open Sys2Proof Sys2Proof.Machine

set_option Elab.async false

/-! ## Decoding: one word per row, laid out from the row's match value and operand fields (opcode table, R69 to R79) -/

noncomputable def decodesTo (l : List (Nat × Instr)) : Bool := l.all fun r => decodeTableWord 32 r.1 == some r.2

def words00 : List (Nat × Instr) :=
  [(0x00000000, .nop), (0x00000001, .yield), (0x00000002, .exit), (0x0000004B, .brk 9), (0x0000004C, .trap 9),
   (0x00048005, .rdcyc 9), (0x0004802E, .rdid 9 5)]

theorem test_decode_major_00 : decodesTo words00 = true := by decide +kernel

def words01 : List (Nat × Instr) :=
  [(0x00249C98, .add 9 14 19), (0x00249C99, .sub 9 14 19), (0x00249C9A, .and 9 14 19), (0x00249C9B, .or 9 14 19),
   (0x00249C9C, .xor 9 14 19), (0x00249C9D, .andn 9 14 19), (0x00249C9E, .orn 9 14 19), (0x00249C9F, .abd 9 14 19)]

theorem test_decode_major_01 : decodesTo words01 = true := by decide +kernel

def words02 : List (Nat × Instr) :=
  [(0x00449C98, .shl 9 14 19), (0x00449C99, .shr 9 14 19), (0x00449C9A, .sar 9 14 19), (0x00449C9B, .rol 9 14 19),
   (0x00449C04, .clz 9 14), (0x00449C05, .ctz 9 14), (0x00449C06, .popc 9 14), (0x00449C07, .brev 9 14)]

theorem test_decode_major_02 : decodesTo words02 = true := by decide +kernel

def words03 : List (Nat × Instr) :=
  [(0x00649C98, .mul 9 14 19), (0x00649C99, .mulhs 9 14 19), (0x00649C9A, .mulhz 9 14 19), (0x00649C9B, .divs 9 14 19),
   (0x00649C9C, .divz 9 14 19), (0x00649C9D, .rems 9 14 19), (0x00649C9E, .remz 9 14 19), (0x00649C9F, .mulw 9 14 19)]

theorem test_decode_major_03 : decodesTo words03 = true := by decide +kernel

def words04 : List (Nat × Instr) :=
  [(0x00849C98, .mins 9 14 19), (0x00849C99, .maxs 9 14 19), (0x00849C9A, .minz 9 14 19), (0x00849C9B, .maxz 9 14 19),
   (0x00849C9C, .bfx 9 14 19), (0x00849C9D, .bfi 9 14 19), (0x00849C9E, .sext 9 14 19), (0x00849C9F, .zext 9 14 19)]

theorem test_decode_major_04 : decodesTo words04 = true := by decide +kernel

def words05 : List (Nat × Instr) :=
  [(0x00BC1C98, .ceq 7 14 19), (0x00BC1C99, .cne 7 14 19), (0x00BC1C9A, .clts 7 14 19), (0x00BC1C9B, .cles 7 14 19),
   (0x00BC1C9C, .cltz 7 14 19), (0x00BC1C9D, .clez 7 14 19), (0x00BC1C9E, .ctst 7 14 19)]

theorem test_decode_major_05 : decodesTo words05 = true := by decide +kernel

def words06 : List (Nat × Instr) :=
  [(0x00C38238, .cand 7 1 7), (0x00C38239, .cor 7 1 7), (0x00C3823A, .cxor 7 1 7), (0x00C3823B, .candn 7 1 7),
   (0x00C39C04, .cmov 7 14), (0x00C48205, .cget 9 1)]

theorem test_decode_major_06 : decodesTo words06 = true := by decide +kernel

def words07 : List (Nat × Instr) :=
  [(0x00E49C99, .sel 9 14 19 1)]

theorem test_decode_major_07 : decodesTo words07 = true := by decide +kernel

def words08 : List (Nat × Instr) :=
  [(0x01049C13, .addi 9 14 19)]

theorem test_decode_major_08 : decodesTo words08 = true := by decide +kernel

def words09 : List (Nat × Instr) :=
  [(0x01249C13, .andi 9 14 19)]

theorem test_decode_major_09 : decodesTo words09 = true := by decide +kernel

def words0A : List (Nat × Instr) :=
  [(0x01449C13, .ori 9 14 19)]

theorem test_decode_major_0A : decodesTo words0A = true := by decide +kernel

def words0B : List (Nat × Instr) :=
  [(0x01649C13, .xori 9 14 19)]

theorem test_decode_major_0B : decodesTo words0B = true := by decide +kernel

def words0C : List (Nat × Instr) :=
  [(0x01849C13, .shli 9 14 19), (0x01849C53, .shri 9 14 19), (0x01849C93, .sari 9 14 19), (0x01849CD3, .roli 9 14 19)]

theorem test_decode_major_0C : decodesTo words0C = true := by decide +kernel

def words0D : List (Nat × Instr) :=
  [(0x01BC1C13, .ceqi 7 14 19), (0x01BC9C13, .cnei 7 14 19), (0x01BD1C13, .cltsi 7 14 19), (0x01BD9C13, .clesi 7 14 19),
   (0x01BE1C13, .cltzi 7 14 19), (0x01BE9C13, .clezi 7 14 19), (0x01BF1C13, .cgtsi 7 14 19), (0x01BF9C13, .cgtzi 7 14 19)]

theorem test_decode_major_0D : decodesTo words0D = true := by decide +kernel

def words0E : List (Nat × Instr) :=
  [(0x01C4800E, .movi 9 14)]

theorem test_decode_major_0E : decodesTo words0E = true := by decide +kernel

def words0F : List (Nat × Instr) :=
  [(0x01E4800E, .adr 9 14)]

theorem test_decode_major_0F : decodesTo words0F = true := by decide +kernel

def words10 : List (Nat × Instr) :=
  [(0x0204F49D, .ld 9 14 1 1 29)]

theorem test_decode_major_10 : decodesTo words10 = true := by decide +kernel

def words11 : List (Nat × Instr) :=
  [(0x0224F49D, .st 9 14 1 1 29)]

theorem test_decode_major_11 : decodesTo words11 = true := by decide +kernel

def words12 : List (Nat × Instr) :=
  [(0x02401270, .dclean 9 14), (0x02401271, .dinv 9 14), (0x02401272, .dflush 9 14), (0x02401273, .isync 9 14),
   (0x02400404, .fence 2), (0x02401205, .pref 9)]

theorem test_decode_major_12 : decodesTo words12 = true := by decide +kernel

def words13 : List (Nat × Instr) :=
  [(0x02649C99, .ldx 9 14 19 1)]

theorem test_decode_major_13 : decodesTo words13 = true := by decide +kernel

def words14 : List (Nat × Instr) :=
  [(0x02800009, .br 9)]

theorem test_decode_major_14 : decodesTo words14 = true := by decide +kernel

def words15 : List (Nat × Instr) :=
  [(0x02A00009, .call 9)]

theorem test_decode_major_15 : decodesTo words15 = true := by decide +kernel

def words16 : List (Nat × Instr) :=
  [(0x02C00000, .ret), (0x02C01201, .jr 9), (0x02C01202, .callr 9), (0x02C39C3B, .bru 7 14 7), (0x02C49C04, .lbuf 9 14)]

theorem test_decode_major_16 : decodesTo words16 = true := by decide +kernel

def words17 : List (Nat × Instr) :=
  [(0x02E09E37, .rpt 9 14 3 1 3)]

theorem test_decode_major_17 : decodesTo words17 = true := by decide +kernel

def words18 : List (Nat × Instr) :=
  [(0x03049C98, .faddF32 9 14 19), (0x03049C99, .fsubF32 9 14 19), (0x03049C9A, .fmulF32 9 14 19),
   (0x03049C9B, .fdivF32 9 14 19), (0x03049C04, .fsqrtF32 9 14), (0x03049C9D, .fminF32 9 14 19),
   (0x03049C9E, .fmaxF32 9 14 19), (0x03049C9F, .ffmaF32 9 14 19)]

theorem test_decode_major_18 : decodesTo words18 = true := by decide +kernel

def words19 : List (Nat × Instr) :=
  [(0x03249C98, .faddF64 9 14 19), (0x03249C99, .fsubF64 9 14 19), (0x03249C9A, .fmulF64 9 14 19),
   (0x03249C9B, .fdivF64 9 14 19), (0x03249C04, .fsqrtF64 9 14), (0x03249C9D, .fminF64 9 14 19),
   (0x03249C9E, .fmaxF64 9 14 19), (0x03249C9F, .ffmaF64 9 14 19)]

theorem test_decode_major_19 : decodesTo words19 = true := by decide +kernel

def words1A : List (Nat × Instr) :=
  [(0x035C1C98, .feqF32 7 14 19), (0x035C1C99, .fltF32 7 14 19), (0x035C1C9A, .fleF32 7 14 19), (0x035C1C9B, .funF32 7 14 19),
   (0x035C1C9C, .feqF64 7 14 19), (0x035C1C9D, .fltF64 7 14 19), (0x035C1C9E, .fleF64 7 14 19), (0x035C1C9F, .funF64 7 14 19)]

theorem test_decode_major_1A : decodesTo words1A = true := by decide +kernel

def words1B : List (Nat × Instr) :=
  [(0x03649C00, .fcvtF32S64 9 14), (0x03649C01, .fcvtF64S64 9 14), (0x03649C02, .fcvtS64F32 9 14),
   (0x03649C03, .fcvtS64F64 9 14), (0x03649C04, .fcvtF64F32 9 14), (0x03649C05, .fcvtF32F64 9 14),
   (0x03649C06, .fcvtF32Bf16 9 14), (0x03649C07, .fcvtBf16F32 9 14)]

theorem test_decode_major_1B : decodesTo words1B = true := by decide +kernel

def words1C : List (Nat × Instr) :=
  [(0x038974C8, .vaddF32 9 14 19 1), (0x038974C9, .vsubF32 9 14 19 1), (0x038974CA, .vmulF32 9 14 19 1),
   (0x038974CB, .vfmaF32 9 14 19 1), (0x038974CC, .vminF32 9 14 19 1), (0x038974CD, .vmaxF32 9 14 19 1),
   (0x038974CE, .vfmsF32 9 14 19 1), (0x0389703F, .vabsF32 9 14 7)]

theorem test_decode_major_1C : decodesTo words1C = true := by decide +kernel

def words1D : List (Nat × Instr) :=
  [(0x03A974C8, .vaddBf16 9 14 19 1), (0x03A974C9, .vsubBf16 9 14 19 1), (0x03A974CA, .vmulBf16 9 14 19 1),
   (0x03A974CB, .vfmaBf16 9 14 19 1), (0x03A974CC, .vminBf16 9 14 19 1), (0x03A974CD, .vmaxBf16 9 14 19 1),
   (0x03A974CE, .vfmsBf16 9 14 19 1), (0x03A9703F, .vabsBf16 9 14 7)]

theorem test_decode_major_1D : decodesTo words1D = true := by decide +kernel

def words1E : List (Nat × Instr) :=
  [(0x03C974C8, .vaddS32 9 14 19 1), (0x03C974C9, .vsubS32 9 14 19 1), (0x03C974CA, .vmulS32 9 14 19 1),
   (0x03C974CB, .vmacS32 9 14 19 1), (0x03C974CC, .vminsS32 9 14 19 1), (0x03C974CD, .vmaxsS32 9 14 19 1),
   (0x03C974CE, .vminzS32 9 14 19 1), (0x03C974CF, .vmaxzS32 9 14 19 1)]

theorem test_decode_major_1E : decodesTo words1E = true := by decide +kernel

def words1F : List (Nat × Instr) :=
  [(0x03E974C8, .vand 9 14 19 1), (0x03E974C9, .vor 9 14 19 1), (0x03E974CA, .vxor 9 14 19 1), (0x03E974CB, .vandn 9 14 19 1),
   (0x03E974CC, .vshl 9 14 19 1), (0x03E974CD, .vshr 9 14 19 1), (0x03E974CE, .vsar 9 14 19 1), (0x03E974CF, .vsel 9 14 19 1)]

theorem test_decode_major_1F : decodesTo words1F = true := by decide +kernel

def words20 : List (Nat × Instr) :=
  [(0x04097038, .vrcp 9 14 7), (0x04097039, .vrsq 9 14 7), (0x0409703A, .vsqrt 9 14 7), (0x0409703B, .vex2 9 14 7),
   (0x0409703C, .vlg2 9 14 7), (0x040974CD, .vdiv 9 14 19 1), (0x0409703E, .vfloor 9 14 7), (0x0409703F, .vround 9 14 7)]

theorem test_decode_major_20 : decodesTo words20 = true := by decide +kernel

def words21 : List (Nat × Instr) :=
  [(0x042774C8, .vceqF32 7 14 19 1), (0x042774C9, .vcltF32 7 14 19 1), (0x042774CA, .vcleF32 7 14 19 1),
   (0x042774CB, .vcunF32 7 14 19 1), (0x042774CC, .vceqS32 7 14 19 1), (0x042774CD, .vcltS32 7 14 19 1),
   (0x042774CE, .vcleS32 7 14 19 1), (0x042774CF, .vcltzS32 7 14 19 1)]

theorem test_decode_major_21 : decodesTo words21 = true := by decide +kernel

def words22 : List (Nat × Instr) :=
  [(0x044709C0, .pand 7 1 7), (0x044709C1, .por 7 1 7), (0x044709C2, .pxor 7 1 7), (0x044709C3, .pandn 7 1 7),
   (0x04470804, .pnot 7 1), (0x0447083D, .pany 7 1 7), (0x0447083E, .pall 7 1 7), (0x0449083F, .pcnt 9 1 7)]

theorem test_decode_major_22 : decodesTo words22 = true := by decide +kernel

def words23 : List (Nat × Instr) :=
  [(0x04697038, .vrsumF32 9 14 7), (0x04697039, .vrmaxF32 9 14 7), (0x0469703A, .vrminF32 9 14 7),
   (0x0469703B, .vrsumS32 9 14 7), (0x0469703C, .vscanF32 9 14 7), (0x0469703D, .vscanS32 9 14 7),
   (0x0469714E, .vtopk 9 14 5 1), (0x0469703F, .vargmax 9 14 7)]

theorem test_decode_major_23 : decodesTo words23 = true := by decide +kernel

def words24 : List (Nat × Instr) :=
  [(0x048974C8, .vbcast 9 14 19 1), (0x048974C9, .vperm 9 14 19 1), (0x048974CA, .vrot 9 14 19 1),
   (0x048974CB, .vslide 9 14 19 1), (0x048974CC, .vzip 9 14 19 1), (0x048974CD, .vunzip 9 14 19 1),
   (0x0489703E, .vcompress 9 14 7), (0x0489703F, .vexpand 9 14 7)]

theorem test_decode_major_24 : decodesTo words24 = true := by decide +kernel

def words25 : List (Nat × Instr) :=
  [(0x04A97038, .vcvtF32S32 9 14 7), (0x04A97039, .vcvtS32F32 9 14 7), (0x04A974CA, .vcvtBf16F32 9 14 19 1),
   (0x04A9703B, .vcvtF32Bf16l 9 14 7), (0x04A9703C, .vcvtF32Bf16h 9 14 7), (0x04A974CD, .vcvtF16F32 9 14 19 1),
   (0x04A9703E, .vcvtF32F16l 9 14 7), (0x04A9703F, .vcvtF32F16h 9 14 7)]

theorem test_decode_major_25 : decodesTo words25 = true := by decide +kernel

def words26 : List (Nat × Instr) :=
  [(0x04C97140, .vkbpack 9 14 5), (0x04C97141, .vkbunpack 9 14 5), (0x04C97142, .vkbscale 9 14 5)]

theorem test_decode_major_26 : decodesTo words26 = true := by decide +kernel

def words27 : List (Nat × Instr) :=
  [(0x04E97038, .vmov 9 14 7), (0x04E97039, .vfill 9 14 7), (0x04E974CA, .vins 9 14 19 1), (0x04E974C3, .vext 9 14 19),
   (0x04E9E83C, .vqpk 9 1 7), (0x04E9E805, .vqcnt 9 1), (0x04E0F806, .vqclr 3), (0x04E9000F, .vlaneid 9 1)]

theorem test_decode_major_27 : decodesTo words27 = true := by decide +kernel

def words28 : List (Nat × Instr) :=
  [(0x0509E9E2, .vld 9 14 1 1 3 34)]

theorem test_decode_major_28 : decodesTo words28 = true := by decide +kernel

def words29 : List (Nat × Instr) :=
  [(0x0529E9E2, .vst 9 14 1 1 3 34)]

theorem test_decode_major_29 : decodesTo words29 = true := by decide +kernel

def words2A : List (Nat × Instr) :=
  [(0x054974C8, .vgth32 9 14 19 1), (0x054974C9, .vsct32 9 14 19 1), (0x054974CA, .vgth16 9 14 19 1),
   (0x054974CB, .vsct16 9 14 19 1), (0x054974CC, .vsctaddF32 9 14 19 1), (0x054974CD, .vsctaddS32 9 14 19 1)]

theorem test_decode_major_2A : decodesTo words2A = true := by decide +kernel

def words2B : List (Nat × Instr) :=
  [(0x0564FC00, .qpk 9 14), (0x0564FC01, .qcnt 9 14), (0x05607202, .qclr 9), (0x0564FC9B, .qbind 9 14 19),
   (0x0564FC04, .qunbind 9 14)]

theorem test_decode_major_2B : decodesTo words2B = true := by decide +kernel

def words2C : List (Nat × Instr) :=
  [(0x05801380, .mfmt 1 14), (0x059DD1C1, .mdrain 7 1 7), (0x059C1002, .mzero 7 1), (0x05809043, .mstat 9 1)]

theorem test_decode_major_2C : decodesTo words2C = true := by decide +kernel

def words2D : List (Nat × Instr) :=
  [(0x05BC9C20, .mma 7 1 3 8 2)]

theorem test_decode_major_2D : decodesTo words2D = true := by decide +kernel

def words2E : List (Nat × Instr) :=
  [(0x05DCE4C0, .mrdv 7 14 19), (0x05DCE4C1, .mrdq 7 14 19), (0x05DC14C2, .mstF32 7 1 19), (0x05DC14C3, .mstBf16 7 1 19),
   (0x05DC14C4, .mstKb 7 1 19), (0x05DCE4C5, .mwrv 7 14 19)]

theorem test_decode_major_2E : decodesTo words2E = true := by decide +kernel

def words2F : List (Nat × Instr) :=
  [(0x05E09380, .oclaim 9 14), (0x05E09381, .orelease 9 14), (0x05FCE4C2, .oload 7 14 19), (0x05FCE4C3, .ofill 7 14 19),
   (0x05E09384, .ostat 9 14)]

theorem test_decode_major_2F : decodesTo words2F = true := by decide +kernel

noncomputable def words32 : List (Nat × Instr) :=
  [(0x065DC4C0, .wrset 7 14 19), (0x065CE4C1, .wradv 7 14 19), (0x06409382, .wrstat 9 14), (0x065CE003, .wrfree 7 14),
   (0x0641F384, .wrbind 3 14), (0x065CE4C5, .wrout 7 14 19), (0x065CE006, .wrflush 7 14)]

theorem test_decode_major_32 : decodesTo words32 = true := by decide +kernel

noncomputable def words33 : List (Nat × Instr) :=
  [(0x067CE4C0, .wnew 7 14 19), (0x067CE001, .wfree 7 14), (0x067CE4C2, .wfence 7 14 19), (0x067CE4C3, .wpost 7 14 19),
   (0x067CE4C4, .wstart 7 14 19), (0x067CE005, .wcompl 7 14), (0x067CE006, .wwait 7 14), (0x067CE4C7, .wlock 7 14 19),
   (0x067CE4C8, .wunlock 7 14 19), (0x067CE4C9, .wflush 7 14 19), (0x0660938A, .wquery 9 14)]

theorem test_decode_major_33 : decodesTo words33 = true := by decide +kernel

noncomputable def words34 : List (Nat × Instr) :=
  [(0x069CE180, .get 7 14 3), (0x069CE181, .put 7 14 3), (0x069CE182, .putm 7 14 3), (0x069CE183, .accAddf 7 14 3),
   (0x069CE184, .accAdds 7 14 3), (0x069CE185, .accFx 7 14 3), (0x069CE186, .accMaxf 7 14 3), (0x069CE187, .accMinf 7 14 3),
   (0x069CE188, .getacc 7 14 3), (0x069CE189, .rcas 7 14 3), (0x069CE18A, .getro 7 14 3)]

theorem test_decode_major_34 : decodesTo words34 = true := by decide +kernel

noncomputable def words35 : List (Nat × Instr) :=
  [(0x06BCE000, .dispatch 7 14), (0x06BCE001, .combine 7 14), (0x06BCE002, .coll 7 14), (0x06A09383, .cstat 9 14),
   (0x06BCE004, .ccancel 7 14)]

theorem test_decode_major_35 : decodesTo words35 = true := by decide +kernel

noncomputable def words38 : List (Nat × Instr) :=
  [(0x07049C98, .aadd 9 14 19), (0x07049C99, .aand 9 14 19), (0x07049C9A, .aor 9 14 19), (0x07049C9B, .axchg 9 14 19),
   (0x07049C9C, .amaxs 9 14 19), (0x07049C9D, .amins 9 14 19), (0x07049C9E, .aaddf 9 14 19), (0x07049C9F, .afx 9 14 19)]

theorem test_decode_major_38 : decodesTo words38 = true := by decide +kernel

noncomputable def words39 : List (Nat × Instr) :=
  [(0x07249C98, .acas 9 14 19), (0x07249C99, .ahist 9 14 19), (0x07249C9A, .barv 9 14 19), (0x07249C9B, .barw 9 14 19),
   (0x07249C9C, .barset 9 14 19), (0x07249C05, .barq 9 14), (0x0724829E, .tlwait 9 1 19), (0x07248207, .tlrd 9 1)]

theorem test_decode_major_39 : decodesTo words39 = true := by decide +kernel

noncomputable def words3A : List (Nat × Instr) :=
  [(0x07448298, .tlwaitr 9 1 19), (0x07448201, .tlrdi 9 1), (0x07448202, .tlrdc 9 1), (0x07448203, .tlrdv 9 1),
   (0x07490204, .tlerr 9 1), (0x07401205, .bwph 9), (0x07400006, .wakew)]

theorem test_decode_major_3A : decodesTo words3A = true := by decide +kernel

noncomputable def words3B : List (Nat × Instr) :=
  [(0x07601270, .tlbinv 9 14), (0x07600001, .tlbsync), (0x07601272, .rtcinv 9 14), (0x07600003, .rtcsync)]

theorem test_decode_major_3B : decodesTo words3B = true := by decide +kernel

noncomputable def words3C : List (Nat × Instr) :=
  [(0x07801200, .trun 9), (0x07801201, .tchain 9), (0x07801202, .tcond 9), (0x07849C3B, .qpop 9 14 7),
   (0x07849C3C, .qtry 9 14 7), (0x07849C9D, .qpush 9 14 19), (0x07849C9E, .qcancel 9 14 19), (0x07849C07, .qthaw 9 14)]

theorem test_decode_major_3C : decodesTo words3C = true := by decide +kernel

noncomputable def words3D : List (Nat × Instr) :=
  [(0x07A49C98, .hpush 9 14 19), (0x07A49C39, .hpop 9 14 7), (0x07A49C9A, .hadj 9 14 19), (0x07A49C9B, .hmax 9 14 19),
   (0x07A49C9C, .hres 9 14 19), (0x07A49C9D, .hdone 9 14 19), (0x07A49C9E, .hread 9 14 19)]

theorem test_decode_major_3D : decodesTo words3D = true := by decide +kernel

noncomputable def words3E : List (Nat × Instr) :=
  [(0x07C48070, .csrr 9 14), (0x07C48071, .csrw 9 14), (0x07C00002, .eret), (0x07C01203, .segenter 9),
   (0x07C01274, .segsealSeal 9 14), (0x07C49C9D, .kslotQuery 9 14 19), (0x07C49C06, .scrub 9 14), (0x07C39C9F, .pgmap 7 14 19)]

theorem test_decode_major_3E : decodesTo words3E = true := by decide +kernel

noncomputable def words3F : List (Nat × Instr) :=
  [(0x07E00009, .ext 9)]

theorem test_decode_major_3F : decodesTo words3F = true := by decide +kernel

/-- The worked encoding of the spec's encoding chapter: ~2 addi s4, s4, -8 | (c2) ld.s64 s5, [a3]+8 | (!c1) add s6, s5, a2 |
vadd.f32 v1, v2, v3, p1. -/
theorem test_decode_worked_bundle : decodesTo [(0x110209F8, .addi 4 4 504), (0x12029D81, .ld 5 3 1 3 1), (0x48230B10, .add 6 5 34),
    (0x838110C8, .vaddF32 1 2 3 1)] = true := by decide +kernel

/-- A whole unallocated major, an unallocated function, and non-zero reserved bits are each refused by their own name (R75, R76). -/
theorem test_decode_refuses : decodeBody (0x30 * 2 ^ 21) = .error .major ∧ decodeBody (0x05 * 2 ^ 21 + 7) = .error .function ∧
    decodeBody (2 ^ 3) = .error .reserved ∧ decodeBody (2 ^ 20 + 5) = .ok (.rdcyc 32) := by decide +kernel

/-! ## Ill-formed terms, one for each check of well-formedness -/

/-- Slots whose function or specifier is outside its limits. -/
theorem test_wf_refuses_slots : ([.rdid 1 8, .bfi 48 1 2, .ld 1 2 0 7 0, .st 1 2 0 4 0, .fence 3, .ldx 1 2 3 7, .ffmaF32 48 1 2, .ffmaF64 63 1 2,
    .vfmaF32 28 1 2 0, .vfmsF32 28 1 2 0, .vfmaBf16 29 1 2 0, .vfmsBf16 30 1 2 0, .vmacS32 31 1 2 0, .vtopk 1 2 0 0, .vtopk 1 2 9 0,
    .vtopk 28 2 1 0, .vkbpack 1 2 1, .vkbpack 1 2 9, .vkbunpack 1 2 1, .vkbscale 1 2 9, .vins 28 1 2 0, .mma 0 0 0 0 3,
    .acas 48 1 2] : List Instr).all (fun i => !i.wf) = true := by decide +kernel

/-- Steps at places that the device does not have. -/
theorem test_wf_refuses_places : ([.blockOpen 32768, .blockOpen 336, .boundQueueDelivery 0 20, .engineCommandStart 0 2,
    .mmaRepetitionAccept 84 0, .mmaCompletion 0 2, .oloadCompletion 0 32, .ofillCompletion 0 32, .mstCompletion 0 2, .drainRowDelivery 0 2,
    .ringRowLanding 0 16, .recvRegistration 0 16, .ringBoundRowDelivery 0 16, .ringRowWriteAccept 0 16, .mailbagWaitExpiry 64 0,
    .mailbagArrival 64 0, .collectiveChunk 0 8, .laneFailure 0 14, .iczerGroupArrival 32 true, .iczerIdleFill 32, .iczerRekey 32,
    .iczerCounterExhausted 32, .iczerLinkRetrain 32, .pigeonholeBankAccess 0 256, .writeQueueWatermarkDrain 0 4, .writeQueueAgeDrain 0 4,
    .channelRetirementStart 0 4, .bankSetNap 0 16, .bankSetRetain 0 16, .bankSetDeep 0 16, .bankSetWake 0 16, .lsBankWake 0 256,
    .keyRotationComplete 64, .scrubUnit 64, .scrubComplete 64, .letterEnqueue 4 0 0 false, .letterEnqueue 0 4096 0 false, .letterAging 4096,
    .completionWriteLetter 4096, .completionWaitPoll 4096, .sealreqDone 64, .sealreqRefuse 64, .lsboundsWrite 0 64 0, .lspwrWrite 0 2 0,
    .slretRetire 0 4, .wqcfgWrite 0 1024 0, .hpctlReset 0 16, .hpcapWrite 64 0 0, .iczerrRead 32, .pmcntRead 4096, .pbstatRead 4096,
    .pbcancelWrite 4096 0, .elstatRead 64, .sitectlExpertWrite 64 true, .panelctlSitewarm 64, .hostLinkDown 4, .getVersion 4,
    .getCapabilities 4, .negotiateAlgorithms 4, .getDigests 4, .getCertificate 4, .challenge 4, .getMeasurements 4 0, .keyExchange 4,
    .finish 4 0, .endSession 4 0, .ideKmQuery 4 0, .ideKmKeyProg 4 0 0, .ideKmKSetGo 4 0 0, .ideKmKSetStop 4 0 0, .thermalThrottle 64,
    .thermalShutdown 64, .thermalRestart 64, .dvfsChange 64, .letterWindowWrite 0 4096 0, .unlistedSpdmRequest 4,
    .aclkCycle 84] : List Instr).all (fun i => !i.wf) = true := by decide +kernel

/-! ## A small state -/

/-- A context at MONITOR with a few registers, entries in its queue registers, and the address registers a4 to a10 at places of memory. -/
def me0 : Ctx := { live := .run, cstate := .issue, priv := 2, pc := 0x10000000000
                   xs := [(1, 7), (2, BitVec.allOnes 64), (3, 0x8000000000000000), (4, 3), (5, 0x3F800000), (6, 0x40000000), (36, 0x100),
                     (37, 0x2000000000), (38, 0x4000000000), (39, 0x5FFFF8), (40, 0x600000), (41, 0x1000000000000), (42, 0x101)]
                   qs := tab (fun q => (q, { ents := [5, 6] })) 16
                   vs := [(1, vecOf fun i => BitVec.ofNat 32 i), (2, vecOf fun _ => 0x3F800000)]
                   vqs := tab (fun q => (q, { ents := [1, 2] })) 4
                   ps := [(1, 0xF)] }

/-- Its cluster: all 48 local-store banks in bounds, a slice page from 2 ^ 37 on and a pigeonhole page from 2 ^ 38 on (R285). -/
def cl0 : Cluster := { lsLim := 48, tlb := [{ level := 2, vpn := 1, pte := 0x13F }, { level := 2, vpn := 2, pte := 0x17F }]
                       accOwn := tab (fun k => (k, 1)) 8, obOwn := tab (fun k => (k, 1)) 32, mfmtOwn := [(0, 1), (1, 1)]
                       ti := { team := 1, gangSize := 1, ranks := [0] } }

def st : State := { ctxs := [(0, me0)], clusters := [(0, cl0)], stage := 5 }

/-- The rows of KSLOT share one word, told apart by A[2:0] (R348), and those of segseal by B[63] (R361). -/
theorem test_decode_shared_words : st.resolve (.kslotQuery 9 4 5) = .kslotRotate 9 4 5 ∧ st.resolve (.kslotQuery 9 0 5) = .kslotQuery 9 0 5 ∧
    st.resolve (.segsealSeal 1 2) = .segsealPatch 1 2 ∧ st.resolve (.segsealSeal 2 1) = .segsealSeal 2 1 := by decide +kernel

/-- Every slot of the tables passes the checks that every slot shares, in that state. -/
def ready (s : State) (l : List (Nat × Instr)) : Bool :=
  l.all fun r => (s.issueCheck (shape r.2).level (shape r.2).srcs (shape r.2).dsts (shape r.2).peek).isNone

noncomputable def allWords : List (List (Nat × Instr)) :=
  [words00, words01, words02, words03, words04, words05, words06, words07, words08, words09, words0A, words0B, words0C,
   words0D, words0E, words0F, words10, words11, words12, words13, words14, words15, words16, words17, words18, words19,
   words1A, words1B, words1C, words1D, words1E, words1F, words20, words21, words22, words23, words24, words25, words26,
   words27, words28, words29, words2A, words2B, words2C, words2D, words2E, words2F, words32, words33, words34, words35,
   words38, words39, words3A, words3B, words3C, words3D, words3E, words3F]

theorem witness_ready_all_slots : allWords.all (ready st) = true := by decide +kernel

/-! ## Witnesses: for each statement with hypotheses, states and operands that meet them, at the ends of their ranges -/

theorem witness_IntegerResults : Ready (.add 0 0 0) st ∧ Ready (.zext 63 63 63) st ∧ Ready (.divs 63 48 63) st ∧ Ready (.bfi 47 63 63) st ∧
    Ready (.sel 63 63 63 7) st ∧ (st.read2 63 63).1 = 5 ∧ (st.read2 63 63).2.1 = 6 := by unfold Ready; decide +kernel

theorem witness_DivisionRule : Ready (.divs 1 3 2) st ∧ Ready (.remz 63 63 0) st ∧ (st.read2 3 2).1 = BitVec.intMin 64 ∧
    (st.read2 3 2).2.1 = BitVec.allOnes 64 := by unfold Ready; decide +kernel

theorem witness_ImmediateResults : Ready (.clz 63 63) st ∧ Ready (.addi 0 63 511) st ∧ Ready (.xori 63 0 256) st ∧ Ready (.shli 63 63 63) st ∧
    Ready (.movi 63 0x7FFF) st ∧ Ready (.adr 63 0x4000) st ∧ Ready (.rdcyc 63) st ∧ Ready (.rdid 63 7) st ∧ Ready (.cget 63 7) st := by
  unfold Ready; decide +kernel

theorem witness_CompareResults : Ready (.ceq 0 0 0) st ∧ Ready (.ctst 7 63 63) st ∧ Ready (.cgtzi 7 63 511) st ∧ Ready (.candn 7 7 0) st ∧
    Ready (.cmov 7 63) st := by unfold Ready; decide +kernel

theorem witness_ScalarFpResults : Ready (.faddF32 0 5 6) st ∧ Ready (.fmaxF64 63 63 63) st ∧ Ready (.ffmaF64 47 63 63) st ∧
    Ready (.fdivF32 63 5 0) st ∧ Ready (.fsqrtF64 63 63) st ∧ Ready (.funF64 7 63 63) st ∧ Ready (.fcvtBf16F32 63 63) st ∧
    Ready (.fcvtS64F64 63 63) st := by unfold Ready; decide +kernel

/-- The same state with the first word of the slice failing. -/
def stBad : State := { st with bad := [sliceAt 0 0] }

/-- The same state with every miss buffer busy. -/
def stFull : State := { st with clusters := [(0, { cl0 with l1Miss := tab (fun k => k + 1) 16 })] }

/-- A load at that home by context 0. -/
def load0 (pa : Nat) : MemReq := { ctx := 0, pa := pa, va := 0, op := .load 3, id := 4, dst := 9 }

theorem witness_LoadResults : Ready (.ld 63 7 0 3 0) st ∧ st.access (st.areg 7) 8 .read = .ok 0x5FFFF8 ∧
    st.missFull 0 (st.missing 0 0x5FFFF8) = false ∧ Ready (.ld 0 5 1 0 127) st ∧ st.access (st.areg 5) 1 .read = .ok (sliceAt 0 0) ∧
    st.missFull 0 (st.missing 0 (sliceAt 0 0)) = false ∧ Ready (.ld 0 5 1 0 127) stFull ∧
    stFull.access (st.areg 5) 1 .read = .ok (sliceAt 0 0) ∧ stFull.missFull 0 (stFull.missing 0 (sliceAt 0 0)) = true ∧
    Ready (.ldx 63 37 0 6) st ∧ Ready (.ldx 63 37 0 6) stFull ∧ st.access 0x2000000000 4 .read = .ok (sliceAt 0 0) := by
  unfold Ready; decide +kernel

theorem witness_LoadResults_performed : st.atBankOf 0 0x100 = false ∧ st.missing 0 0x100 = none ∧ (st.loadVia 0 0x100 8).1 = some 0 ∧
    stBad.atBankOf 0 (sliceAt 0 0) = false ∧ stBad.missing 0 (sliceAt 0 0) = none ∧ (stBad.loadVia 0 (sliceAt 0 0) 8).1 = none ∧
    st.atBankOf 0 (pigAt 0 0) = true ∧ ((st.setMe { me0 with posted := [load0 0x100] }).ctx 0).posted = [load0 0x100] ∧
    (load0 0x100).due ≤ (st.cl 0).cycle ∧ (st.perform1 (load0 0x100)).isSome := by decide +kernel

theorem witness_StoreResults : Ready (.st 63 7 1 3 127) st ∧ st.access (st.areg 7) 8 .write = .ok 0x5FFFF8 ∧ Ready (.st 0 5 0 0 0) st ∧
    st.access (st.areg 5) 1 .write = .ok (sliceAt 0 0) ∧ st.missFull 0 (st.missing 0 (sliceAt 0 0)) = false ∧ Ready (.st 0 5 0 0 0) stFull ∧
    stFull.access (st.areg 5) 1 .write = .ok (sliceAt 0 0) ∧ stFull.missFull 0 (stFull.missing 0 (sliceAt 0 0)) = true ∧
    st.atBankOf 0 0x100 = false ∧ st.missing 0 0x100 = none := by unfold Ready; decide +kernel

/-- a10 is 0x101, a8 the first address past LSLIM, a9 2 ^ 48: one for each clause. -/
theorem witness_AddressTraps : Ready (.ld 1 10 0 1 0) st ∧ Ready (.st 63 10 0 1 0) st ∧ (st.areg 10).toNat % 2 = 1 ∧
    (st.areg 8).toNat % 8 = 0 ∧ st.myCl.lsOk (st.areg 8).toNat 8 = false ∧ st.myCl.lsOk (st.areg 7).toNat 8 = true ∧
    Ready (.ld 1 8 0 3 0) st ∧ Ready (.st 1 8 0 3 0) st ∧ (st.areg 9).toNat = 2 ^ 48 ∧ Ready (.ld 1 9 0 3 0) st ∧
    Ready (.st 1 9 0 3 0) st := by unfold Ready; decide +kernel

/-- An indexed load that is misaligned, out of bounds, and beyond 2 ^ 48. -/
theorem witness_AddressTraps_ldx : Ready (.ldx 1 42 0 1) st ∧ (st.read2 42 0).1.toNat % 2 = 1 ∧ Ready (.ldx 1 40 0 3) st ∧
    (st.read2 40 0).1 = 0x600000 ∧ st.myCl.lsOk 0x600000 8 = false ∧ Ready (.ldx 63 41 0 3) st ∧ (st.read2 41 0).1.toNat = 2 ^ 48 ∧
    (st.read2 41 0).2.1 = 0 := by unfold Ready; decide +kernel

/-- A fence of cluster scope that waits for a load, and for the load of a pigeonhole bank; one that is met. -/
theorem witness_CacheResults_fence : (∀ pa ∈ [0x100, pigAt 0 0], let s := st.setMe { me0 with fence := some 0, posted := [load0 pa] }
      s.me.fence = some 0 ∧ s.me.killed = false ∧ s.me.cstate ≠ .compensate ∧ s.stopDue s.cur = false ∧ s.me.memErrs = [] ∧
      s.me.taskFaults = [] ∧ s.me.settle = false ∧ s.fenceDone s.cur 0 = false) ∧ st.fenceDone 0 0 = true ∧
    (st.setMe { me0 with posted := [{ load0 (pigAt 0 0) with op := .store 8 }] }).fenceDone 0 0 = true := by decide +kernel

theorem witness_CacheResults : Ready (.dclean 37 1) st ∧ Ready (.dflush 63 63) st ∧ Ready (.dinv 0 2) st ∧ Ready (.isync 0 2) st ∧
    Ready (.fence 0) st ∧ Ready (.fence 2) st ∧ Ready (.pref 37) st ∧ st.translate 0 (st.agentOf 0) false false 0x2000000000 .read =
      .ok (sliceAt 0 0) ∧ st.l1Line 0 (sliceAt 0 0) = some 0 ∧ (st.myCl.l1Find 0).isNone ∧ st.myCl.l1Miss.length < 16 := by
  unfold Ready; decide +kernel

/-- The same state with addresses, or the sequencer's mark, on the return stack. -/
def stRet (e : RetEntry) : State := st.setMe { me0 with rstack := [e] }

theorem witness_TransferResults : Ready (.br 0x1FFFFF) st ∧ Ready (.call 0) st ∧ (st.pushRet (.addr 0x10)).isOk ∧
    Ready .ret (stRet (.addr 0x40)) ∧ ((stRet (.addr 0x40)).popRet.map (·.1)).toOption = some (.addr 0x40) ∧ Ready .ret (stRet .mark) ∧
    ((stRet .mark).popRet.map (·.1)).toOption = some .mark ∧ Ready (.jr 36) st ∧ Ready (.callr 36) st ∧ st.me.getX 36 = 0x100 ∧
    Ready (.jr 42) st ∧ Ready (.jr 41) st ∧ Ready (.callr 42) st ∧
    Ready (.callr 41) st ∧ Ready (.bru 0 42 0) st ∧ Ready (.bru 0 41 0) st ∧ st.me.getP 0 ≠ 0 ∧ (st.me.getX 41).toNat = 2 ^ 48 ∧ Ready (.bru 0 36 1) st ∧ Ready (.bru 1 36 0) st ∧
    Ready (.bru 0 36 2) st ∧ st.me.getP 0 &&& st.me.getP 1 ≠ st.me.getP 0 ∧ st.me.getP 1 &&& st.me.getP 0 = st.me.getP 1 ∧
    st.me.getP 2 = 0 := by unfold Ready; decide +kernel

/-- The same state with a suspended loop. -/
def stLoop : State := st.setMe { me0 with lbuf := some { body := 0, len := 1, pos := 0, left := 2, suspended := true } }

theorem witness_BundleControlResults : Ready (.lbuf 0 1) st ∧ Ready (.lbuf 63 63) st ∧ st.me.lbuf = none ∧ Ready (.lbuf 1 1) stLoop ∧
    (stLoop.me.lbuf.map (·.suspended)) = some true ∧ Ready (.rpt 63 0 15 0 7) st ∧ Ready .yield st ∧ Ready .exit st ∧ Ready (.brk 63) st ∧
    Ready (.trap 0) st := by unfold Ready; decide +kernel

/-- For the five statements of vector results: VectorTwoSourceResults, VectorOneAndThreeSourceResults, VectorPredicateResults,
VectorReduceResults, VectorPermuteResults. -/
theorem witness_VectorResults : Ready (.vaddF32 0 0 0 0) st ∧ Ready (.vcvtF16F32 31 31 31 7) st ∧ Ready (.vabsF32 31 31 7) st ∧
    Ready (.vmacS32 27 31 31 7) st ∧ Ready (.vsel 31 31 31 7) st ∧ Ready (.vcltzS32 7 31 31 7) st ∧ Ready (.pandn 7 7 7) st ∧
    Ready (.pnot 7 7) st ∧ Ready (.pany 7 7 7) st ∧ Ready (.pall 0 0 0) st ∧ Ready (.pcnt 31 7 7) st ∧ Ready (.vrsumS32 31 31 7) st ∧
    Ready (.vscanF32 31 31 0) st ∧ Ready (.vtopk 27 31 8 7) st ∧ Ready (.vtopk 0 0 1 0) st ∧ Ready (.vargmax 31 31 7) st ∧
    Ready (.vunzip 31 31 31 7) st ∧ Ready (.vcompress 31 31 7) st ∧ Ready (.vexpand 31 31 7) st ∧ Ready (.vkbpack 31 31 8) st ∧
    Ready (.vkbunpack 31 31 2) st ∧ Ready (.vkbscale 31 31 8) st := by unfold Ready; decide +kernel

/-- The same state with queue registers q0 and vq0 empty, and q1 and vq1 empty and bound; the timeline of a stream open. -/
def stQ : State := st.setMe { me0 with
  qs := [(1, { bound := some (.delivery 3) }), (2, { ents := [5] })], vqs := [(1, { bound := some (.ring 0) })] }

theorem witness_QueueAndTransferResults : Ready (.vfill 31 31 7) st ∧ Ready (.vins 27 31 31 7) st ∧ Ready (.vext 31 31 31) st ∧
    Ready (.vlaneid 31 7) st ∧ Ready (.vqpk 0 3 0) st ∧ (st.me.getVQ 3).ents = [1, 2] ∧ Ready (.vqpk 0 0 0) stQ ∧ Ready (.vqpk 0 1 0) stQ ∧
    (stQ.me.getVQ 0).ents = [] ∧ (stQ.me.getVQ 1).ents = [] ∧ (stQ.me.getVQ 1).bound = some (.ring 0) ∧ (stQ.me.getVQ 0).bound = none ∧
    Ready (.vqcnt 31 3) st ∧ Ready (.vqclr 3) st ∧ Ready (.vqclr 1) stQ ∧ Ready (.qpk 1 15) st ∧ (st.me.getQ 15).ents = [5, 6] ∧
    Ready (.qpk 1 0) stQ ∧ Ready (.qpk 1 1) stQ ∧ (stQ.me.getQ 0).bound = none ∧ (stQ.me.getQ 1).bound = some (.delivery 3) ∧
    Ready (.qcnt 63 15) st ∧ Ready (.qclr 15) st ∧ Ready (.qclr 1) stQ ∧ Ready (.qunbind 1 1) stQ ∧ Ready (.qunbind 1 0) stQ := by
  unfold Ready; decide +kernel

/-! Memory, engines and rings. -/

/-- A gather of two elements, its answer on its way. -/
def part0 (left : Nat) : State :=
  st.setMe { me0 with inflight := [{ id := 4, dsts := [.v 9], seq := 0, left := left }] }

theorem witness_VectorMemoryResults :
    Ready (.vld 31 4 1 1 0 63) st ∧ (st.vAcc false 4 1 (st.me.getP 1) 0 (-1)).isOk ∧
    st.vecCheck 4 false ((activeLanes (st.me.getP 1)).map fun i => st.areg 4 + BitVec.ofNat 64 (4 * i)) = none ∧
    activeLanes (st.me.getP 1) = [0, 1, 2, 3] ∧ activeLanes (st.me.getP 2) = [] ∧ Ready (.vld 31 4 0 2 2 0) st ∧ Ready (.vld 31 4 0 1 2 0) st ∧
    (match st.vAcc false 4 0 (st.me.getP 1) 2 0 with | .ok a => !a.wait && (a.lanes == [0, 1, 2, 3]) | _ => false) = true ∧
    (match st.vAcc false 4 0 (st.me.getP 2) 2 0 with | .ok a => !a.wait && a.lanes.isEmpty | _ => false) = true ∧
    Ready (.vst 31 4 0 1 0 0) st ∧ (st.vAcc true 4 0 (st.me.getP 1) 0 0).isOk ∧
    Ready (.vgth32 31 4 1 1) st ∧ Ready (.vsct16 31 4 1 1) st ∧ Ready (.vsctaddF32 31 4 1 1) st ∧
    st.vecCheck 4 false ((elems false (st.areg 4) (st.readV 1).1 (st.me.getP 1)).map (·.2.2)) = none ∧
    st.vecCheck 2 false ((elems true (st.areg 4) (st.readV 1).1 (st.me.getP 1)).map (·.2.2)) = none ∧
    (st.readAt 0 0x100 4).badAt 0x100 4 = false ∧ (stBad.readAt 0 (sliceAt 0 0) 4).badAt (sliceAt 0 0) 4 = true ∧
    ((part0 2).me.inflight.find? fun f => f.id == 4) = some { id := 4, dsts := [.v 9], seq := 0, left := 2 } ∧
    ((part0 1).me.inflight.find? fun f => f.id == 4) = some { id := 4, dsts := [.v 9], seq := 0, left := 1 } := by unfold Ready; decide +kernel

/-- A record of two dimensions, or of one: format, space, base, sizes, strides, with every right. -/
def recOf (fmt ndim space base s0 s1 t0 t1 kbn : Nat) : List W64 :=
  [BitVec.ofNat 64 (base + fmt * 2 ^ 48 + (ndim - 1) * 2 ^ 52 + kbn * 2 ^ 54 + 2 ^ 63), BitVec.ofNat 64 (space * 2 ^ 48 + 31 * 2 ^ 49),
    BitVec.ofNat 64 (s0 + s1 * 2 ^ 32), 0, BitVec.ofNat 64 t0, BitVec.ofNat 64 t1, 0, 0]

/-- Handles 1 and 2: f32 matrices in the local store and the slice; 3: bf16; 4: a KB-8 matrix; 5: a byte range; 6: an s32 matrix. -/
def recs : Map (List W64) := [(1, recOf 0 2 0 0 64 64 4 256 0), (2, recOf 0 2 1 0x2000000000 64 64 4 256 0), (3, recOf 1 2 0 0 64 64 2 128 0),
  (4, recOf 4 2 0 0 64 64 0 2 8), (5, recOf 0 1 0 0 1024 0 4 0 0), (6, recOf 3 2 0 0 64 64 4 256 0)]

/-- The small state with these records, these scalar registers and these rings. -/
def stR (xs : Map W64) (rings : Map Ring) (f : Cluster → Cluster) : State :=
  { st with ctxs := [(0, { me0 with xs := xs, rings := rings, vqs := [] })], clusters := [(0, f { cl0 with recCache := recs, recLim := 8 })] }

def stE : State := stR [(1, 1), (3, 3), (4, 4)] [] id
def stFree : State := stR [] [] fun c => { c with accOwn := [], obOwn := [], mfmtOwn := [] }

theorem witness_EngineCommandsIssue : Ready (.mfmt 1 1) stE ∧ stE.holds 2 1 = true ∧ Ready (.mfmt 1 1) stFree ∧ stFree.holds 2 1 = false ∧
    Ready (.mstat 63 1) st ∧ (stE.myCl.engine 1).queue.length < 8 ∧ stE.holds 1 7 = true ∧ (stE.tl 0 7).wraps 1 = false ∧
    Ready (.mzero 7 7) stE ∧ Ready (.mzero 7 7) stFree ∧ stFree.holds 1 7 = false ∧ Ready (.mdrain 7 3 7) stE ∧ stE.bindStop 3 = none ∧
    Ready (.mrdv 7 31 63) st ∧ Ready (.mrdq 0 0 0) st ∧ Ready (.mwrv 7 31 63) st ∧ Ready (.mma 7 7 15 15 2) stE ∧ stE.rptStall 1 = none ∧
    stE.mmaReps 15 15 = [(0, 0)] ∧ stE.holds 0 0 = true ∧ Ready (.mstF32 7 7 1) stE ∧ Ready (.mstBf16 7 7 3) stE ∧ Ready (.mstKb 7 7 4) stE ∧
    (stE.useRec 1 [rW] (fun r => recFmt r == 0) fun _ => true).isOk ∧ (stE.useRec 3 [rW] (fun r => recFmt r == 1) fun _ => true).isOk ∧
    (stE.useRec 4 [rW] (fun r => recFmt r == 4) fun _ => true).isOk ∧
    (∀ h ∈ [1, 3, 4], stE.spanStop (mget [] recs h) 0 64 0 64 0 0 = none) := by unfold Ready; decide +kernel

/-- x1 claims ac7, x2 names no file, x3 is the word of a load of slot 31, x4 a tile of handle 1, x5 row 0 of ring 15. -/
def stO (f : Cluster → Cluster) : State :=
  stR [(1, 0x107), (2, 0x300), (3, 0x0400A81F), (4, 1), (5, 0x0F000000)]
    [(15, ringOf 0x004000001001FF00 0 1 (mget [] recs 1))] f

def load7 : LoadCmd := { op := { ctx := 0, tl := 0, num := 0 }, stamp := 0, slot := 7, vr := 0, vk := 0, n := 8, src := .tile 1 [] }

/-- The status of an engine whose fields lie in their ranges, with a drain and a repetition being computed. -/
theorem witness_EngineCommandsIssue_mstat : let x := stE.myCl.engine 1
    x.queue.length ≤ 8 ∧ x.na ≤ 8 ∧ x.nb ≤ 8 ∧ stE.myCl.ownerOf 2 1 ≤ 4 ∧ stE.myCl.ownerOf 2 1 ≠ 0 := by decide +kernel

theorem witness_OperandStoreResults : claimRange 0x107 = some (1, [7]) ∧ claimRange 0x300 = none ∧ claimRange 0x1F01F = none ∧
    Ready (.oclaim 63 1) (stO id) ∧ (stO id).myCl.ownerOf 1 7 = 1 ∧ (stO fun c => { c with accOwn := [(7, 2)] }).myCl.ownerOf 1 7 = 2 ∧
    Ready (.oclaim 63 1) (stO fun c => { c with accOwn := [(7, 2)] }) ∧ Ready (.orelease 63 1) (stO id) ∧ Ready (.oclaim 63 2) (stO id) ∧
    Ready (.orelease 63 2) (stO id) ∧ Ready (.ostat 63 1) (stO id) ∧ (stO id).myCl.loadBefore 7 (stO id).myCl.stamp = false ∧
    (stO fun c => { c with stamp := 1, loader := [load7] }).myCl.loadBefore 7 1 = true ∧
    Ready (.oload 7 3 4) (stO id) ∧ (stO id).holds 0 31 = true ∧ lwSlot 0x0400A81F = 31 ∧ lwN 0x0400A81F = 8 ∧ lwVr 0x0400A81F = 10 ∧
    lwVk 0x0400A81F = 64 ∧ ((stO id).useRec 1 [rRd] (fun r => recFmt r != 3) fun _ => true).isOk ∧
    (stO id).spanStop (mget [] recs 1) 0 64 0 10 0 0 = none ∧ Ready (.ofill 7 3 5) (stO id) ∧ ((stO id).me.ring 15).isSome ∧
    ((stO id).useRec 1 [] (fun _ => true) fun _ => true).isOk ∧ Ready (.oload 7 3 4) (stO fun c => { c with obOwn := [] }) ∧
    Ready (.ofill 7 3 5) (stO fun c => { c with obOwn := [] }) ∧ (stO fun c => { c with obOwn := [] }).holds 0 31 = false := by
  unfold Ready; decide +kernel

/-- A ring over the slice, handle 2: 64 elements a row, one 256-byte chunk, 4 rows deep. -/
def ring0 (mode : Nat) : Ring :=
  { mode := mode, rowel := 64, len := 1, depth := 4, conv := 0, lsb := 0, handle := 2, tr := mget [] recs 2
    o0 := 0, o1 := 0, i2 := 0, i3 := 0, dctx := 0, dring := 0, mcn := 0, mcf := 0 }

/-- Rings 13 to 15 in the modes IN, OUT and RECV; x2 and x3 set ring 0 up in mode IN; x4 to x7 name rings 13, 14, 15 and 0. -/
def stW : State := stR [(1, 4), (2, 0x0040000000010400), (3, 0), (4, 13), (5, 14), (6, 15), (7, 0), (8, 0x0D000000), (9, 0x8E000000), (10, 2)]
  [(13, ring0 0), (14, { ring0 1 with bind := some (3, 0, 0) }), (15, ring0 2)] id

theorem witness_RingCommandsIssue : Ready (.wrset 7 1 10) stW ∧ stW.me.ring 0 = none ∧
    (stW.useRec 2 [] (wrsetTest3 0x0040000000010400) fun _ => true).isOk ∧
    ringOf 0x0040000000010400 0 2 (mget [] recs 2) = ring0 0 ∧ wrsetTest5 (ring0 0) = true ∧
    wrsetTest6 (ring0 0) 0 1 = true ∧ (stW.tl 0 7).wraps 1 = false ∧ lsSpanTrap stW.myCl 0 1024 = none ∧
    Ready (.wradv 7 4 1) stW ∧ Ready (.wradv 7 5 1) stW ∧ Ready (.wradv 7 6 1) stW ∧ Ready (.wrout 7 5 1) stW ∧ Ready (.wrout 7 4 1) stW ∧
    (stW.me.ring 13).map (·.mode) = some 0 ∧ (stW.me.ring 14).map (·.mode) = some 1 ∧ (stW.me.ring 15).map (·.mode) = some 2 ∧
    Ready (.wrfree 7 4) stW ∧ Ready (.wrflush 7 5) stW ∧ Ready (.wrbind 3 8) stW ∧ stW.bindStop 3 = none ∧ fld 0x0D000000 31 1 = 0 ∧
    fld 0x8E000000 31 1 = 1 ∧ fld 0x8E000000 24 4 = 14 ∧ Ready (.wrbind 3 9) stW ∧ (stW.me.ring 14).map (·.bind) = some (some (3, 0, 0)) ∧
    Ready (.wrstat 63 7) st ∧ Ready (.wrstat 20 4) stW ∧ Ready (.wrfree 7 7) stW ∧ Ready (.wrflush 7 7) stW := by unfold Ready; decide +kernel

/-- A row of ring 13 that a vld names before it has landed; rings whose first row may and may not leave. -/
theorem witness_RingCommandsIssue_retire : Ready (.wradv 7 4 3) stW ∧ (stW.me.getX 3) = 0 ∧ stW.mayRetire 0 13 (ring0 0) 1 = false ∧
    stW.mayRetire 0 13 { ring0 0 with landed := 1 } 1 = true ∧ stW.mayRetire 0 14 (ring0 1) 4 = true ∧
    stW.mayRetire 0 15 { ring0 2 with registered := true } 1 = true ∧ ({ ring0 2 with registered := true } : Ring).registered = true ∧
    (((stR [(32, 0x0D000000)] [(13, ring0 0)] id).vAcc false 0 0 (BitVec.allOnes 64) 3 0).map (·.wait)).toOption = some true := by
  unfold Ready; decide +kernel

/-- Rings whose status has its fields in range: in each mode, bound and not, and without a destination. -/
theorem witness_RingCommandsIssue_wrstat : (ring0 0).mode ≤ 2 ∧ (ring0 1).mode ≤ 2 ∧ (ring0 2).mode ≤ 2 ∧ (ring0 0).depth < 256 ∧
    (ring0 0).mcn = 0 ∧ ({ ring0 0 with mcn := 1, dests := [(0, 4)] } : Ring).credits = [(0, 3)] ∧ Ready (.wrstat 20 5) stW ∧ Ready (.wrstat 20 6) stW := by
  unfold Ready; decide +kernel

/-! Windows, remote memory and the sorting office. -/

/-- x1 names window 1, x2 the group of rank 0 alone, x3 handle 5, x4 a group beyond the team, x5 rank 0 exclusive. -/
def stN (f : Cluster → Cluster) : State := stR [(1, 1), (2, 0x20000), (3, 5), (4, 0x60000), (5, 0x20000), (6, 0x1FFFF)] [] f

def op0 : Op := { ctx := 0, tl := 7, num := 1 }
def epoch0 : Epoch := { ctx := 0, win := 1, first := 0, count := 1 }

theorem witness_WindowCommandsIssue_collective : Ready (.wnew 7 1 3) (stN id) ∧
    ((stN id).useRec 5 [rRemote] byteRange3 byteRange6).isOk ∧ ((stN id).tl 0 7).wraps 1 = false ∧ Ready (.wfree 7 1) (stN id) ∧
    Ready (.wfence 7 1 2) (stN id) ∧ Ready (.wquery 63 1) (stN id) := by unfold Ready; decide +kernel

theorem witness_WindowCommandsIssue : (stN id).groupOf 0x20000 = some (0, 1) ∧ (stN id).groupOf 0x60000 = none ∧ Ready (.wpost 7 1 2) (stN id) ∧
    Ready (.wpost 7 1 4) (stN id) ∧ (stN fun c => { c with frank := [(1, { state := 1 })] }).groupOf 0x20000 = some (0, 1) ∧
    Ready (.wpost 7 1 2) (stN fun c => { c with frank := [(1, { state := 1 })] }) ∧
    ((stN fun c => { c with frank := [(1, { state := 1 })] }).myFrank 1).state = 1 ∧ ((stN id).myFrank 1).state = 0 ∧
    Ready (.wstart 7 1 2) (stN id) ∧ Ready (.wstart 7 1 2) (stN fun c => { c with frank := [(1, { state := 1 })] }) ∧
    (stN id).myCl.epochOf 0 1 = none ∧ Ready (.wlock 7 1 5) (stN fun c => { c with frank := [(1, { state := 1 })] }) ∧
    (stN id).rankCl 0 0 = some 0 ∧ (stN id).myCl.lockAsks = [] ∧ (stN id).myCl.locks = [] ∧ (stN id).teamSize 0 = 1 ∧
    Ready (.wunlock 7 1 5) (stN fun c => { c with locks := [(0, 1, 0, 1)] }) ∧ Ready (.wflush 7 1 5) (stN id) := by unfold Ready; decide +kernel

theorem witness_WindowCommandsIssue_epochs : Ready (.wcompl 7 1) (stN fun c => { c with epochs := [epoch0] }) ∧
    (stN fun c => { c with epochs := [epoch0] }).myCl.epochOf 0 1 = some epoch0 ∧ Ready (.wcompl 7 1) (stN id) ∧
    Ready (.wwait 7 1) (stN fun c => { c with frank := [(1, { state := 3 })] }) ∧ Ready (.wwait 7 1) (stN id) := by unfold Ready; decide +kernel

/-- A store to pigeonhole memory on its way, and none. -/
theorem witness_WindowCommandsIssue_stores : (stN id).pigPending 0 = false ∧
    ((stN id).setMe { (stN id).me with posted := [load0 (pigAt 0 0)] }).pigPending 0 = true ∧ epoch0.start = none ∧
    ((stN fun c => { c with frank := [(1, { state := 3 })] }).myFrank 1).wait = none ∧
    (stN fun c => { c with locks := [(0, 1, 0, 1)] }).myCl.locks.find? (fun l => l.1 == 0 && l.2.1 == 1 && l.2.2.1 == 0) = some (0, 1, 0, 1) ∧
    (stN id).myCl.winWaits = [] ∧ fld (0x20000 : W64) 0 17 = 0 := by decide +kernel

/-- x1 a local address word of handle 5 at offset 0, x2 of getacc operation 7; x8 and x9 a remote address word of window 1 and a length. -/
def stRma (len : W64) : State :=
  stR [(1, 5), (2, 0x0007000000000005), (8, BitVec.ofNat 64 (2 ^ 38)), (9, len)] [] fun c => { c with frank := [(1, { state := 1 })] }

theorem witness_RemoteOperationsIssue : Ready (.get 7 1 4) (stRma 1024) ∧ Ready (.putm 0 1 4) (stRma 4) ∧ Ready (.getacc 7 2 4) (stRma 4) ∧
    Ready (.rcas 7 1 4) (stRma 8) ∧ (stRma 1024).winTest .get 0 5 (BitVec.ofNat 64 (2 ^ 38)) 1024 = none ∧
    (stRma 8).winTest .rcas 0 5 (BitVec.ofNat 64 (2 ^ 38)) 8 = none ∧ ((stRma 0).winTest .get 0 5 (BitVec.ofNat 64 (2 ^ 38)) 0).isSome ∧
    ((stRma 4).useRec 5 [rRemote, rRd, rW] byteRange3 fun r => byteRange6 r && decide (16 ≤ recExtent r)).isOk ∧
    recExtent (mget [] recs 5) = 4096 ∧ lsSpanTrap (stRma 8).myCl 0 1024 = none ∧ ((stRma 4).tl 0 7).wraps 1 = false := by
  unfold Ready; decide +kernel

/-- x1 the communicator word of rank 0 alone, identifier 3; x2 a block address; x3 one not 64-byte aligned; x4 one out of bounds. The
block at 0x1000 is a coll of operation 4 on that communicator. -/
def cw0 : W64 := BitVec.ofNat 64 (3 * 2 ^ 42 + 2 ^ 34 + 2 ^ 17)
def stS (ti : TeamInfo) : State :=
  { stR [(1, cw0), (2, 0x1000), (3, 0x1020), (4, 0x600000)] [] fun c => { c with ti := ti } with
    mem := writeMem [] (lsAt 0 0x1000) 24 (4 + cw0.toNat * 2 ^ 128) }

theorem witness_SortCommandsIssue : Ready (.coll 7 2) (stS cl0.ti) ∧ Ready (.dispatch 7 2) (stS cl0.ti) ∧ Ready (.combine 7 2) (stS cl0.ti) ∧
    (stS cl0.ti).myCl.lsOk 0x1000 64 = true ∧ (stS cl0.ti).badAt (lsAt 0 0x1000) 64 = false ∧
    ((stS cl0.ti).getRecs (blkRecs 2 (tab (fun i => BitVec.ofNat 64 ((stS cl0.ti).load (lsAt 0 0x1000 + 8 * i) 8)) 8))).isOk ∧
    blkWord 2 (tab (fun i => BitVec.ofNat 64 ((stS cl0.ti).load (lsAt 0 0x1000 + 8 * i) 8)) 8) = cw0 ∧
    (stS cl0.ti).mySite.office = [] ∧ Ready (.coll 7 3) (stS cl0.ti) ∧ Ready (.coll 7 4) (stS cl0.ti) ∧
    (stS cl0.ti).myCl.lsOk 0x600000 64 = false ∧ Ready (.cstat 63 1) (stS cl0.ti) ∧ Ready (.ccancel 7 1) (stS cl0.ti) ∧
    (stS cl0.ti).memberIx 0 cw0 = some 0 ∧ (stS {}).memberIx 0 cw0 = none ∧ (stS cl0.ti).members 0 cw0 = [0] ∧
    (stS { cl0.ti with ranks := [0, 1], gangSize := 2 }).memberIx 0 (cw0 + BitVec.ofNat 64 (2 ^ 17)) = some 0 ∧
    (stS { cl0.ti with ranks := [0, 1], gangSize := 2 }).members 0 (cw0 + BitVec.ofNat 64 (2 ^ 17)) = [0, 1] := by unfold Ready; decide +kernel

/-- A coll whose SRC, handle 7, is a record of the local store that the bounds hold, or do not; a member's outstanding command. -/
theorem witness_SortCommandsIssue_src : let s (lim : Nat) : State := { stS cl0.ti with clusters := [(0, { cl0 with lsLim := lim })] }
    let b : List W64 := [0, 2 ^ 32, cw0]
    let r := recOf 0 1 0 0x20000 64 0 4 0 0
    (s 48).srcTrap 2 b [r, r] = none ∧ ((s 1).srcTrap 2 b [r, r]).isSome ∧
    (let c : SortCmd := { op := op0, cl := 0, word := cw0, cc := 0, k := 0, fn := 2, blk := b, recs := [r, r], sig := [] };
      let z : State := { stS cl0.ti with sites := [(0, { office := [c] })], ctxs := [(0, { me0 with xs := [(1, cw0)], tls := [(7, { issue := 2 })] })] }
      (z.mySite.office.filter fun c => c.op.ctx == z.cur && cwId c.word == cwId cw0 && !z.opOver c.op) = [c] ∧ z.arrivedAt c < 2 ^ 17 ∧
        Ready (.cstat 63 1) z) := by unfold Ready; decide +kernel

/-! Atomics, barriers, timelines and tasks. -/

theorem witness_AtomicResults : Ready (.aadd 63 36 63) st ∧ st.access 0x100 AmoOp.add.size .amo = .ok 0x100 ∧ st.atBank 0x100 = false ∧
    (st.amoAt 0 0x100 .add 5 0).1.isSome ∧ Ready (.acas 47 37 63) stBad ∧ (stBad.amoAt 0 (sliceAt 0 0) .cas 5 0).1 = none ∧
    stBad.access 0x2000000000 AmoOp.cas.size .amo = .ok (sliceAt 0 0) ∧ Ready (.ahist 63 38 0) st ∧
    st.access 0x4000000000 AmoOp.hist.size .amo = .ok (pigAt 0 0) ∧ st.atBank (pigAt 0 0) = true := by unfold Ready; decide +kernel

theorem witness_AtomicResults_performed : st.atBankOf 0 (pigAt 0 0) = true ∧ st.atBankOf 0 0x100 = false ∧ (st.amoAt 0 0x100 .add 5 0).1 = some (0, 0) ∧
    stBad.atBankOf 0 (sliceAt 0 0) = false ∧ st.l1Line 0 0x100 = none ∧ (st.readAt 0 0x100 8).badAt 0x100 8 = false ∧
    (({ st with bad := [0x100] }).readAt 0 0x100 8).badAt 0x100 8 = true := by decide +kernel

/-- x1 object 15, x2 phase 0, x3 phase 4 (too far), x4 a count of 320, x5 one of 321. -/
def stB (b : Bar) (gone : List Nat) : State :=
  stR [(1, 15), (2, 0), (3, 4), (4, 320), (5, 321), (6, 1)] [] fun c => { c with bars := [(15, b)], gone := gone }

theorem witness_BarrierAndTimelineResults_barriers : (stB {} []).gangHome 0 = 0 ∧ Ready (.barv 63 1 2) (stB {} []) ∧
    Bar.status {} ((stB {} []).cl 0).liveCount [] 0 = none ∧ (0 ∉ ({} : Bar).at 0) ∧ (0 ∈ ({ arr := [(0, 0)] } : Bar).at 0) ∧
    Ready (.barv 63 1 2) (stB { arr := [(0, 0)] } []) ∧ Bar.status { arr := [(0, 0)] } ((stB {} []).cl 0).liveCount [] 0 = none ∧
    Bar.status {} ((stB {} [3]).cl 0).liveCount [3] 0 = some 1 ∧ Ready (.barv 63 1 2) (stB {} [3]) ∧ Ready (.barw 63 1 2) (stB {} [3]) ∧
    Ready (.barw 63 1 2) (stB { resets := [0] } []) ∧ Ready (.barw 63 1 2) (stB {} []) ∧ Ready (.barset 63 1 6) (stB {} []) ∧
    Ready (.barset 63 1 4) (stB {} []) ∧ Ready (.barset 63 1 5) (stB {} []) ∧ Ready (.barset 63 1 2) (stB {} []) ∧
    Ready (.barq 63 1) (stB {} []) ∧ Bar.status {} ((stB {} []).cl 0).liveCount [] 4 = some 3 := by unfold Ready; decide +kernel

/-- Timeline 7 with two operations issued and none done: no error; an error of the second, with the first still to come, or of the first. -/
def stT (e : Option TlErr) : State := st.setMe { me0 with xs := [(1, 2)], tls := [(7, { issue := 2, err := e })] }

/-- A quarter's bank set in RETAIN below the declared phase. -/
def stPhase : State := { st with ctxs := [(0, { me0 with phase := 7 })], clusters := [(0, { cl0 with bankPwr := [(0, .retain)], heat := [(0, 1)] })] }

theorem witness_BarrierAndTimelineResults_timelines : Ready (.tlwait 63 7 0) (stT none) ∧ Ready (.tlwaitr 63 7 1) (stT none) ∧
    ((stT none).tl 0 7).done < min 2 ((stT none).tl 0 7).issue ∧ Ready (.tlwait 63 7 1) (stT (some { num := 1, addr := 0, code := 5 })) ∧
    Ready (.tlrdc 63 7) (stT none) ∧ Ready (.tlerr 15 7) (stT none) ∧ ((stT none).tl 0 7).tlerr.isSome ∧
    ((stT (some { num := 1, addr := 0, code := 5 })).tl 0 7).tlerr.isSome ∧ Ready (.tlerr 0 7) (stT (some { num := 2, addr := 0, code := 5 })) ∧
    ((stT (some { num := 2, addr := 0, code := 5 })).tl 0 7).tlerr = none ∧ Ready (.bwph 63) st ∧ Ready .wakew st ∧
    st.setsReady 0 = true ∧ Ready .wakew stPhase ∧ stPhase.setsReady 0 = false := by unfold Ready; decide +kernel

/-! Work queues, heaps, the sequencer, system registers, key slots. -/

/-- The small state with a stream, with streams bound, open or absent: dispatch 1 has left an entry for context 0 on stream 3. -/
def stStream (qs : Map XQueue) : State :=
  { st with
    ctxs := [(0, { me0 with xs := [(1, 3), (2, 4)], qs := qs })]
    dispatches := [{ no := 1, team := 1, id := 3, count := 1, ops := [(0, op0)], streams := [(0, 0)], entries := [(0, 7)] }] }

theorem witness_QueueAndTransferResults_qbind : Ready (.qbind 5 2 1) (stStream []) ∧ (stStream []).streamOpen 0 3 = true ∧
    (stStream []).streamOpen 0 4 = false ∧ Ready (.qbind 5 2 2) (stStream []) ∧ ((stStream []).me.getQ 2).ents = [] ∧
    (stStream []).me.pushes (.x 50) = 0 ∧ Ready (.qbind 5 2 1) (stStream [(1, { bound := some (.delivery 3) })]) ∧
    ((stStream [(1, { bound := some (.delivery 3) })]).me.qs.any fun e => e.1 != 2 && decide (e.2.bound = some (.delivery 3))) = true ∧
    Ready (.qbind 5 2 1) (stStream [(2, { bound := some (.delivery 9) })]) ∧ Ready (.qbind 5 2 1) (stStream [(2, { ents := [1] })]) ∧
    ((stStream [(2, { ents := [1] })]).me.getQ 2).ents ≠ [] := by unfold Ready; decide +kernel

/-- x1 names queue 1023 of site 0 and x2 heap 15; x3 queue 0, not assigned; x4 the value −1; x5 names heap 0, not assigned. -/
def stK (q : WorkQ) (h : Heap) : State :=
  { stR [(1, 1023), (2, 15), (3, 0), (4, BitVec.allOnes 64), (5, 0), (6, 0x10000 + 15), (7, 0x3F800000 * 2 ^ 16 + 9)] [] id with
    sites := [(0, { queues := [(1023, q)], heaps := [(15, h)] })] }

def wq0 : WorkQ := { v := true, team := 1, tail := 1 }
def hp0 : Heap := { v := true, team := 1, cap := 10, tol := 0, res := 5 }

theorem witness_WorkQueueResults : Ready (.qpop 63 1 7) (stK wq0 {}) ∧ (stK wq0 {}).qUsable 1023 = true ∧
    ((stK wq0 {}).qTake 0 1023 0).1 = some (true, 0) ∧ ((stK { wq0 with tail := 0 } {}).qTake 0 1023 0).1 = none ∧
    Ready (.qpop 63 1 7) (stK { wq0 with tail := 0 } {}) ∧ Ready (.qpop 63 1 7) (stK { wq0 with waits := [⟨0, some (true, 9)⟩] } {}) ∧
    Ready (.qtry 63 1 7) (stK wq0 {}) ∧ Ready (.qtry 63 1 7) (stK { wq0 with tail := 0 } {}) ∧ Ready (.qtry 63 3 7) (stK wq0 {}) ∧
    (stK wq0 {}).qUsable 0 = false ∧ Ready (.qthaw 63 1) (stK wq0 {}) ∧ Ready (.qthaw 63 6) (stK wq0 hp0) ∧
    (stK wq0 hp0).hUsable (0x10000 + 15) = true ∧ Ready (.qpush 63 1 4) (stK wq0 {}) ∧ wq0.size = 16 ∧
    Ready (.qpush 63 3 4) (stK wq0 {}) ∧ Ready (.qpush 63 1 3) (stK { wq0 with closed := true } {}) ∧
    Ready (.qpush 63 1 3) (stK { wq0 with tail := 16 } {}) ∧ Ready (.qcancel 63 1 3) (stK wq0 {}) ∧
    (stK wq0 {}).load (wq0.slot 0 0) 8 = 0 ∧ Ready (.qcancel 63 3 1) (stK wq0 {}) := by unfold Ready; decide +kernel

theorem witness_GainHeapResults : Ready (.hpush 63 2 7) (stK {} hp0) ∧ (stK {} hp0).hUsable 15 = true ∧ fld (0x3F800000 * 2 ^ 16 + 9) 0 16 = 9 ∧
    hp0.cap = 10 ∧ (unpack f32 (fld (0x3F800000 * 2 ^ 16 + 9) 16 32)).isNan = false ∧ Ready (.hadj 63 2 7) (stK {} hp0) ∧
    Ready (.hmax 63 2 7) (stK {} hp0) ∧ Ready (.hdone 63 2 7) (stK {} hp0) ∧ Ready (.hres 63 2 7) (stK {} hp0) ∧
    Ready (.hread 63 2 7) (stK {} hp0) ∧ Ready (.hpush 63 5 7) (stK {} hp0) ∧ (stK {} hp0).hUsable 0 = false ∧ Ready (.hpop 63 2 7) (stK {} hp0) ∧
    hp0.pop.isSome ∧ ({ hp0 with tasks := [(9, { st := 2 })], ops := 1 } : Heap).pop = none ∧
    Ready (.hpop 63 2 7) (stK {} { hp0 with tasks := [(9, { st := 2 })] }) ∧ Ready (.hpop 63 6 7) (stK {} hp0) := by unfold Ready; decide +kernel

/-- A sequencer that runs a record whose condition word lies at 0x5FFFF8. -/
def stSeq (active : Bool) (cond : W64) : State :=
  st.setMe { me0 with sqr := { active := active, words := [0, 0, 0, 0, 0, 0, cond, 0] } }

theorem witness_SequencerResults : Ready (.trun 36) (stSeq false 0) ∧ (st.addrCheck 0 (st.agentOf 0) false 0x100 64 .read) = .ok 0x100 ∧
    Ready (.trun 36) (stSeq true 0) ∧ Ready (.tchain 63) (stSeq true 0) ∧ Ready (.tchain 63) (stSeq false 0) ∧
    Ready (.tcond 63) (stSeq true 0x5FFFF8) ∧ lrCond (stSeq true 0x5FFFF8).me.sqr.words = 0x5FFFF8 ∧
    (stSeq true 0x5FFFF8).access 0x5FFFF8 8 .write = .ok 0x5FFFF8 ∧ Ready (.tcond 63) (stSeq true 0) ∧ Ready (.tcond 63) (stSeq false 8) := by
  unfold Ready; decide +kernel

/-- Registers at the ends of the ranges of Table 6, at USER and at MONITOR, and numbers that no register has. -/
theorem witness_SystemRegisterAccess : st.me.priv = 2 ∧ csrAllocated 0 = true ∧ csrAllocated 0x41B = true ∧ csrReadLevel 0x41B = 2 ∧
    csrWriteLevel 0x41B = 2 ∧ csrAllocated 0x41C = false ∧ csrAllocated 0xFFF = false ∧ st.issueCheck 0 [] [.x 63] = none ∧
    st.issueCheck 0 [.x 63] [] = none ∧ (stR [] [] id).me.priv = 2 ∧ (st.setMe { me0 with priv := 0 }).me.priv < csrReadLevel 0x010 ∧
    csrAllocated 0x010 = true ∧ (st.setMe { me0 with priv := 1 }).me.priv < csrWriteLevel 0x400 ∧ csrAllocated 0x400 = true := by decide +kernel

/-- A site whose expert registers a write reaches, and one where it does not; thresholds in order, and not. -/
theorem witness_SystemRegisterAccess_late : st.expert st.clNo = false ∧
    ({ st with sites := [(0, { expert := true })] }).expert 0 = true ∧ fld (0x3F00 : W64) 0 6 < fld (0x3F00 : W64) 8 6 ∧
    fld (0x101 : W64) 8 6 ≤ fld (0x101 : W64) 0 6 ∧ fld (0x201 : W64) 9 1 = 1 ∧ fld (0x201 : W64) 0 1 = 1 ∧ st.me.fmts = [] := by decide +kernel

theorem witness_PrivilegedSlotResults : Ready (.tlbinv 37 1) st ∧ Ready .tlbsync st ∧ st.myCl.tlbInv = [] ∧
    Ready .tlbsync (stR [] [] fun c => { c with tlbInv := [5], tokens := [(5, { state := 2 })] }) ∧ Ready (.rtcinv 0 0) st ∧
    Ready (.rtcinv 63 63) st ∧ Ready .rtcsync st ∧ Ready .eret st ∧ Ready (.segenter 42) st ∧
    (st.segCheck 0 (st.agentOf 0) none 0x101) = .error (.check 1 0) ∧ Ready (.pgmap 7 37 0) st ∧ (st.tl 0 7).wraps 1 = false ∧
    (st.areg 5).toNat % 2 ^ pageBits (fld (0x180 : W64) 7 2) = 0 ∧ fld (0 : W64) 7 2 < 3 ∧ (st.areg 10).toNat % 2 ^ pageBits 0 ≠ 0 ∧
    Ready (.pgmap 0 42 0) st := by unfold Ready; decide +kernel

/-- The words of a segment header at 0x1000: one code block, text at 0, tags at 0x2000. -/
def segWords : List W64 := [0x53474831, 0, 0, 1, 0, 0x2000, 0] ++ tab (fun _ => 0) 41
def segHdr0 : SegHdr := { words := segWords, tags := [0, 0] }

/-- A site that has verified that header before, and whose slot 0 has its signer. -/
def stSeg : State :=
  { st with
    mem := writeMem [] (lsAt 0 0x1000) 56 (wordsNat segWords)
    sites := [(0, { verified := [Config.sha384 384 (wordsNat segWords)], slots := [(0, { st := .bound, signer := Config.sha384 96 segHdr0.pub.toNat })] })] }

theorem witness_PrivilegedSlotResults_segenter : Ready (.segenter 1) stSeg ∧
    stSeg.segCheck 0 (stSeg.agentOf 0) none 0x1000 = .ok { hdr := segHdr0, consts := [], slot := 0 } ∧
    (stSeg.putConsts 0 (stSeg.agentOf 0) 0 []) = .ok stSeg := by
  refine ⟨by unfold Ready; decide +kernel, ?_, rfl⟩
  have h : stSeg.readSegHdr 0 (stSeg.agentOf 0) 0x1000 = .ok segHdr0 := by decide +kernel
  have hs : segHdr0.isSealed = false := by decide +kernel
  have hn : List.range' segHdr0.nCode segHdr0.nConst = [] := by decide +kernel
  have hv : stSeg.site (siteOf 0) = { verified := [Config.sha384 384 (wordsNat segWords)], slots := [(0, { st := .bound, signer := Config.sha384 96 segHdr0.pub.toNat })] } := rfl
  have hc : ∀ x : W384, ([x] : List W384).contains x = true := by simp
  unfold State.segCheck
  rw [h]
  show stSeg.segChecks 0 (stSeg.agentOf 0) none segHdr0 = _
  unfold State.segChecks
  rw [hn]
  have h4 : stSeg.segSlot 0 none segHdr0 = some 0 := by
    unfold State.segSlot
    rw [hs, hv]
    simp only [Site.keySlot, mget, if_pos, Bool.false_eq_true, if_false, and_self]
  have h2 : (stSeg.site (siteOf 0)).verified.contains (Config.sha384 384 (wordsNat segHdr0.words)) = true := by
    rw [hv]; exact hc _
  have hs' : segHdr0.isSealed = false := hs
  rw [h2, h4, hs]
  rfl

/-- Slot 63 in state st; x1 asks for it, x2 is a block in bounds; the session of the block is live. Whether an install block unwraps is
the opaque function's to say (log 7). -/
def stKs (k : SlotState) : State :=
  { stR [(1, 0x3F00), (2, 0x1000), (3, 0x0005), (4, 0x1001), (5, 0x0000)] [] id with
    sites := [(0, { slots := [(63, { st := k })] })], hostPorts := [(0, { sessions := [(0, { st := 2 })] })]
    mem := writeMem [] (lsAt 0 0x1000) 3 0x1000 }

theorem witness_KeySlotResults : fld (0x3F00 : W64) 8 6 = 63 ∧ Ready (.kslotQuery 63 1 2) (stKs .empty) ∧
    (stKs .empty).myCl.lsOk 0x1000 192 = true ∧ (stKs .empty).badAt (lsAt 0 0x1000) 192 = false ∧ Ready (.kslotQuery 63 3 2) (stKs .empty) ∧
    fld (5 : W64) 0 3 = 5 ∧ Ready (.kslotZeroise 63 1 2) (stKs .bound) ∧ Ready (.kslotZeroise 63 5 2) (stKs .bound) ∧
    Ready (.kslotInstall 63 1 2) (stKs .empty) ∧ (stKs .empty).slotBusy 63 = false ∧ ((stKs .empty).slotOf 63).st = .empty ∧
    Ready (.kslotInstall 63 1 2) (stKs .loaded) ∧ Ready (.kslotRotate 63 1 2) (stKs .bound) ∧ (stKs .bound).slicesOf 0 63 = [] ∧
    ((stKs .bound).slotOf 63).st = .bound ∧ blockSigner ((stKs .bound).lsWords 0x1000 24) = ((stKs .bound).slotOf 63).signer ∧
    Ready (.kslotBind 63 1 2) (stKs .loaded) ∧ ((stKs .loaded).lsWords 0x1000 14).getD 0 0 = 0x1000 ∧
    (((stKs .loaded).lsWords 0x1000 14).drop 1).take 6 = [0, 0, 0, 0, 0, 0] ∧ (stKs .loaded).bindRange 0 = true ∧ fld (0x1000 : W64) 12 7 = 1 ∧
    ((stKs .loaded).pb 0).letters = [] ∧ ((stKs .loaded).pb 0).sealedTo = none ∧ ((stKs .loaded).session 0).st = 2 ∧
    Ready (.kslotBind 63 1 2) (stKs .empty) ∧ Ready (.kslotQuery 63 1 4) (stKs .empty) := by unfold Ready; decide +kernel

/-- A slot that a scrub, or a rotation, keeps busy. -/
theorem witness_KeySlotResults_busy : let s : State := { stKs .bound with
      sites := [(0, { slots := [(63, { st := .bound })], scrub := { active := true, slot := 63 } })] }
    s.drainMine.mySite.scrub.active = true ∧ s.drainMine.mySite.scrub.slot = 63 ∧ s.slotBusy 63 = true ∧ (stKs .rotating).slotBusy 63 = true ∧
    Ready (.kslotZeroise 63 1 2) s ∧ Ready (.kslotInstall 63 1 2) s ∧ Ready (.kslotRotate 63 1 2) s ∧ Ready (.kslotBind 63 1 2) s ∧
    (stKs .bound).drainMine.mySite.scrub.active = false ∧ (stKs .empty).mySite.sealOk = true := by unfold Ready; decide +kernel

/-- SEALHDR at the header above; x1 and x2 a range of one block inside the text and x3 one that starts outside; x4 a scrub list at 0x1200
of one unit of slot 63: frame 0 of cluster 0's slice. -/
def stScrub (k : SlotState) (active : Bool) : State :=
  { stR [(1, 0), (2, 256), (3, 0x100), (4, 0x1200)] [] id with
    mem := writeMem (writeMem [] (lsAt 0 0x1000) 56 (wordsNat segWords)) (lsAt 0 0x1200) 16 (0x13F + 2 ^ 127)
    sites := [(0, { sealHdr := 0x1000, slots := [(63, { st := k })], scrub := { active := active }, tags := [(frameOf (sliceAt 0 0), 64)] })] }

theorem witness_SealAndScrubResults : Ready (.segsealSeal 1 2) (stScrub .zeroised false) ∧ Ready (.segsealPatch 1 1) (stScrub .zeroised false) ∧
    (((stScrub .zeroised false).drainEvery.sealHeader false).map (·.1)).toOption = some { words := segWords } ∧ (stScrub .zeroised false).pigPending 0 = false ∧
    ((stScrub .zeroised false).setMe { (stScrub .zeroised false).me with posted := [load0 (pigAt 0 0)] }).pigPending 0 = true ∧
    Ready (.segsealSeal 1 2) ((stScrub .zeroised false).setMe { (stScrub .zeroised false).me with posted := [load0 (pigAt 0 0)] }) ∧ ({ words := segWords } : SegHdr).nCode = 1 ∧
    ((stScrub .zeroised false).segsealRun false { words := segWords } 0 0 1).2.1 = 0 ∧ Ready (.segsealSeal 3 2) (stScrub .zeroised false) ∧
    Ready (.scrub 63 4) (stScrub .zeroised false) ∧ (stScrub .zeroised false).myCl.lsOk 0x1200 16 = true ∧
    (stScrub .zeroised false).lsWords 0x1200 2 = [0x13F, 2 ^ 63] ∧ Ready (.scrub 63 4) (stScrub .zeroised true) ∧
    Ready (.scrub 63 4) (stScrub .bound false) ∧ ((stScrub .bound false).slotOf 63).st ≠ .zeroised ∧
    (stScrub .zeroised false).scrubRange 63 (2 ^ 63) = true := by unfold Ready; decide +kernel

/-! Steps of contexts, engines and rings. -/

/-- Engine 1 of cluster 0, with this queue, command and drains. -/
def stEng (q : List EngCmd) (r : Option EngRun) (d : List Drain) : State :=
  stR [] [] fun c => { c with engines := [(1, { queue := q, run := r, drains := d })] }

def cmd0 (a : EngDo) : EngCmd := { op := { op0 with num := 0 }, stamp := 0, act := a }
def mma0 : EngDo := .mma 7 0 8 8 [(0, 31)] false
/-- A store of accumulator 7 that writes nothing, and one of it all. -/
def mst0 (y : W64) : EngDo := .mst .f32 7 y (mget [] recs 1)

/-- The same state with the first word of the accumulator failing. -/
def badAcc (s : State) : State := { s with bad := [accAt 0 (7 * 16384) / 8 * 8] }

theorem witness_EngineStepResults : (∀ a ∈ [EngDo.mzero 7, .mwrv 7 63 0, .mrd 7 63 0 31 false, .mrd 7 0 0 0 true, .mdrain 7 3, mst0 1, mma0],
      (stEng [cmd0 a] none []).opDead (cmd0 a).op = false ∧ ((stEng [cmd0 a] none []).myCl.engine 1).queue = [cmd0 a] ∧
        ((stEng [cmd0 a] none []).myCl.engine 1).run = none) ∧
    ((stEng [] (some { cmd := cmd0 mma0 }) []).myCl.engine 1).run = some { cmd := cmd0 mma0 } ∧
    (stEng [] (some { cmd := cmd0 mma0, cur := some (0, 31, 0) }) []).myCl.loadBefore 0 0 = false ∧
    (stEng [] none []).firstBadOf (mmaReads 0 7 0 8 8 0 31) = none ∧ ((badAcc (stEng [] none [])).firstBadOf (mmaReads 0 7 0 8 8 0 31)).isSome ∧
    (stEng [] none []).firstBadOf [(accAt 0 (7 * 16384), 16384)] = none ∧
    ((badAcc (stEng [] none [])).firstBadOf [(accAt 0 (7 * 16384), 16384)]).isSome ∧
    ((stEng [] none [{ ctx := 0, vq := 3, rows := [1, 2] }]).drainRoom { ctx := 0, vq := 3, rows := [1, 2] }) = true ∧
    ((stEng [] none [{ ctx := 0, vq := 3, rows := [1, 2] }]).myCl.engine 1).drains.findIdx?
      (stEng [] none [{ ctx := 0, vq := 3, rows := [1, 2] }]).drainRoom = some 0 := by decide +kernel

/-- Stores: with no failing word in what they read, and with one; writes that all succeed, and one that fails. -/
theorem witness_EngineStepResults_mst : (stEng [] none []).firstBadOf (mstReads 0 7 0x0000000000000001 (mget [] recs 1)) = none ∧
    ((badAcc (stEng [] none [])).firstBadOf (mstReads 0 7 1 (mget [] recs 1))).isSome ∧
    ((stEng [] none []).opDead op0 = false) ∧ ((stR [] [] id).engWriteAll 0 op0 [(0x100, 4, 1)]).2.isNone ∧
    ((stR [] [] id).engWriteAll 0 op0 [(2 ^ 47, 4, 1)]).2.isSome ∧ (∀ h, ((stR [] [] id).engWriteAll 0 op0 (freeHalf h false [])).2 = none) := by
  refine ⟨by decide +kernel, by decide +kernel, by decide +kernel, by decide +kernel, by decide +kernel, fun h => rfl⟩

/-- A drain whose context runs, or is exiting. -/
theorem witness_EngineStepResults_drain : let s := stEng [cmd0 (.mdrain 7 3)] none []
    ((s.ctx 0).live ≠ .exiting ∧ (s.ctx 0).live ≠ .off) ∧
    ((s.setMe { s.me with live := .exiting }).ctx 0).live = .exiting ∧ (s.setMe { s.me with live := .exiting }).opDead (cmd0 (.mdrain 7 3)).op = false := by
  decide +kernel

/-- A drain bound to vq3, and its rows. -/
theorem witness_ContextStepResults_drain : let s : State := { stEng [] none [{ ctx := 0, vq := 3, rows := [1, 2] }] with
      ctxs := [(0, { me0 with vqs := [(3, { bound := some (.drain 1) })] })] }
    (s.me.getVQ 3).bound = some (.drain 1) ∧ ((s.cl 0).engine 1).drains.findIdx? (fun d => d.ctx == 0 && d.vq == 19 - 16) = some 0 := by
  decide +kernel

def trap0 : Trap := { cause := 0x12 }

theorem witness_ContextStepResults :
    ({ me0 with waitLeft := some 0 } : Ctx).atBundle = true ∧ ((st.fetchBlock 0 (me0.pc.toNat / 256)).isOk = false) ∧
    ((st.setMe { me0 with fetchBuf := some (2 ^ 32, 0) }).fetchBlock 0 (me0.pc.toNat / 256)).isOk ∧
    (slotsAt 0 me0.pc).isOk = false ∧ (slotsAt (BitVec.ofNat 2048 (2 ^ 127)) me0.pc) = .ok [0, 0, 0, 2 ^ 31] ∧
    (st.setMe { me0 with inflight := [{ id := 4, dsts := [.x 1], seq := 0, val := some [.x 1 7] }] }).me.canLand
      { id := 4, dsts := [.x 1], seq := 0, val := some [.x 1 7] } = true ∧
    me0.canLand { id := 4, dsts := [.x 1], seq := 0 } = false ∧ st.me.live = .run ∧ st.answered 0 = false ∧
    (stQ.me.getQ 1).bound = some (.delivery 3) ∧ (stQ.me.getVQ 1).bound = some (.ring 0) ∧
    unallocated (0x30 * 2 ^ 21) = some .major ∧ unallocated 0 = none := by decide +kernel

/-- A context whose result is late, one in which it has come by now, and one with both deferred traps. -/
theorem witness_ContextStepResults_late : (({ me0 with cstate := .compensate } : Ctx).late (st.cl 0).cycle) = false ∧
    ({ me0 with pending := [{ wr := .x 1 0, due := 0, seq := 0, arr := 9 }] } : Ctx).late (st.cl 0).cycle = true ∧
    ({ me0 with memErrs := [trap0], taskFaults := [trap0] } : Ctx).memErrs = [trap0] ∧ me0.replayed = none ∧ st.stopping 0 = false ∧
    ((stEng [] none [{ ctx := 0, vq := 3, rows := [1, 2] }]).me.tlErrs.all fun e => e.1 != 4) = true := by decide +kernel

/-- Two rings of neighbours: context 0 of cluster 0 sends rows to a RECV ring of cluster 1. -/
def stPair : State :=
  { st with
    ctxs := [(0, { me0 with rings := [(2, { ring0 0 with mcf := 1, mcn := 1, dring := 3, dests := [(1, 1)] })] }),
      (4, { me0 with rings := [(3, { ring0 2 with dring := 2 })] })]
    clusters := [(0, { cl0 with ti := { team := 1, gangSize := 2, ranks := [0, 1] } }),
      (1, { cl0 with ti := { team := 1, gangSize := 2, gangIx := 1, ranks := [0, 1] } })] }

theorem witness_LoaderAndRingStepResults : (stO fun c => { c with loader := [load7] }).myCl.loader[0]? = some load7 ∧
    load7.src = .tile 1 [] ∧ (stO fun c => { c with loader := [load7] }).myCl.loadReady load7 = true ∧
    (stW.me.ring 13).map (stW.flushNext 0 13) = some none ∧ stW.nextFetch 0 13 (ring0 0) = some 0 ∧ stW.me.paused = false ∧
    stW.nextFetch 0 13 { ring0 0 with landed := 4 } = none ∧ stW.nextFetch 0 13 { ring0 0 with first := 70, landed := 70 } = some 70 ∧
    (ring0 0).rows ≤ 70 ∧ 0 < (ring0 0).rows ∧ (ring0 0).freeing = none ∧
    ((stW.setMe { stW.me with live := .stopped }).ctx 0).paused = true ∧ (stW.setMe { stW.me with live := .stopped }).ofillWaits 0 13 (ring0 0) = false ∧
    (ring0 2).hasLanded 0 = false ∧ ({ ring0 2 with landed := 1 }).hasLanded 0 = true ∧
    ([(op0, RingWait.out 0 2)].findIdx fun c => c.2.retires) = 0 ∧ stW.opDead op0 = false ∧
    (stW.writeRow 0 op0 { ring0 1 with tr := mget [] recs 1 } 0).2 = none ∧ (stW.writeRow 0 op0 { ring0 1 with lsb := 2 ^ 20, tr := recOf 0 2 1 (2 ^ 46) 64 64 4 256 0 } 0).2.isSome := by
  decide +kernel

theorem witness_LoaderAndRingStepResults_messages : ((stPair.ctx 4).ring 3).map (·.mode) = some 2 ∧ stPair.gangCl 1 0 = some 0 ∧
    ((stPair.ctx 0).ring 2).map (fun y => (y.mode, y.freeing.isSome)) = some (0, false) ∧ stPair.creditsOut 0 2 1 = false ∧
    ((stPair.ctx 0).ring 2).map (fun y => (y.mcf, y.mcn, y.dctx, y.dring, mget 1 y.dests 1)) = some (1, 1, 0, 3, 1) ∧
    (stPair.cl 1).ti.gangIx = 1 ∧ ((stPair.ctx 4).ring 3).map (fun x => (x.dctx, x.dring, x.mcf)) = some (0, 2, 0) ∧
    (stW.me.ring 14).map (fun x => (x.bind, x.hasLanded 0, x.first + x.depth)) = some (some (3, 0, 0), true, 4) ∧ (stW.me.getVQ 3).ents = [] := by
  decide +kernel

/-- A row half written: of an IN ring, of an OUT ring, and one that a RECV ring takes. -/
theorem witness_LoaderAndRingStepResults_halves : let p : RowPart := { row := 0, free := 0, val := 0 }
    p.again = false ∧ p.row < (ring0 0).rows ∧ ({ ring0 0 with part := some p } : Ring).part = some p ∧ (ring0 0).part = none ∧
    (stW.writeRow 0 op0 { ring0 1 with tr := mget [] recs 1 } 0).2 = none ∧
    (∀ k, (stW.writeHalf 0 op0 { ring0 1 with len := 0, rowel := 0, tr := mget [] recs 1 } 0 k false).2 = none) := by
  refine ⟨by decide +kernel, by decide +kernel, by decide +kernel, by decide +kernel, by decide +kernel, fun k => rfl⟩

/-! Messages: one that has arrived, with any act, at cluster 0. -/

def msgOf (a : MsgDo) : Msg := { id := 5, pos := 0, dst := 0, act := a }
def stM (f : Cluster → Cluster) (a : MsgDo) : State := { stR [] [] f with net := [msgOf a] }

theorem witness_arrived (f : Cluster → Cluster) (a : MsgDo) : (stM f a).arrived 5 = some (msgOf a) := by
  have h (b : Nat) : ({ id := 5, pos := 0, dst := 0, act := a } : Msg).here = true := by simp [Msg.here, siteOf]
  simp [State.arrived, stM, msgOf, stR, State.before, h 0]

/-- A packet of context 0 for window 1 at offset 0, untagged, translated by token 6. -/
def pkt : Packet := { op := op0, acc := 1, kind := .put, rank := 0, win := 1, tag := .fence 0, off := 0, len := 4, token := some (2, 6) }
def fOpen : Frank := { state := 2, put := true, get := true, acc := true, len := 64 }

theorem witness_RemoteStepResults : cl0.ti.ranks.findIdx? (· == pkt.op.ctx / 4) = some 0 ∧ Frank.test {} pkt 0 = some 1 ∧
    fOpen.test pkt 0 = none ∧ cl0.liveToken pkt = none ∧
    ({ cl0 with tokens := [(6, { win := 1, gen := 2, state := 1 })] }).liveToken pkt = some { win := 1, gen := 2, state := 1 } ∧
    cl0.seqReady { pkt with ordered := true } = true ∧ cl0.seqReady { pkt with ordered := true, seq := 1 } = false ∧
    (stM id (.accepted pkt)).opDead op0 = false ∧
    ([{ id := 1, op := op0, win := 1, rank := 0, tag := .none, unacc := 1, unapp := 1 }] : List Access).any (fun a => a.id == pkt.acc) = true ∧
    ((stR [] [] id).engWrite 0 op0 0x100 4 7).2 = none ∧ ((stR [] [] id).engWrite 0 op0 (2 ^ 47) 4 7).2.isSome ∧
    (stR [] [] id).windowPage 0 fOpen 63 .read = .ok { va := 0, size := 64, home := lsAt 0 0 } ∧
    (stR [] [] id).windowPage 0 fOpen 63 .write = .ok { va := 0, size := 64, home := lsAt 0 0 } ∧
    ((stR [] [] id).windowPage 0 { fOpen with base := 2 ^ 46, len := 4096 } 4095 .amo).toOption = none ∧
    cl0.freeToken = some 0 ∧ cl0.rtcWait = [] ∧
    (stM id (.inval 0 2 6)).rankCl 0 0 = some 0 ∧
    ((stR [] [] fun c => { c with held := [pkt] }).clusters.flatMap fun e => e.2.held.map fun p => (e.1, p))[0]? = some (0, pkt) := by
  decide +kernel

/-- The window's page translated: a packet that passes its checks, and one whose home cannot be read. -/
theorem witness_RemoteStepResults_checks : let s (bad : List Nat) : State := { stR [] [] (fun c => { c with
        frank := [(1, fOpen)], tokens := [(6, { win := 1, gen := 2, state := 1, size := 64, home := lsAt 0 0 })] }) with bad := bad }
    let t : Token := { win := 1, gen := 2, state := 1, size := 64, home := lsAt 0 0 }
    ((s []).cl 0).liveToken pkt = some t ∧ ((s []).cl 0).tokenOf pkt = some t ∧ ((s []).clearPacket 0 pkt t).2 = some [lsAt 0 0] ∧
    ((s [lsAt 0 0]).clearPacket 0 { pkt with kind := .get } t).2 = none ∧ ((mget {} ((s []).cl 0).frank 2).state = 0) ∧ fOpen.len ≤ 64 ∧ pkt.row = none ∧
    ((s []).cl 0).tokens.find? (fun e => e.2.state == 1 && e.2.win == 1 && e.2.va == 0 && e.2.home == lsAt 0 0 && e.2.rd == t.rd && e.2.wr == t.wr) =
      some (6, t) ∧ Packet.waitsFor { rank := 0, win := 1, lo := 0, hi := 64, gen := 2, ix := 6 } pkt = true ∧
    (mget {} [(6, { t with state := 2 })] 6 : Token).state = 2 := by decide +kernel

/-- A packet whose operand is read again: it can be, or cannot; the halves of an answer with no element, and one that fails; a holder
that has not acknowledged. -/
theorem witness_RemoteStepResults_late : let s : State := (stM (fun c => { c with
        accs := [{ id := 1, op := op0, win := 1, rank := 0, tag := .none, unacc := 1, unapp := 1 }] }) (.req pkt)).take 5
    (s.reread pkt).1.isOk ∧ (s.reread { pkt with late := some (0x100, 0) }).1.isOk ∧
    (s.reread { pkt with late := some (2 ^ 47, 0) }).1.isOk = false ∧ ((s.cl 0).accs.any fun a => a.id == pkt.acc) = true ∧
    (∀ k, (s.engWriteAll 0 op0 (freeHalf k false (({ pkt with len := 0 } : Packet).delivery 0))).2 = none) ∧
    (s.engWriteAll 0 op0 (({ pkt with kind := .get, back := 2 ^ 47 } : Packet).delivery 0)).2.isSome ∧
    0 ∈ ({ state := 2, gen := 2, acks := 1, wait := [0] } : Token).wait := by
  refine ⟨by decide +kernel, by decide +kernel, by decide +kernel, by decide +kernel, fun k => rfl, by decide +kernel, by decide +kernel⟩

/-- A token table that is full. -/
theorem witness_RemoteStepResults_full :
    ({ cl0 with tokens := tab (fun k => (k, ({ state := 1 } : Token))) 1024 } : Cluster).freeToken = none := by
  have h (l : List Nat) (i : Nat) (hi : i ∈ l) : (mget {} (l.map fun k => (k, ({ state := 1 } : Token))) i).state = 1 := by
    induction l with
    | nil => cases hi
    | cons a l ih => by_cases e : i = a <;> simp_all [mget]
  unfold Cluster.freeToken tab
  rw [List.find?_eq_none]
  intro i hi
  simp [h _ i hi]

theorem witness_WindowStepResults (k : Nat) (p : WinPart) :
    ∃ c u, ((stM id (.closeNotice 1 0 p)).take 5).joinColl 1 1 0 k p = (c, u) := ⟨_, _, rfl⟩

/-- One wcompl with one target, and with two, still to be told. -/
theorem witness_WindowStepResults_compl (n : Nat) :
    ([{ epoch0 with ending := some (op0, n) }] : List Epoch).find? (fun e => (e.ending.map (·.1)) == some op0) =
      some { epoch0 with ending := some (op0, n) } := by simp [epoch0]

/-- Commands and requests of this panel's contexts, and of another's. -/
theorem witness_WindowStepResults_far : (0 : Nat) < 8192 ∧ 8192 ≤ (8192 : Nat) ∧ ({ op := op0, rank := 0, excl := true } : LockReq).op.ctx < 32768 ∧
    32768 ≤ ({ op := { op0 with ctx := 32768 }, rank := 0, excl := true } : LockReq).op.ctx := by decide +kernel

/-- A coll of operation 0, running with an element to move, and a dispatch that counts. -/
def coll0 : SortCmd := { op := op0, cl := 0, word := cw0, cc := 0, k := 0, fn := 2, blk := [0, 2 ^ 32], recs := [recOf 0 1 0 0 64 64 4 256 0, recOf 0 1 0 0 64 64 4 256 0], sig := [], run := 1 }

theorem witness_SortStepResults : mget 0 cl0.commCancel 3 ≤ 0 ∧ (0 < mget 0 ({ cl0 with commCancel := [(3, 1)] }).commCancel 3) ∧
    ({ st with sites := [(0, { office := [{ coll0 with fn := 0 }] })] }).runningDispatch 0 3 0 0 = some { coll0 with fn := 0 } ∧
    (let s : State := ({ st with sites := [(0, { office := [coll0] })] }).dropChunks 0;
      s.mover 0 3 = some coll0 ∧ ((s.turnOrder 0).find? fun h => (s.mover 0 h).isSome) = some 3) ∧
    (let s : State := ({ st with sites := [(0, { office := [{ coll0 with fn := 1 }] })] }).dropChunks 0;
      s.mover 0 3 = some { coll0 with fn := 1 } ∧ ((s.turnOrder 0).find? fun h => (s.mover 0 h).isSome) = some 3) ∧
    ((st.turnOrder 0).find? fun h => (st.mover 0 h).isSome) ≠ some 3 ∧ coll0.half = none ∧ ({ coll0 with half := some 0 } : SortCmd).half ≠ none ∧
    st.runningDispatch 0 3 0 0 = none ∧ op0.ctx < 32768 ∧ 32768 ≤ ({ op0 with ctx := 32768 } : Op).ctx := by
  decide +kernel

/-- Operation 0 with its cancel on its way to one member, and to two. -/
theorem witness_SortStepResults_cancel (n : Nat) : ([(op0, n)] : List (Op × Nat)).find? (fun e => decide (e.1 = op0)) = some (op0, n) := by
  simp

/-- A packet at site 0 for site 63: along the row first, then down the column. Every link of site 0 is down in the second state. -/
def far (d : Nat) : State := { st with net := [{ msgOf (.accepted pkt) with dst := d }], ports := [(0, { state := 2, peer := 2 })], routes := [(2, [0])] }
def farDown (d : Nat) : State := { far d with sites := [(0, { links := tab (fun k => (k, { width := 3 })) 14 })] }

theorem witness_FabricStepResults : (far (63 * 128)).aim { msgOf (.accepted pkt) with dst := 63 * 128 } = some 63 ∧
    (far (63 * 128)).nextHop 0 63 0 = some (7, 1) ∧ (far (63 * 128)).nextHop 7 63 1 = some (63, 3) ∧ (farDown 0).nextHop 0 63 0 = none ∧
    (far (3 * 8192)).portFor 0 (3 * 8192) = some 0 ∧ (far (3 * 8192)).aim { msgOf (.accepted pkt) with dst := 3 * 8192 } = some 0 ∧
    (far (4 * 8192)).aim { msgOf (.accepted pkt) with dst := 4 * 8192 } = none ∧
    ((far 0).net.find? fun x => x.id == 5) = some { msgOf (.accepted pkt) with dst := 0 } ∧ (msgOf (.accepted pkt)).via = none ∧
    ({ msgOf (.accepted pkt) with via := some 7 } : Msg).via = some 7 ∧
    ([{ id := 3, src := 0, dst := 7, open_ := false }] : List Bag).find? (fun b => b.src == 0 && b.dst == 7 && !b.open_) =
      some { id := 3, src := 0, dst := 7, open_ := false } ∧
    (∀ k < 14, linkTo (linkPeer 0 k) 0 ≠ none ∧ linkTo (linkPeer 63 k) 63 ≠ none) ∧
    ({ state := 3 } : IczPort).live = true ∧ ({ state := 2 } : IczPort).live = true ∧ (2 : Nat) ^ 48 ≤ ({ sent := 2 ^ 48 - 1 } : IczPort).sent + 1 ∧
    ({ state := 2, sent := 2 ^ 47 } : IczPort).limit ≤ 2 ^ 47 := by decide +kernel

/-- Ports with and without groups: one to take in, one that checks; groups to fill, rekeying, and counters that are spent. -/
theorem witness_FabricStepResults_groups : let g : IczGroup := { tag := Config.linkTag 0 (linkNonce 0 1 0) 0, released := true }
    ({} : IczPort).checks g = true ∧ ({} : IczPort).checks { g with counter := 1 } = false ∧
    ([g].zipIdx.find? fun e => !e.1.released) = none ∧ ([({} : IczGroup)].zipIdx.find? fun e => !e.1.released) = some ({}, 0) ∧
    ({ state := 2, flits := 1 } : IczPort).spent 5 = false ∧ ({ state := 2, flits := 1, sent := 2 ^ 48 } : IczPort).spent 5 = true ∧
    (({ opened := (0, 0) } : IczPort).opened.2 + 16 ≤ 16) ∧ ({ state := 3 } : IczPort).rx = [] ∧ (st.site (portSite 31)).present = true ∧
    ((far (3 * 8192)).port 0).spent (MsgDo.accepted pkt).flits = false ∧
    ((far (3 * 8192)).net.any fun x => x.leads 5) = false ∧
    (({ far (3 * 8192) with net := [{ msgOf (.more 5 1) with id := 4 }] }).net.any fun x => x.leads 5) = true := by
  refine ⟨by simp [IczPort.checks], by simp [IczPort.checks], by decide +kernel, by decide +kernel, by decide +kernel, by decide +kernel,
    by decide +kernel, by decide +kernel, by decide +kernel, by decide +kernel, by decide +kernel, by decide +kernel⟩

/-- A mailbag closed at site 0 whose packets have all reached site 7. -/
theorem witness_FabricStepResults_mailbag : let b : Bag := { id := 3, src := 0, dst := 7, open_ := false }
    let s : State := { far 0 with net := [{ msgOf (.accepted pkt) with pos := 7, dst := 7 * 128, bag := some 3 }], bags := [b] }
    s.bags.find? (fun b => b.src == 0 && b.dst == 7 && !b.open_ &&
      s.net.all fun x => decide (x.bag ≠ some b.id) || (x.pos == 7 && x.via.isNone)) = some b := by decide +kernel

/-! The memory system, letters, instances, the host. -/

def stC (f : Cluster → Cluster) : State := stR [] [] f
def stPig (a : MemOp) : State := { st with sites := [(0, { pigQueue := [{ ctx := 0, pa := pigAt 0 8, va := 0, op := a }] })] }

theorem witness_MemoryStepResults : (stC fun c => { c with l1Miss := [3] }).myCl.l1Miss.contains 3 = true ∧
    (stC fun c => { c with l1Miss := [3] }).badAt ((stC id).lineHome 0 3) 128 = false ∧
    ({ (stC fun c => { c with l1Miss := [0] }) with bad := [sliceAt 0 0] }).badAt (sliceAt 0 0) 128 = true ∧
    (∀ a ∈ [MemOp.store 8, .load 3, .amo .add], ((stPig a).site 0).pigQueue.find? (fun r => pigBank r.pa == pigBank (pigAt 0 8)) =
      some { ctx := 0, pa := pigAt 0 8, va := 0, op := a }) ∧ pigBank (pigAt 0 8) < 256 ∧
    cl0.wqLo ≤ cl0.wqHi ∧ (mget [] cl0.wqs 0).length < cl0.wqHi ∧
    ({ cl0 with wqHi := 1, wqLo := 0, wqs := [(0, [{ range := 0, mask := 1 }])] }).wqHi ≤ 1 ∧
    ({ cl0 with heat := [(31, 1)] }).alloc 3 = true ∧ (stC id).slicePa 0 (256 * (4 * 0x60000000 / 256 - 1)) = some (sliceAt 0 (4 * 0x60000000 - 256)) ∧
    (0x5FFFFF : Nat) * 256 / 0x60000000 = 0 := by decide +kernel

theorem witness_EngineRoomStepResults : cl0.isSet 0 = true ∧ cl0.isSet 14 = true ∧ cl0.isSet 15 = false ∧
    ({ cl0 with cycle := 256 }).napIdle ≤ ({ cl0 with cycle := 256 }).idle 14 ∧ mget .on cl0.bankPwr 14 = .on ∧
    ({ cl0 with cycle := 65536 }).retIdle ≤ ({ cl0 with cycle := 65536 }).idle 14 ∧ cl0.setReady 14 = true ∧
    (stC id).eff 0 ≤ cl0.heatOf 3 ∧ cl0.alloc 3 = false ∧ cl0.deepen = true ∧ ({ cl0 with heat := [(31, 1)] }).alloc 3 = true ∧
    cl0.chState = .normal ∧ 2 < cl0.nChan ∧ ((stC id).site 0).sparePool = 240 :: List.range' 241 15 ∧
    ({ cl0 with cethr := 1 }).cethr < ((mget [] ({ cl0 with chEvents := [(2, [0, 5])] }).chEvents 2).filter fun t => decide (6 < t + 2 ^ 30)).length ∧
    ({ cl0 with chState := .spare, mbnd := 2 ^ 23 - 1 }).mbnd < ({ cl0 with chState := .spare }).moveSize ∧
    ({ cl0 with chState := .reduce }).moveSize ≤ 2 ^ 24 ∧
    ([(63, { st := .rotating })] : Map KeySlot).find? (fun e => e.2.st == .rotating &&
      !(stC id).clusters.any fun c => siteOf c.1 == 0 && c.2.kbActive && c.2.kbSlot == e.1) = some (63, { st := .rotating }) ∧
    (stScrub .zeroised true).rgUnit 0 (2 ^ 63) 0 = some (sliceAt 0 0) ∧ rgCount (2 ^ 63) = 1 ∧ rgKind (2 ^ 63) = 2 ∧ st.stage ≠ 4 := by
  decide +kernel

/-- A rotation at a granule of the slot that holds ciphertext, and at one that does not; a monitor cluster, and one that is not. -/
theorem witness_EngineRoomStepResults_rotation : let s (tag : Nat) : State := { stC (fun c => { c with kbActive := true, kbSlot := 63, encFrames := [0] }) with
      sites := [(0, { tags := [(frameOf (sliceAt 0 0), tag)] })] }
    (s 64).rotates 0 = true ∧ (s 0).rotates 0 = false ∧ (stC id).isMon 0 = false ∧ (stC id).isMon (st.site 0).moncl = true ∧
    (stC id).cl 0 = { cl0 with recCache := recs, recLim := 8 } := by decide +kernel

/-- A scrub at a bank, at a frame, at a place that does not exist, at the end of an entry, and at the end of its list. -/
theorem witness_EngineRoomStepResults_scrub : let s (n unit : Nat) : State := { st with
      sites := [(0, { scrub := { active := true, slot := 63, entry := 1, n := n, unit := unit, words := [2 ^ 62, 2 ^ 63] } })] }
    (s 2 0).scrubs 0 = true ∧ st.scrubs 0 = false ∧ rgCount (2 ^ 62) = 1 ∧ rgKind (2 ^ 62) = 1 ∧ (s 2 0).rgUnit 0 (2 ^ 62) 0 = some (lsAt 0 0) ∧
    ((s 2 0).site 0).scrub.entry < 2 ∧ (s 2 1).scrubs 0 = true ∧ ((s 1 1).site 0).scrub.entry = 1 ∧
    (s 2 0).rgUnit 0 (BitVec.ofNat 64 (2 ^ 63 + 1)) 0 = none ∧ 0 < rgCount (BitVec.ofNat 64 (2 ^ 63 + 1)) := by decide +kernel

/-- Post box 4095 with one letter: w0 its first word, w5 the word it names, w6 the value. -/
def stL (l : Letter) (f : PostBox → PostBox) : State := { st with pbs := [(4095, f { letters := [l], en := true })] }
def let0 (kind v passed cls : Nat) : Letter :=
  { id := 1, words := [BitVec.ofNat 64 kind, 0, 0, 0, 0, 0x100, BitVec.ofNat 64 v, 0, 0, 0, 0, 0, 0, 0, 0, 0], checked := true, passed := passed, cls := cls }

theorem witness_LetterStepResults : st.stage = 5 ∧ (st.hostPort 0).up = true ∧
    (({ st with hostPorts := [(0, { up := false })] }).hostPort 0).up = false ∧ State.reset.stage ≠ 5 ∧ (0x70 : Nat) % 8 = 0 ∧ (let0 4 0 0 3).kind = 4 ∧ (let0 1 0 0 3).kind ≠ 4 ∧
    ((stL (let0 1 7 0 3) id).checkHead 4095 64).activeHead 4095 = some (let0 1 7 0 3) ∧
    (((stL (let0 1 7 0 3) id).checkHead 4095 64).pb 4095).letters = [let0 1 7 0 3] ∧
    ((stL (let0 1 7 0 3) id).checkHead 4095 64).cwRefused none ((let0 1 7 0 3).w 5) = false ∧
    ((stL (let0 2 1 0 3) id).checkHead 4095 64).activeHead 4095 = some (let0 2 1 0 3) ∧
    ((stL (let0 2 1 0 3) id).checkHead 4095 64).badAt (cwHome ((let0 2 1 0 3).w 5)) 8 = false ∧
    ((stL (let0 2 1 0 3) id).checkHead 4095 64).load (cwHome ((let0 2 1 0 3).w 5)) 8 < 1 ∧
    ((let0 2 0 0 3).w 6).toNat = 0 ∧ (stL (let0 1 0 4096 1) id).activeHead 4095 = some (let0 1 0 4096 1) ∧
    (stL (let0 1 0 4096 0) id).activeHead 4095 = some (let0 1 0 4096 0) ∧ (stL (let0 1 0 4095 3) id).activeHead 4095 = some (let0 1 0 4095 3) ∧
    ((stL (let0 1 0 0 3) fun b => { b with sealedTo := some (0, 63) }).pb 4095).sealedTo = some (0, 63) := by decide +kernel

/-- An instance in a phase, of letter 1 of post box 4095, with these clusters and first word. -/
def team0 (ph : TeamPhase) (cls : List Nat) (w0 : Nat) : Team :=
  { pb := 4095, letter := 1, words := [BitVec.ofNat 64 w0], clusters := cls, phase := ph }
def stTeam (x : Team) (kind : Nat) (cs : Map Ctx) : State := { stL (let0 kind 0 0 3) id with teams := [(1, x)], ctxs := cs }
def joinLetter : Letter := { let0 3 0 0 3 with words := [3, 0, 0, 0] ++ tab (fun _ => BitVec.ofNat 64 (2 ^ 64 - 1)) 12 }

theorem witness_InstanceStepResults : (stTeam (team0 .placed [] 0) 0 []).team 1 = some (team0 .placed [] 0) ∧
    (stTeam (team0 .placed [] 0) 0 []).letter 4095 1 = some (let0 0 0 0 3) ∧
    ((stTeam (team0 .placed [] 0) 0 []).prepareAll 1 (team0 .placed [] 0) (let0 0 0 0 3) []).2 = none ∧
    ((stTeam (team0 .placed [0] 0) 0 []).prepareAll 1 (team0 .placed [0] 0) (let0 0 0 0 3) [(0, 0)]).2.isSome ∧
    (let0 3 0 0 3).kind = 3 ∧ (stTeam (team0 .running [0] 0) 0 []).teamOver (team0 .running [0] 0) = true ∧
    (stTeam (team0 .running [0] 0) 0 [(3, me0)]).teamOver (team0 .running [0] 0) = false ∧
    (stTeam (team0 .saved [0] 0) 0 []).mayResume (team0 .saved [0] 0) = true ∧ ctxsOf [0] = [0, 1, 2, 3] ∧
    (stTeam (team0 .stopping [0] 0) 0 [(3, { me0 with live := .stopped })]).teamQuiet (team0 .stopping [0] 0) = true ∧
    fld (((team0 .running [0] 3).words.getD 0 0)) 0 4 = 3 ∧ joinLetter.kind = 3 ∧ 0 < joinLetter.npanel ∧
    (stTeam (team0 .stopping [0] 0) 0 [(0, { me0 with priv := 0 })]).stopDue 0 = true ∧
    (stTeam (team0 .running [0] 0) 0 [(0, { me0 with priv := 0 })]).stopDue 0 = false ∧
    (((({ st with ctxs := [(0, { me0 with live := .exiting })] }).dropStreams 0).landAll 0).ctx 0).settled = true := by decide +kernel

/-- A JOIN part, of 255 parts: one that waits for the others and can be late, one that has started, and one that has completed. -/
theorem witness_InstanceStepResults_join : let x : Team := { team0 .joining [0] 3 with words := joinLetter.words }
    x.asLetter.kind = 3 ∧ 0 < x.asLetter.npanel ∧ 0 ≠ x.asLetter.pidx ∧ x.started = false ∧ 0 ∉ x.heard ∧
    ({ x with started := true, finished := [255] } : Team).asLetter.pidx ∈ ({ x with started := true, finished := [255] } : Team).finished ∧
    x.joinAt + x.asLetter.tmo * 2 ^ 20 ≤ ({ cl0 with cycle := 2 ^ 52 } : Cluster).cycle ∧
    ({ cl0 with cycle := 0 } : Cluster).cycle < x.joinAt + x.asLetter.tmo * 2 ^ 20 ∧ x.clusters.headD 0 = 0 := by decide +kernel

/-- An exiting context with an ofill to come on its ring, and with a result in flight; a stop that its cluster's save area takes, or not. -/
theorem witness_InstanceStepResults_exit : let c : Ctx := { me0 with live := .exiting, vqs := [], rings := [(13, ring0 0)] }
    let l : LoadCmd := { load7 with op := op0, src := .ring 13 0 0, vr := 1 }
    let s : State := { st with ctxs := [(0, c)], clusters := [(0, { cl0 with loader := [l] })] }
    let u : State := (st.setMe { c with inflight := [{ id := 4, dsts := [.x 1], seq := 0 }] })
    (((s.dropStreams 0).landAll 0).ctx 0).settled = true ∧ (((((s.dropStreams 0).landAll 0).freeRings 0).ctx 0).rings.isEmpty) = false ∧
    ((((st.setMe { me0 with live := .exiting }).freeRings 0).ctx 0).rings) = [] ∧ (((u.dropStreams 0).landAll 0).ctx 0).settled = false ∧
    (∃ g ∈ ctxsOf [0], ((stTeam (team0 .stopping [0] 0) 0 [(3, { me0 with live := .stopped })]).ctx g).live ≠ .off) ∧
    (stTeam (team0 .stopping [0] 0) 0 [(3, { me0 with inflight := [{ id := 4, dsts := [.x 1], seq := 0 }], live := .stopped })]).teamQuiet
      (team0 .stopping [0] 0) = false := by decide +kernel

theorem witness_RegisterStepResults : st.expert 0 = false ∧ ({ st with sites := [(0, { expert := true })] }).expert 0 = true := by decide +kernel

theorem witness_HostStepResults : st.stage = 5 ∧ (0xFFFFFF : Nat) / 4096 < 4096 ∧ barSize 0 = 0x400000 ∧ barSize 2 = 0x1000000 ∧ barSize 4 = 0x40000000 ∧
    barSize 1 = 0 ∧ (st.b4Access 0x40 8).isSome ∧ (st.readAt (st.reporter 0 none) 0 8).badAt 0 8 = false ∧ State.reset.stage ≠ 5 ∧
    (({ st with sites := [(0, { off := true })] }).site 0).off = true := by decide +kernel

/-- A cycle of a cluster with two running contexts, and with none; and none with an access on its way. -/
theorem witness_HostStepResults_cycle : let s : State := { st with ctxs := [(0, me0), (2, me0)] }
    s.lineUp 0 ≠ [] ∧ s.lineUp 1 = [] ∧ (∀ k < 4, (s.ctx (4 * 0 + k)).posted = []) := by decide +kernel

/-- Host port 3 in each stage of a connection, with a session opened and one live. -/
theorem witness_SpdmStepResults : (∀ n ∈ [0, 1, 2, 3], let s : State := { st with hostPorts := [(3, { conn := n })] }
      (s.hostPort 3).up = true ∧ (s.hostPort 3).conn = n ∧ (s.hostPort 3).doe = false) ∧
    (({ st with hostPorts := [(3, { doe := true })] }).hostPort 3).doe = true ∧ (st.measurements 16).isSome ∧ st.measurements 17 = none ∧
    ((List.range 4).find? fun i => (mget {} (tab (fun i => (i, ({ st := 1 } : Session))) 4) i).st == 0) = none ∧
    (List.range 4).find? (fun i => (mget {} ([] : Map Session) i).st == 0) = some 0 ∧
    (mget {} ([(0, { st := 1 }), (3, { st := 2 })] : Map Session) 0).st = 1 ∧ (mget {} ([(0, { st := 1 }), (3, { st := 2 })] : Map Session) 3).st = 2 ∧
    mget 0 ([(4, 1)] : Map Nat) 4 ≠ 0 := by decide +kernel

/-! ## Witnesses for the statements about decoding, the step and the whole machine -/

/-- The context at a bundle: slot 0 holds word w and the others nop; f changes its context. -/
def stAt (w : Nat) (f : Ctx → Ctx := id) : State :=
  st.setMe (f { me0 with fetchBuf := some (2 ^ 32, BitVec.ofNat 2048 (w + 2 ^ 127)) })

/-- An unallocated major, an unallocated function, and the words of its bundle at the context's pc. -/
theorem witness_UnallocatedTraps : decodeBody (0x37 * 2 ^ 21) = .error .major ∧ decodeBody (0x3D * 2 ^ 21 + 7) = .error .function ∧
    (stAt (0x37 * 2 ^ 21)).AtBundle ∧ (stAt (0x37 * 2 ^ 21)).me.hasBundle = true ∧
    (stAt (0x37 * 2 ^ 21)).me.bundleWords = (0x37 * 2 ^ 21, .ok [0x37 * 2 ^ 21, 0, 0, 2 ^ 31]) ∧
    (stAt (0x37 * 2 ^ 21)).me.waitLeft.getD (bits (0x37 * 2 ^ 21) 27 4) = 0 ∧ (stAt (0x37 * 2 ^ 21)).me.shadow = [] ∧
    (0 = 0 ∨ bits (0x37 * 2 ^ 21) 27 4 ≠ 8) := by
  unfold State.AtBundle; decide +kernel

/-- The verdict of a slot, and that of the slot of such a bundle. -/
def verdictAt (i : Instr) (s : State) : Option Verdict := match exec i s with
  | .next t => some t.issue.verdict
  | _ => none
def verdictOf (i : Instr) (s : State) : Option Verdict := verdictAt i s.atSlot0

/-- A bundle whose slot takes effect. -/
theorem witness_StepRunsBundle_ok : let w := 0x010209F8
    let l := oneSlot w (.addi 4 4 504)
    (stAt w).AtBundle ∧ (stAt w).me.fetchBuf = some ((stAt w).me.pc.toNat / 256, BitVec.ofNat 2048 (w + 2 ^ 127)) ∧
    (stAt w).me.hasBundle = true ∧ (stAt w).me.bundleWords = (w, .ok (oneSlotWords w)) ∧ (stAt w).me.waitLeft = none ∧ bits w 27 4 = 0 ∧
    (stAt w).me.shadow = [] ∧ checkBundle (oneSlotWords w) = .ok l ∧
    stalls me0 (needs l l) = none ∧ boundShort me0 l = false ∧ verdictOf (.addi 4 4 504) (stAt w) = some .ok := by
  unfold State.AtBundle; decide +kernel

/-- A bundle with a wait count of 3, one that waits on, and one that eret left with its wait spent. -/
theorem witness_StepRunsBundle_waiting : let w := 0x190209F8
    let f (k : Nat) (c : Ctx) : Ctx := { c with waitLeft := some k }
    (stAt w).AtBundle ∧ (stAt w).me.hasBundle = true ∧ (stAt w).me.bundleWords.1 = w ∧ bits w 27 4 = 2 + 1 ∧ (stAt w).me.waitLeft = none ∧
    (stAt w (f 3)).AtBundle ∧ (stAt w (f 3)).me.waitLeft = some (2 + 1) ∧ (stAt w (f 0)).AtBundle ∧
    (stAt w (f 0)).me.waitLeft.getD (bits w 27 4) = 0 := by
  unfold State.AtBundle; decide +kernel

/-- A block that must come, a buffered write beside one in flight, a structural fault, and a word that no row has. -/
theorem witness_StepRunsBundle_early : let v := 0x010209F8
    let g (c : Ctx) : Ctx := { c with fetchBuf := none }
    let h (c : Ctx) : Ctx := { c with shadow := [{ wr := .x 1 0, k := 2 }], pending := [{ wr := .x 1 0, due := 3, seq := 0 }] }
    let e (c : Ctx) : Ctx := { c with fetchBuf := some (2 ^ 32, 0) }
    (stAt v g).AtBundle ∧ (stAt v g).me.hasBundle = false ∧ (stAt v h).AtBundle ∧ (stAt v h).me.shadow ≠ [] ∧ (stAt v h).me.pending ≠ [] ∧
    (stAt v e).AtBundle ∧ (stAt v e).me.hasBundle = true ∧ (stAt v e).me.bundleWords.2.isOk = false ∧
    (stAt (0x37 * 2 ^ 21)).me.bundleWords.2.toOption = some (oneSlotWords (0x37 * 2 ^ 21)) ∧
    (checkBundle (oneSlotWords (0x37 * 2 ^ 21))).isOk = false := by
  unfold State.AtBundle; decide +kernel

/-- A bundle that stalls on a result in flight, and one that pops a bound queue register with no entry. -/
theorem witness_StepRunsBundle_waits : let w := 0x01026000
    let l := oneSlot w (.addi 4 48 0)
    let f (c : Ctx) : Ctx := { c with inflight := [{ id := 0, dsts := [.x 4], seq := 0 }] }
    let g (c : Ctx) : Ctx := { c with qs := [(0, { bound := some (.drain 0) })] }
    (stAt w f).AtBundle ∧ (stAt w f).me.bundleWords = (w, .ok (oneSlotWords w)) ∧ checkBundle (oneSlotWords w) = .ok l ∧
    stalls (f me0) (needs l l) = some .stall ∧ (stAt w g).AtBundle ∧ (stAt w g).me.bundleWords = (w, .ok (oneSlotWords w)) ∧
    stalls (g me0) (needs l l) = none ∧ boundShort (g me0) l = true := by unfold State.AtBundle; decide +kernel

/-- A bundle whose slot pops an empty queue register and traps, and one whose mma finds the engine's queue full. -/
theorem witness_StepRunsBundle_stops : let w := 0x01026000
    let f (c : Ctx) : Ctx := { c with qs := [] }
    let v := 0x05A00000
    let s := (stAt v).setEngine 0 0 { queue := List.replicate 8 (cmd0 mma0) }
    (stAt w f).AtBundle ∧ (stAt w f).me.bundleWords = (w, .ok (oneSlotWords w)) ∧
    boundShort (f me0) (oneSlot w (.addi 4 48 0)) = false ∧
    verdictOf (.addi 4 48 0) (stAt w f) = some (.trapped { cause := 0x08, reason := 1, detail := 48 }) ∧
    s.AtBundle ∧ s.me.bundleWords = (v, .ok (oneSlotWords v)) ∧ checkBundle (oneSlotWords v) = .ok (oneSlot v (.mma 0 0 0 0 0)) ∧
    verdictOf (.mma 0 0 0 0 0) s = some (.held .block) := by unfold State.AtBundle; decide +kernel

theorem witness_NeverStops : State.agendaOk {} ∧ ({ agenda := [.powerOn, .blockOpen 335, .aclkCycle 83] } : State).agendaOk := by
  unfold State.agendaOk; decide +kernel

theorem witness_DecodeEncode : (Instr.addi 63 63 511).wf = true ∧ encode (.addi 63 63 511) = some 0x011FFFFF ∧
    0x011FFFFF < 2 ^ 27 ∧ decodeBody 0x011FFFFF = .ok (.addi 63 63 511) ∧ decodeBody (2 ^ 27 - 1) = .ok (.ext 0x1FFFFF) := by
  decide +kernel

/-- A slot at a level too low, one that pops an empty queue register, one that waits for a bound one, one that pushes to a full one, and
in scoreboard mode a source with a write pending. -/
theorem witness_SharedChecks : let s (f : Ctx → Ctx) : State := st.setMe (f me0)
    let check (i : Instr) (s : State) : Option Stop := s.issueCheck (shape i).level (shape i).srcs (shape i).dsts
    let late : State := { st with ctxs := [(0, { me0 with pending := [{ wr := .x 1 0, due := 3, seq := 0 }] })]
                                  clusters := [(0, { cl0 with sbMode := true })] }
    (encode (.eret)).map (fun w => bits w 21 6) = some 0x3E ∧ check .eret (s fun c => { c with priv := 0 }) = some (.trap { cause := 3, reason := 1 }) ∧
    check (.add 1 48 48) st = none ∧ check (.add 1 48 48) (s fun c => { c with qs := [(0, { ents := [5] })] }) =
      some (.trap { cause := 8, reason := 1, detail := 48 }) ∧
    check (.add 1 48 1) (s fun c => { c with qs := [(0, { bound := some (.drain 0) })] }) = some (.hold .block) ∧
    check (.add 63 1 1) (s fun c => { c with qs := [(15, { ents := List.replicate 8 0 })] }) =
      some (.trap { cause := 9, reason := 1, detail := 63 }) ∧
    Reg.x 1 ∈ (shape (.add 0 2 1)).srcs ∧ late.myCl.sbMode = true ∧ late.me.isPending (.x 1) = true ∧
    check (.add 0 2 1) late = some (.trap { cause := 0x0B, reason := 1, detail := 1 }) := by decide +kernel

/-- A slot that only the shared checks guard, with the register it peeks, and a step of an agent. -/
theorem witness_CheckedSlotsComplete : takesEffect (.vqpk 31 3 7) = true ∧ takesEffect (.eret) = true ∧ takesEffect (.nop) = true ∧
    takesEffect (.ld 0 0 0 0 0) = false ∧ st.issueCheck (shape (.vqpk 31 3 7)).level (shape (.vqpk 31 3 7)).srcs
      (shape (.vqpk 31 3 7)).dsts (shape (.vqpk 31 3 7)).peek = none ∧ st.issue.verdict = .ok ∧ isAgentStep (.aclkCycle 83) = true := by
  decide +kernel

/-- No current task; TRAPVEC zero and not; the shadow buffer empty and not; a replay; and a shadow to return to. -/
theorem witness_TrapEntryRule : (st.ctx 0).task = none ∧ (st.freezeTask 0 { cause := 1 } 0) = st ∧ me0.trapVec = 0 ∧
    ({ me0 with trapVec := 0x40 } : Ctx).trapVec ≠ 0 ∧ me0.shadow = [] ∧
    ({ me0 with pending := [{ wr := .x 1 0, due := 3, seq := 0 }] } : Ctx).pending[0]? = some { wr := .x 1 0, due := 3, seq := 0 } ∧
    ({ me0 with shadow := [{ wr := .x 1 0, k := 2 }] } : Ctx).shadow ≠ [] ∧ ({ me0 with trapShadow := true } : Ctx).trapShadow = true ∧
    me0.trapShadow = false ∧ (0 : Nat) ≠ 1 := by decide +kernel

/-- The last register of each file, with no write pending; a cycle by which every result has come, and one before it. -/
theorem witness_FixedLatencyLands : st.me.pending = [] ∧ st.me.inflight = [] ∧
    (∀ wr, ∀ p ∈ (st.fix 6 wr 1 true).me.pending, p.arr ≤ 255) ∧
    (∀ p ∈ [({ wr := .x 1 0, due := 1, seq := 0, arr := 9 } : Pend)], p.due ≤ me0.ccount + 1 ∧ 8 < p.arr ∧ p.arr ≤ 9) := by
  refine ⟨by decide +kernel, by decide +kernel, ?_, by decide +kernel⟩
  intro wr p hp
  have hc : st.myCl.cycle = 0 := by decide +kernel
  have hp0 : st.me.pending = [] := by decide +kernel
  unfold State.fix at hp
  simp only [show ¬ ((1 : BitVec 5) = 0) by decide, and_false, if_false, hp0, List.nil_append, State.me_setMe, List.mem_singleton] at hp
  subst hp
  show st.myCl.cycle + min 255 _ ≤ 255
  omega

/-- Slots of the first and the last of the majors named, in effect. -/
theorem witness_RegisterFrame : st.issue.verdict = .ok ∧ encode (.add 63 48 63) = some 0x003FE1F8 ∧
    verdictAt (.add 63 48 63) st = some .ok ∧
    Reg.x (48 + 1) ∉ (shape (.add 63 48 63)).srcs ∧ Reg.v (28 + 1) ∉ (shape (.vkbpack 31 28 8)).srcs := by decide +kernel

theorem witness_StoreFrame : st.bad = [] ∧ memWf st.mem = true ∧
    Ready (.st 63 7 1 3 127) st ∧ st.access (st.areg 7) 8 .write = .ok 0x5FFFF8 ∧ Ready (.st 0 5 0 0 0) st ∧
    st.missFull 0 (st.missing 0 (sliceAt 0 0)) = false ∧
    st.access (st.areg 5) 1 .write = .ok (sliceAt 0 0) ∧ Ready (.vst 31 4 0 0 0 0) st ∧
    (st.vAcc true 4 0 (st.me.getP 0) 0 (st.imm (0 : BitVec 6))).isOk ∧
    Ready (.vsct32 31 4 31 0) st ∧ Ready (.vsct16 0 4 1 7) st ∧ Ready (.vsctaddS32 0 4 1 7) st ∧ Ready (.afx 63 36 1) st ∧
    Ready (.ahist 63 36 1) st ∧ st.access (st.me.getX 36) AmoOp.fx.size .amo = .ok 0x100 ∧
    (load0 0x100).ctx / 4 = 0 ∧ st.l1Line 0 0x100 = none ∧ st.l1Line 0 (sliceAt 0 0) = some 0 ∧ (∀ l ∈ (st.cl 0).l1, l.parity = false) ∧
    sliceAt 0 0 % 8 = 0 := by
  unfold Ready; decide +kernel

/-- Totals that stay in range whatever the order, up to the bound itself; and a heap that a context may use. -/
theorem witness_FxAddition : ([1, 2 ^ 63 - 2] : List W64).Perm [2 ^ 63 - 2, 1] ∧
    (0 : W64).toInt.natAbs + (([1, 2 ^ 63 - 2] : List W64).map fun x => x.toInt.natAbs).sum ≤ 2 ^ 63 - 1 := by decide +kernel

/-! ## Single slots that the spec works through (Tables 29 and those of the vector, task and program chapters), S = 0 or as shown -/

/-- Tables of 05_scalar.md and 06_vector.md, 14_security.md. -/
theorem test_decode_worked_words : [(0x00A80210, .ceq 2 1 2), (0x01820843, .shri 4 4 3), (0x02031303, .ld 6 2 0 6 3), (0x02400204, .fence 1),
    (0x8A9FFFFD, .br 0x1FFFFD), (0x02C0481B, .bru 0 36 3), (0x02C38604, .lbuf 7 3), (0x02E0F674, .rpt 15 6 7 1 0),
    (0x03842993, .vfmaF32 4 5 6 2), (0x042208C8, .vceqF32 2 1 3 1), (0x04683886, .vtopk 8 7 2 0), (0x04C20900, .vkbpack 2 1 4),
    (0x04E2E805, .vqcnt 2 1), (0x05036002, .vld 3 6 0 0 0 2), (0x05238140, .vst 3 8 0 1 1 0), (0x05491298, .vgth32 9 2 10 3),
    (0x05626600, .qpk 4 3), (0x07C28C3D, .kslotQuery 5 6 7)].all (fun r => decodeBody r.1 == .ok r.2) = true := by decide +kernel

/-- The tables of sample encodings of 16_programs_compute.md, 17_programs_sync.md and 18_programs_system.md. A pair's field holds half its register's number. (The row of dispatch is left out, log 55.) -/
theorem test_decode_program_words : [(0x4F400605, .bwph 3), (0x07400006, .wakew), (0x06412500, .wrset 0 9 20), (0x05E59683, .ofill 1 25 26),
    (0x02E01675, .rpt 1 6 7 1 1), (0x05A83380, .mma 2 0 6 7 0), (0x06905201, .put 4 5 4), (0x0640C605, .wrout 0 12 24),
    (0x04814242, .vrot 1 8 9 0), (0x04052013, .vex2 5 4 2), (0x07204859, .ahist 0 36 11), (0x06644182, .wfence 1 4 6),
    (0x07498403, .tlrdv 19 2), (0x06704609, .wflush 4 4 24), (0x074D0604, .tlerr 13 3), (0x07A24811, .hpop 4 36 2), (0x07A8487A, .hadj 16 36 15),
    (0x07AB48AC, .hres 22 36 21), (0x07ABC82D, .hdone 23 36 5), (0x07AD48CE, .hread 26 36 25), (0x036AA602, .fcvtS64F32 21 19),
    (0x0792C813, .qpop 37 36 2), (0x02C00000, .ret), (0x006AA888, .mul 21 20 17), (0x07CE8091, .csrw 29 18), (0x078DC807, .qthaw 27 36),
    (0x07C3C206, .scrub 7 33)].all (fun r => decodeBody r.1 == .ok r.2) = true := by decide +kernel

/-! ## Number formats: the worked conversions, packing and matrix term of 02_number_formats.md -/

/-- Table 10. -/
theorem test_worked_conversions : fCvt f32 bf16 .rne 0x3F808000 = (0x3F80, Flags.nx) ∧ fCvt f32 bf16 .rne 0x3F818000 = (0x3F82, Flags.nx) ∧
    fCvt f32 f16 .rne 0x477FF000 = (0x7C00, Flags.of ||| Flags.nx) ∧ fToInt f32 .rne 32 0x4F32D05E = (2147483647, Flags.nv) ∧
    fToInt f32 .rne 32 0x7F800001 = (0, Flags.nv) ∧ fCvt f32 bf16 .rne 0x80000000 = (0x8000, 0) ∧
    fOfInt f32 .ru 0x100000000000001 = (0x5B800001, Flags.nx) := by decide +kernel

/-- The worked packing of a KB4 block, and its elements unpacked: the third is the scale itself. -/
theorem test_worked_packing : kbPack 4 ([0x3F666666, 0xBEB33333, 0x3DCCCCCD, 0, 0].map (unpack f32)) =
      { scale := 0x7C0751, mant := [7, 0xD, 1, 0, 0], fl := Flags.nx } ∧
    kbUnpack 4 0x7C0751 1 = (0x3E03A880, 0) := by decide +kernel

/-- The worked term, and the window at work on two accumulators. -/
theorem test_worked_mma : let t := mmaTerm 4 8 (pack 4 (List.replicate 32 1)) (pack 8 (List.replicate 32 5)) 0x7D0000 0x808000 (List.range 32)
    t = .val 0xF000000000 (-33) ∧ mmaOut [t] (some 0x42C90000) = (0x435C8000, 0) ∧ mmaOut [t] (some 0x67800000) = (0x67800000, Flags.nx) := by
  decide +kernel

/-- R57, R44: terms of which the truncated sum is tiny and the exact sum, which rounds to 2^-126, is not: inexact, and no UF. -/
theorem test_mma_exact_sum_not_tiny : (mmaOut [.val (-1) (-79), .val 0xFFFFFF (-150), .val 3 (-152)] (some 0x18000000)).2 = Flags.nx := by
  decide +kernel

/-! ## One slot: what has landed when its results have -/

/-- The issuing context's accesses performed and its results landed, as in a cycle by which all of them have come. -/
def drained (t : State) : State :=
  let t := (t.setMe { t.me with
    pending := t.me.pending.map fun p => { p with arr := 0 }, posted := t.me.posted.map fun p => { p with due := 0 } }).performDue t.cur
  t.setMe (t.me.ticks 0 40).settleKnown

/-- The issuing context once the slot's results have landed. -/
def landed (i : Instr) (s : State) : Option Ctx := match exec i s with
  | .next t => if t.issue.verdict = .ok then some (drained t).me else none
  | _ => none

def xAfter (i : Instr) (s : State) (n : Nat) : Option W64 := (landed i s).map (·.getX n)

/-- The trap that a slot takes: cause, reason and detail. -/
def trapOf (i : Instr) (s : State) : Option (Nat × Nat × Nat) := match exec i s with
  | .next t => match t.issue.verdict with
    | .trapped x => some (x.cause, x.reason, x.detail)
    | _ => none
  | _ => none

/-- x1 is 7, x2 all ones, x3 the least value, x4 is 3; a queue register's two entries are read in order (R12); the corners of division
(R37): the least value by −1, a divisor of 0, and the remainder with the dividend's sign. -/
theorem test_integer : xAfter (.add 9 1 2) st 9 = some 6 ∧ xAfter (.sub 9 48 48) st 9 = some (BitVec.allOnes 64) ∧
    xAfter (.addi 9 4 504) st 9 = some (BitVec.ofInt 64 (-5)) ∧ xAfter (.add 0 1 1) st 0 = some 0 ∧
    xAfter (.divs 9 3 2) st 9 = some 0x8000000000000000 ∧ xAfter (.rems 9 3 2) st 9 = some 0 ∧ xAfter (.divs 9 1 0) st 9 = some (BitVec.allOnes 64) ∧
    xAfter (.rems 9 1 0) st 9 = some 7 := by decide +kernel

/-- f32 1.0 + 2.0; a divisor of +0 sets DZ and gives +∞ (R138, R139; 05_scalar.md on special values). -/
theorem test_scalar_fp : xAfter (.faddF32 9 5 6) st 9 = some 0x40400000 ∧ xAfter (.fdivF32 9 5 0) st 9 = some 0x7F800000 ∧
    (landed (.fdivF32 9 5 0) st).map (·.fctl &&& 31) = some (Flags.dz.setWidth 64) := by decide +kernel

/-- A load's result, zero- or sign-extended, of bytes that a store before it wrote to the local store (R121, R122). -/
def stWr : State := { st with mem := [(lsAt 0 0x108, 0x80), (lsAt 0 0x109, 0xFF)] }

theorem test_loads : xAfter (.ld 9 4 0 1 4) stWr 9 = some 0xFFFFFFFFFFFFFF80 ∧ xAfter (.ld 9 4 0 5 4) stWr 9 = some 0xFF80 ∧
    xAfter (.ld 9 4 1 1 4) stWr 36 = some 0x108 ∧ trapOf (.ld 9 10 0 3 0) st = some (0x06, 0, 0x308) := by decide +kernel

theorem test_stores : (match exec (.st 2 4 0 1 4) st with
    | .next t => (tab (fun k => readByte (drained t).mem (lsAt 0 (0x107 + k))) 4) == [0, 255, 255, 0]
    | _ => false) = true ∧ trapOf (.st 9 10 0 3 0) st = some (0x06, 0, 0x308) := by decide +kernel

/-- bru on a predicate that is uniformly true, false, or neither (R135); jr to a misaligned target (R134), its size and
the logarithm in DETAIL (Table 22). -/
theorem test_control : (match exec (.bru 0 36 0) st with | .next t => t.issue.target | _ => none) = some 0x100 ∧
    (match exec (.bru 0 36 2) st with | .next t => t.issue.target.isNone | _ => false) = true ∧
    (trapOf (.bru 0 36 1) st).map (·.1) = some 0x0A ∧ trapOf (.jr 42) st = some (0x06, 0, 0x204) := by decide +kernel

/-- An inactive lane keeps its value, an active one is written (R145): p1 is 0xF. -/
theorem test_vector_lanes : (landed (.vaddS32 1 1 1 1) st).map (fun c => [lane (c.getV 1) 3, lane (c.getV 1) 4]) = some [6, 4] ∧
    (landed (.vaddF32 9 2 2 1) st).map (fun c => [lane (c.getV 9) 3, lane (c.getV 9) 4]) = some [0x40000000, 0] ∧
    (landed (.vrsumS32 9 1 0) st).map (fun c => lane (c.getV 9) 0) = some 2016 := by decide +kernel

/-- The worked vkbpack of 06_vector.md. -/
def stKb : State := st.setMe { me0 with
  vs := [(1, vecOf fun i => if i = 0 then 0x3F666666 else if i = 1 then 0xBEB33333 else if i = 2 then 0x3DCCCCCD else if i < 32 then 0 else 0x40000000)] }

theorem test_worked_vkbpack : (landed (.vkbpack 2 1 4) stKb).map (fun c => [0, 1, 4, 7, 8, 62, 63].map fun i => lane (c.getV 2) i) =
      some [0x1D7, 0, 0x77777777, 0x77777777, 0, 0x7C0751, 0x7D2493] ∧ (landed (.vkbpack 2 1 4) stKb).map (·.vflags) = some 1 ∧
    (landed (.vkbscale 2 1 4) stKb).map (fun c => [lane (c.getV 2) 31, lane (c.getV 2) 32]) = some [0x3E03A880, 0x3E924980] := by decide +kernel

/-! ## The worked serialisation of a heap (R247, 09_sync_tasks_system.md), row by row -/

/-- Heap 15 with a floor of 0.5 and the three tasks: their states and gains as given. -/
def hw (t1 t2 t3 : HTask) : Heap := { hp0 with floor := 0x3F000000, tasks := [(1, t1), (2, t2), (3, t3)], ops := 4 }

/-- The status of a slot on that heap, with the word it takes in x7. -/
def heapRow (i : Instr) (h : Heap) (w : Nat) : Option W64 :=
  xAfter i ((stK {} h).setMe { (stK {} h).me with xs := [(2, 15), (7, BitVec.ofNat 64 w)] }) 63 |>.bind fun _ =>
    match exec i ((stK {} h).setMe { (stK {} h).me with xs := [(2, 15), (7, BitVec.ofNat 64 w)] }) with
    | .next t => some ((drained t).me.getX 9)
    | _ => none

theorem test_worked_heap : let q (g : Nat) : HTask := { g := g, st := 1 }
    let r (p : Nat) : HTask := { st := 2, p := p }
    heapRow (.hpop 9 2 2) (hw (q 0x40400000) (q 0x40400000) (q 0x3F800000)) 0 = some 0x0000404000000001 ∧
    heapRow (.hadj 9 2 7) (hw (r 0) (q 0x40400000) (q 0x3F800000)) (0x40200000 * 65536 + 3) = some 0x11 ∧
    heapRow (.hadj 9 2 7) (hw (r 0) (q 0x40400000) (q 0x40600000)) (0x3E800000 * 65536 + 1) = some 0x22 ∧
    heapRow (.hpop 9 2 2) (hw (r 0x3E800000) (q 0x40400000) (q 0x40600000)) 0 = some 0x0000406000000003 ∧
    heapRow (.hmax 9 2 7) (hw (r 0x3E800000) (q 0x40400000) (r 0)) (0x3F400000 * 65536 + 1) = some 0x22 ∧
    heapRow (.hdone 9 2 7) (hw (r 0x3F400000) (q 0x40400000) (r 0)) 1 = some 0x12 ∧
    heapRow (.hdone 9 2 7) (hw (q 0x3F400000) (q 0x40400000) (r 0)) 3 = some 0x02 ∧
    heapRow (.hpop 9 2 2) (hw (q 0x3F400000) (q 0x40400000) {}) 0 = some 0x0000404000000002 := by decide +kernel

/-! ## Traps and the return from them -/

/-- The worked fault of R105: v1 due at 204 goes to the shadow buffer with k = 2 at the count of 202, SHADOW = 1, and eret at te lands it
at te + 2. -/
theorem test_worked_fault : let c : Ctx := { me0 with ccount := 202, pending := [{ wr := .v 1 9, due := 204, seq := 0 }], trapVec := 0x40 }
    let u := ((st.setMe c).trapEntry 0 { cause := 7 } 0x100).me
    u.shadow = [{ wr := .v 1 9, k := 2 }] ∧ u.trapShadow = true ∧ u.trapWrem = 0 ∧ u.trapPc = 0x100 ∧ u.pc = 0x40 ∧ u.live = .run ∧
    u.eret.pc = 0x100 ∧ (u.eret.ticks 0 1).getV 1 ≠ 9 ∧ (u.eret.ticks 0 2).getV 1 = 9 := by decide +kernel

/-- An unallocated register number is ILLEGAL FUNCTION; eret at level 0 is PRIV, REASON 1 (R249, Table 21). -/
theorem test_csr_levels : trapOf (.csrr 9 0x7FF) st = some (0x01, 2, 0) ∧ (trapOf (.eret) (st.setMe { me0 with priv := 0 })) = some (0x03, 1, 0) := by
  decide +kernel

/-- One step is one bundle: its slot takes effect, and the pc moves on by the four slots (R60, R88). -/
theorem test_step_bundle : (match step (stAt 0x00000000) with
    | .next t => t.me.pc == 0x10000000010 && t.me.ccount == 1
    | _ => false) = true := by decide +kernel

/-- An unallocated major traps ILLEGAL MAJOR (R75). -/
theorem test_step_illegal : (match step (stAt (0x37 * 2 ^ 21)) with
    | .next t => t.me.trapCause == 1 && t.me.trapInfo == 1 && t.me.trapPc == 0x10000000000
    | _ => false) = true := by decide +kernel

/-- brk traps with its B field in REASON (Table 21, R106). -/
theorem test_step_brk : (match step (stAt 0x4B) with
    | .next t => t.me.trapCause == 0x13 && t.me.trapInfo == 9
    | _ => false) = true := by decide +kernel

end Sys2Proof.Tests
end

section
/-! SUPPORT. Register accesses as steps of their own (O45): the guards of their writes, and the fields that their reads clear. -/
namespace Sys2Proof.Machine

/-! ## Units that the laws of the state do not read back -/

@[simp] theorem State.port_setPort (s : State) (p : Nat) (x : IczPort) : (s.setPort p x).port p = x := mget_mset_same _ _ _ _
@[simp] theorem State.pb_setPb (s : State) (p : Nat) (b : PostBox) : (s.setPb p b).pb p = b := mget_mset_same _ _ _ _

/-! ## Fields that a read clears (R4) -/

@[simp] theorem State.ceCnt_clearCe (s : State) (cl : Nat) : ((s.clearCe cl).cl cl).ceCnt = 0 := by simp [State.clearCe]
@[simp] theorem State.merrStat_clearMerr (s : State) (cl : Nat) : ((s.clearMerr cl).cl cl).merrStat = 0 := by simp [State.clearMerr]
@[simp] theorem State.rtcMisses_clearRtc (s : State) (cl : Nat) : ((s.clearRtc cl).cl cl).rtcMisses = 0 := by simp [State.clearRtc]
/-- PMCNT is packed from the five counters that its read clears (R372). -/
@[simp] theorem State.pmcnt_clearPm (s : State) (p : Nat) : ((s.clearPm p).pb p).pmcnt = 0 := by simp [State.clearPm, PostBox.pmcnt]

/-! ## Writes that a condition guards -/

/-- LSPWR has two registers; a write that names another leaves the state (R267, R290). -/
theorem exec_lspwrWrite (s : State) (cl j : Nat) (v : W64) :
    exec (.lspwrWrite cl j v) s = .next (if j < 2 then s.setLsPwr cl j v else s) := rfl

/-- SLRET is an expert register (R290, R381). -/
theorem exec_slretRetire (s : State) (cl ch : Nat) :
    exec (.slretRetire cl ch) s = .next (if s.expert cl then s.retire cl ch else s) := rfl

theorem exec_slretGo (s : State) (cl : Nat) : exec (.slretGo cl) s = .next (if s.expert cl then s.retireGo cl else s) := rfl

/-! ## Reads that clear: the value before the read is the reply, and the field then reads 0 -/

theorem exec_cecntRead (s : State) (cl : Nat) :
    ∃ t, exec (.cecntRead cl) s = .next t ∧ t.reply = .value (s.cl cl).ceCnt ∧ (t.cl cl).ceCnt = 0 :=
  ⟨_, rfl, rfl, s.ceCnt_clearCe cl⟩

theorem exec_merrstatRead (s : State) (cl : Nat) :
    ∃ t, exec (.merrstatRead cl) s = .next t ∧ t.reply = .value (s.cl cl).merrStat ∧ (t.cl cl).merrStat = 0 :=
  ⟨_, rfl, rfl, s.merrStat_clearMerr cl⟩

/-- RTCSTAT holds MISSES, which saturates and is cleared, above the number of entries, which stays (R345). -/
theorem exec_rtcstatRead (s : State) (cl : Nat) :
    ∃ t, exec (.rtcstatRead cl) s = .next t ∧ (t.cl cl).rtcMisses = 0 ∧
      t.reply = .value (min (s.cl cl).rtcMisses (2 ^ 32 - 1) * 2 ^ 32 + (s.cl cl).rtc.length) :=
  ⟨_, rfl, s.rtcMisses_clearRtc cl, rfl⟩

theorem exec_iczerrRead (s : State) (p : Nat) :
    ∃ t, exec (.iczerrRead p) s = .next t ∧ t.reply = .value (min (s.port p).fail (2 ^ 32 - 1)) ∧ (t.port p).fail = 0 :=
  ⟨_, rfl, rfl, congrArg IczPort.fail (s.port_setPort p { s.port p with fail := 0 })⟩

theorem exec_pmcntRead (s : State) (p : Nat) :
    ∃ t, exec (.pmcntRead p) s = .next t ∧ t.reply = .value (s.pb p).pmcnt ∧ (t.pb p).pmcnt = 0 :=
  ⟨_, rfl, rfl, s.pmcnt_clearPm p⟩

/-- Settles O45: the guarded writes by their guards, the reads that clear by the lemma of each, and every other write is the one update
that the model makes of the context, cluster, queue, heap or seal it names. -/
theorem registerStepResults : Obligations.RegisterStepResults := by
  intro s cl
  refine ⟨fun g v => rfl, fun g => rfl, fun lo hi => rfl, fun j v hj => ?lspwr, fun v => rfl, fun ch on => ?retire,
    fun ch off => ?retireLocked, fun on => ?go, fun off => ?goLocked, fun site q v => rfl, fun site h => rfl, fun site h v => rfl,
    fun g => rfl, rfl, exec_cecntRead s cl, exec_merrstatRead s cl, exec_rtcstatRead s cl, exec_iczerrRead s, exec_pmcntRead s,
    fun site => rfl, fun site => rfl⟩
  case lspwr => rw [exec_lspwrWrite, if_pos hj]
  case retire => rw [exec_slretRetire, if_pos on]
  case retireLocked => simp [exec_slretRetire, off]
  case go => rw [exec_slretGo, if_pos on]
  case goLocked => simp [exec_slretGo, off]

end Sys2Proof.Machine
end

section
/-! SUPPORT. The checks that every slot shares (R99 steps 1 to 3), with the queue register that a slot peeks, and that the meaning of
every slot that has them begins with them (O54). -/
namespace Sys2Proof.Machine

/-! ## The gate, with a peeked register -/

theorem gate_peek_pass {lvl : Nat} {srcs dsts : List Reg} {s : State} {peek : Option Reg} (k : State → Out)
    (h : s.issueCheck lvl srcs dsts peek = none) : gate lvl srcs dsts s k peek = k s := by rw [gate, h]

theorem gate_peek_trap {lvl : Nat} {srcs dsts : List Reg} {s : State} {peek : Option Reg} {t : Trap} (k : State → Out)
    (h : s.issueCheck lvl srcs dsts peek = some (.trap t)) : gate lvl srcs dsts s k peek = s.trapNow t := by rw [gate, h]

theorem gate_peek_hold {lvl : Nat} {srcs dsts : List Reg} {s : State} {peek : Option Reg} {c : CState} (k : State → Out)
    (h : s.issueCheck lvl srcs dsts peek = some (.hold c)) : gate lvl srcs dsts s k peek = s.hold c := by rw [gate, h]

/-- The level is checked first (R99 step 1). -/
theorem issueCheck_peek_level {s : State} {lvl : Nat} (srcs dsts : List Reg) (peek : Option Reg) (h : s.me.priv < lvl) :
    s.issueCheck lvl srcs dsts peek = some (.trap { cause := 0x03, reason := 1 }) := by rw [State.issueCheck, if_pos h]

/-- What the shared checks find where the scoreboard finds a source pending, at a sufficient level (R94, R99 step 2). -/
theorem issueCheck_scoreboard {s : State} {lvl : Nat} {srcs : List Reg} (dsts : List Reg) (peek : Option Reg) {stop : Stop}
    (hl : lvl ≤ s.me.priv) (h : s.scoreboard srcs = some stop) : s.issueCheck lvl srcs dsts peek = some stop := by
  rw [State.issueCheck, if_neg (Nat.not_lt.mpr hl), h, Option.some_or]

/-- With SBMODE.MODE = 1 and a source pending, the scoreboard stops the slot at some pending source (R94). -/
theorem scoreboard_of_pending {s : State} {srcs : List Reg} {r : Reg} (hr : r ∈ srcs) (hm : s.myCl.sbMode = true)
    (hq : r.isQueue = false) (hp : s.me.isPending r = true) :
    ∃ x ∈ srcs, s.me.isPending x = true ∧ s.scoreboard srcs = some (.trap { cause := 0x0B, reason := x.file, detail := x.ix }) := by
  have found : (srcs.find? fun r => !r.isQueue && s.me.isPending r).isSome := by
    rw [List.find?_isSome]
    exact ⟨r, hr, by rw [hq, hp]; rfl⟩
  obtain ⟨x, hx⟩ := Option.isSome_iff_exists.mp found
  have hxp := List.find?_some hx
  rw [Bool.and_eq_true] at hxp
  exact ⟨x, List.mem_of_find?_eq_some hx, hxp.2, by rw [State.scoreboard, if_pos hm, hx]; rfl⟩

/-! ## Every slot begins with the gate of its shape -/

/-- A slot whose shared checks pass does what follows its gate. (The second argument is `fun _ => rfl` for a given slot: the gate is what
its meaning begins with.) -/
theorem exec_of_ready {i : Instr} {s : State} {k : State → Out} (ready : Ready i s)
    (e : ∀ s, exec i s = gate (shape i).level (shape i).srcs (shape i).dsts s k) : exec i s = k s := by rw [e, gate_pass k ready]

/-- Major 0x3F is ext's alone (R65). -/
theorem ext_major {h : BitVec 21} {w : Nat} (hw : encode (.ext h) = some w) : bits w 21 6 = 0x3F := by
  have e : w = 0x07E00000 + h.toNat := (Option.some.inj hw).symm
  have := h.isLt
  unfold bits; omega

/-- The meaning of a slot of the encoding is the gate of its shape before a continuation, but for the slots that check nothing and those
whose level is their register's. -/
theorem exec_eq_gate {i : Instr} {w : Nat} (hw : encode i = some w) (hext : bits w 21 6 ≠ 0x3F) (hnop : i ≠ .nop)
    (hcsr : ∀ d n, i ≠ .csrr d n ∧ i ≠ .csrw d n) :
    ∃ k, ∀ s, exec i s = gate (shape i).level (shape i).srcs (shape i).dsts s k (shape i).peek := by
  cases i
  case nop => exact absurd rfl hnop
  case csrr d n => exact absurd rfl (hcsr d n).1
  case csrw d n => exact absurd rfl (hcsr d n).2
  case ext h => exact absurd (ext_major hw) hext
  case vqpk d q p => exact ⟨_, fun s => by rw [shape, Nat.mod_eq_of_lt q.isLt]; rfl⟩
  -- an agent's step has no word
  all_goals cases hw
  all_goals exact ⟨_, fun s => rfl⟩

/-- Settles O54: a slot's meaning is its gate before a continuation, and the gate decides by the shared checks. -/
theorem sharedChecks : Obligations.SharedChecks := by
  intro s i w hw hext hnop hcsr
  obtain ⟨k, hk⟩ := exec_eq_gate hw hext hnop hcsr
  refine ⟨fun t ht => ?_, fun c hc => ?_, fun hl => ?_, fun r hr hl hm hq hp => ?_⟩
  · rw [hk, gate_peek_trap k ht]
  · rw [hk, gate_peek_hold k hc]
  · rw [hk, gate_peek_trap k (issueCheck_peek_level _ _ _ hl)]
  · obtain ⟨x, hx, hxp, hs⟩ := scoreboard_of_pending hr hm hq hp
    exact ⟨x, hx, hxp, by rw [hk, gate_peek_trap k (issueCheck_scoreboard _ _ hl hs)]⟩

end Sys2Proof.Machine
end

section
/-! SUPPORT. The state right after reset (O52). -/
namespace Sys2Proof.Machine

theorem State.agendaOk_reset : State.reset.agendaOk := fun _ h => nomatch h

/-- Of the conditions of a context that starts, c0 alone reads 1 (R10). -/
theorem getC_default (n : Nat) : ({} : Ctx).getC n = decide (n = 0) := by
  have h : (0 : BitVec 8).getLsbD n = false := BitVec.getLsbD_zero
  rw [Ctx.getC, h, Bool.or_false]
  rfl

/-- s0 reads 0, and so does every other register of a context that starts (R9, R10). -/
theorem getX_default (n : Nat) : ({} : Ctx).getX n = 0 := ite_self 0

/-- TRAPCAUSE is packed from fields that are all 0 (R106). -/
theorem trapcause_default : ({} : Ctx).trapcause = 0 := by decide

/-- No owner is recorded for a resource of any kind (R18). -/
theorem ownerOf_default (k i : Nat) : ({} : Cluster).ownerOf k i = 0 := by
  match k with
  | 0 => rfl
  | 1 => rfl
  | _ + 2 => rfl

/-- Settles O52: no unit is listed after reset, so that each has its file's reset value, whose fields evaluate. -/
theorem resetState : Obligations.ResetState := by
  refine ⟨State.memOk_reset, State.agendaOk_reset, fun _ => rfl, rfl, fun g => ?ctx, fun n => ?cl, fun _ _ => rfl, fun _ => ⟨rfl, rfl, rfl⟩⟩
  case ctx =>
    exact ⟨getX_default, fun _ => rfl, fun _ => rfl, getC_default, fun _ => ⟨rfl, rfl, rfl, rfl⟩, fun _ => ⟨rfl, rfl, rfl, rfl⟩,
      rfl, rfl, rfl, rfl, rfl, rfl, trapcause_default, rfl, rfl, rfl, rfl, rfl, rfl, rfl, fun _ => rfl⟩
  case cl =>
    exact ⟨rfl, rfl, rfl, rfl, rfl, rfl, rfl, rfl, rfl, rfl, rfl, rfl, rfl, ownerOf_default, fun _ => ⟨rfl, rfl⟩⟩

end Sys2Proof.Machine
end

section
/-! SUPPORT. The addresses that stop a scalar access before it translates (O8). -/
namespace Sys2Proof.Machine

/-- The trap by which the address alone stops an access of n bytes, in the order of R126. -/
def State.addrStop (s : State) (va : W64) (n : Nat) : Option Trap :=
  if va.toNat % n ≠ 0 then some (alignTrap va n)
  else if va.toNat < lsTop then (if s.myCl.lsOk va.toNat n then none else some (lsboundTrap va))
  else if 2 ^ 48 ≤ va.toNat then some (xlateTrap va 1 3) else none

/-- Bits [63:48] of an address are not 0 just where it is 2^48 or above. -/
theorem highBits_iff (va : W64) : fld va 48 16 ≠ 0 ↔ 2 ^ 48 ≤ va.toNat := by
  have := va.isLt
  unfold fld bits
  omega

/-- An address of 2^48 or above does not translate, whatever the tables hold (R286). -/
theorem translate_highBits {s : State} {va : W64} (h : 2 ^ 48 ≤ va.toNat) (cl : Nat) (a : Agent) (eng user : Bool) (acc : Acc) :
    s.translate cl a eng user va acc = .error (xlateTrap va 1 3) := by
  rw [State.translate, if_pos ((highBits_iff va).mpr h)]

/-- The access of the issuing context fails by the stop of its address, whatever the kind of access. -/
theorem access_addrStop {s : State} {va : W64} {n : Nat} {w : Trap} (h : s.addrStop va n = some w) (acc : Acc) :
    s.access va n acc = .error w := by
  unfold State.addrStop at h
  unfold State.access State.addrCheck
  split at h
  · rename_i unaligned
    rw [if_pos unaligned, Option.some.inj h]
  · rename_i aligned
    rw [if_neg aligned]
    split at h
    · rename_i window
      rw [if_pos window]
      split at h
      · cases h
      · rename_i out
        rw [Option.some.inj h]
        exact if_neg out
    · rename_i above
      rw [if_neg above]
      split at h
      · rename_i high
        rw [translate_highBits high, Option.some.inj h]
      · cases h

@[simp] theorem readX_addrStop (s : State) (m : Nat) (va : W64) (n : Nat) : (s.readX m).2.addrStop va n = s.addrStop va n := by
  rw [State.addrStop, readX_myCl]
  rfl

/-- A load whose address stops traps. -/
theorem loadTo_addrStop {s : State} {z : Nat} {va : W64} {w : Trap} (h : s.addrStop va (szBytes z) = some w) (d : Nat) (k : State → State) :
    s.loadTo z va d k = s.trapNow w := by rw [State.loadTo, access_addrStop h]

/-- Settles O8: after the pops of their sources, ld, st and ldx make an access that their address stops. -/
theorem addressTraps : Obligations.AddressTraps := by
  refine ⟨fun s d r u z o w hw => ⟨fun ready => ?ld, fun ready => ?st⟩, fun s s' x y d a b z w hread hw ready => ?ldx⟩
  case ld =>
    rw [exec_of_ready ready fun _ => rfl]
    exact loadTo_addrStop hw _ _
  case st =>
    have stop := (readX_addrStop s d.toNat _ _).trans hw
    rw [exec_of_ready ready fun _ => rfl]
    simp only [readX_areg, readX_imm, access_addrStop stop]
  case ldx =>
    cases hread
    have stop := ((readX_addrStop _ b.toNat _ _).trans (readX_addrStop s a.toNat _ _)).trans hw
    rw [exec_of_ready ready fun _ => rfl]
    exact loadTo_addrStop stop _ _

end Sys2Proof.Machine
end

section
/-! SUPPORT. Transfers between files and the queue operations (O17). -/
namespace Sys2Proof.Machine

/-! ## Checks in sequence -/

@[simp] theorem andThen_none (s : State) (k : State → Out) : andThen none s k = k s := rfl
@[simp] theorem andThen_trap (t : Trap) (s : State) (k : State → Out) : andThen (some (.trap t)) s k = s.trapNow t := rfl
@[simp] theorem andThen_hold (c : CState) (s : State) (k : State → Out) : andThen (some (.hold c)) s k = s.hold c := rfl

/-- Where the other checks pass, those of a slot that peeks find what the peek finds. -/
theorem issueCheck_peek {lvl : Nat} {srcs dsts : List Reg} {s : State} (h : s.issueCheck lvl srcs dsts = none) (r : Reg) :
    s.issueCheck lvl srcs dsts (some r) = s.peekStop r := by
  unfold State.issueCheck at h ⊢
  split at h
  · cases h
  · rename_i level
    simp only [Option.or_eq_none_iff] at h
    obtain ⟨scoreboard, pops, -, pushes⟩ := h
    rw [if_neg level, scoreboard, pops, pushes]
    simp

/-- A slot that peeks, whose other shared checks pass, goes on as its peek finds. -/
theorem exec_of_ready_peek {i : Instr} {s : State} {k : State → Out} {r : Reg} (ready : Ready i s)
    (e : ∀ s, exec i s = gate (shape i).level (shape i).srcs (shape i).dsts s k (some r)) : exec i s = andThen (s.peekStop r) s k := by
  rw [e, gate, issueCheck_peek ready]
  rfl

/-! ## The queue registers by their number -/

@[simp] theorem present_vq (c : Ctx) (q : Nat) : c.present (.v (28 + q)) = (c.getVQ q).ents.length := by
  rw [Ctx.present, Nat.add_sub_cancel_left]
@[simp] theorem isBound_vq (c : Ctx) (q : Nat) : c.isBound (.v (28 + q)) = (c.getVQ q).bound.isSome := by
  rw [Ctx.isBound, Nat.add_sub_cancel_left]
@[simp] theorem qDetail_vq (q : Nat) : (Reg.v (28 + q)).qDetail = 92 + q := by rw [Reg.qDetail]; omega
@[simp] theorem present_q (c : Ctx) (q : Nat) : c.present (.x (48 + q)) = (c.getQ q).ents.length := by
  rw [Ctx.present, Nat.add_sub_cancel_left]
@[simp] theorem isBound_q (c : Ctx) (q : Nat) : c.isBound (.x (48 + q)) = (c.getQ q).bound.isSome := by
  rw [Ctx.isBound, Nat.add_sub_cancel_left]
@[simp] theorem qDetail_q (q : Nat) : (Reg.x (48 + q)).qDetail = 48 + q := rfl

/-- A peek of a register that holds an entry passes (R159, R168). -/
theorem peekStop_present {s : State} {r : Reg} (h : s.me.present r ≠ 0) : s.peekStop r = none := if_neg h

/-- A peek of an empty register: a hold where it is bound, else QUNDER (R14). -/
theorem peekStop_empty {s : State} {r : Reg} (h : s.me.present r = 0) (k : State → Out) : andThen (s.peekStop r) s k =
    if s.me.isBound r then s.hold .block else s.trapNow { cause := 0x08, reason := 1, detail := r.qDetail } := by
  rw [State.peekStop, if_pos h]
  split <;> rfl

theorem clearStop_bound {s : State} {r : Reg} (h : s.me.isBound r = true) :
    clearStop s r = some (.trap { cause := 0x09, reason := 2, detail := r.qDetail }) := if_pos h
theorem clearStop_unbound {s : State} {r : Reg} (h : s.me.isBound r = false) : clearStop s r = none := by rw [clearStop, h]; rfl

/-! ## Clearing a queue register -/

/-- A vector queue register emptied: the others stand. -/
theorem clearVQ_spec (s : State) (q : Nat) :
    let t := s.setMe ({ s.me with vqs := mset s.me.vqs q { s.me.getVQ q with ents := [] } }.markDirty (92 + q))
    (t.me.getVQ q).ents = [] ∧ t.mem = s.mem ∧ ∀ k, k ≠ q → t.me.getVQ k = s.me.getVQ k := by
  intro t
  have e : t.me = { s.me with vqs := mset s.me.vqs q { s.me.getVQ q with ents := [] } }.markDirty (92 + q) := State.me_setMe _ _
  rw [e]
  exact ⟨congrArg VQueue.ents (mget_mset_same _ _ _ _), rfl, fun k h => mget_mset_ne _ _ _ _ _ h⟩

/-- A scalar queue register emptied: the others stand. -/
theorem clearQ_spec (s : State) (q : Nat) :
    let t := s.setMe ({ s.me with qs := mset s.me.qs q { s.me.getQ q with ents := [] } }.markDirty (48 + q))
    (t.me.getQ q).ents = [] ∧ t.mem = s.mem ∧ ∀ k, k ≠ q → t.me.getQ k = s.me.getQ k := by
  intro t
  have e : t.me = { s.me with qs := mset s.me.qs q { s.me.getQ q with ents := [] } }.markDirty (48 + q) := State.me_setMe _ _
  rw [e]
  exact ⟨congrArg XQueue.ents (mget_mset_same _ _ _ _), rfl, fun k h => mget_mset_ne _ _ _ _ _ h⟩

/-! ## The queue operations -/

theorem exec_vqpk_present {s : State} {d : BitVec 5} {q : BitVec 2} {p : BitVec 3} {v : V2048} {vs : List V2048}
    (ready : Ready (.vqpk d q p) s) (h : (s.me.getVQ q.toNat).ents = v :: vs) :
    exec (.vqpk d q p) s = .next (s.fix 2 (.v d.toNat (lanes (s.me.getP p.toNat) (s.oldV d.toNat) fun i => lane v i))) := by
  rw [exec_of_ready_peek ready fun _ => rfl, peekStop_present (by simp [h]), andThen_none, h]
  rfl

theorem exec_qpk_present {s : State} {d : BitVec 6} {q : BitVec 4} {v : W64} {vs : List W64}
    (ready : Ready (.qpk d q) s) (h : (s.me.getQ q.toNat).ents = v :: vs) : exec (.qpk d q) s = .next (s.fix 1 (.x d.toNat v)) := by
  rw [exec_of_ready_peek ready fun _ => rfl, peekStop_present (by simp [h]), andThen_none, h]
  rfl

theorem exec_vqclr_unbound {s : State} {q : BitVec 2} (ready : Ready (.vqclr q) s) (h : (s.me.getVQ q.toNat).bound = none) :
    ∃ t, exec (.vqclr q) s = .next t ∧ (t.me.getVQ q.toNat).ents = [] ∧ t.mem = s.mem ∧
      ∀ k, k ≠ q.toNat → t.me.getVQ k = s.me.getVQ k := by
  rw [exec_of_ready ready fun _ => rfl, clearStop_unbound (by simp [h]), andThen_none]
  exact ⟨_, rfl, clearVQ_spec s q.toNat⟩

theorem exec_qclr_unbound {s : State} {q : BitVec 4} (ready : Ready (.qclr q) s) (h : (s.me.getQ q.toNat).bound = none) :
    ∃ t, exec (.qclr q) s = .next t ∧ (t.me.getQ q.toNat).ents = [] ∧ t.mem = s.mem ∧
      ∀ k, k ≠ q.toNat → t.me.getQ k = s.me.getQ k := by
  rw [exec_of_ready ready fun _ => rfl, clearStop_unbound (by simp [h]), andThen_none]
  exact ⟨_, rfl, clearQ_spec s q.toNat⟩

/-- Settles O17: each slot's meaning, its gate and its further check passed. -/
theorem queueAndTransferResults : Obligations.QueueAndTransferResults := by
  intro s d a b p q dx qx act old
  refine ⟨fun ready => ?vfill, fun ready => ?vins, fun x s1 ready hread => ?vext, fun ready => ?vlaneid,
    fun v vs ready h => exec_vqpk_present ready h, fun ready h => ?vqpkEmpty, fun ready => ?vqcnt, exec_vqclr_unbound,
    fun b ready h => ?vqclrBound, fun v vs ready h => exec_qpk_present ready h, fun ready h => ?qpkEmpty, fun ready => ?qcnt,
    exec_qclr_unbound, fun b ready h => ?qclrBound, fun y s1 bx ready hread => ?qbind, fun ready => ?qunbind⟩
  case vfill => rw [exec_of_ready ready fun _ => rfl, BitVec.ofNat_toNat]
  case vins => rw [exec_of_ready ready fun _ => rfl, BitVec.ofNat_toNat]
  case vext =>
    have hx : s1.me.getX b.toNat = s.me.getX b.toNat := by rw [← readV_getX s a.toNat, hread]
    rw [exec_of_ready ready fun _ => rfl, BitVec.ofNat_toNat, hread, ← hx]
  case vlaneid => rw [exec_of_ready ready fun _ => rfl]
  case vqpkEmpty =>
    rw [exec_of_ready_peek ready fun _ => rfl, peekStop_empty (by simp [h]), isBound_vq, qDetail_vq]
  case vqcnt => rw [exec_of_ready ready fun _ => rfl, present_vq]
  case vqclrBound =>
    rw [exec_of_ready ready fun _ => rfl, clearStop_bound (by simp [h]), andThen_trap, qDetail_vq]
  case qpkEmpty =>
    rw [exec_of_ready_peek ready fun _ => rfl, peekStop_empty (by simp [h]), isBound_q, qDetail_q]
  case qcnt => rw [exec_of_ready ready fun _ => rfl, present_q]
  case qclrBound =>
    rw [exec_of_ready ready fun _ => rfl, clearStop_bound (by simp [h]), andThen_trap, qDetail_q]
  case qbind =>
    rw [exec_of_ready ready fun _ => rfl, hread]
    refine ⟨fun closed => ?_, fun opened taken => ?_, fun opened free bound => ?_, fun opened free unbound busy => ?_,
      fun opened free unbound idle => ?_⟩
    · simp only [closed]; rfl
    · simp only [opened, taken]; rfl
    · simp only [opened, free, bound]; rfl
    · simp only [opened, free, unbound, if_pos busy]; rfl
    · simp only [opened, free, unbound, if_neg idle]; rfl
  case qunbind => rw [exec_of_ready ready fun _ => rfl]

end Sys2Proof.Machine
end

section
/-! SUPPORT. The commands of the matrix engines as they issue (O19): their checks pass, and what enters a queue. -/
namespace Sys2Proof.Machine

/-! ## Ownership and room, and that reading a source leaves them -/

@[simp] theorem readX_holds (s : State) (n k i : Nat) : (s.readX n).2.holds k i = s.holds k i := by
  rw [State.holds, readX_myCl, readX_cur]; rfl
@[simp] theorem readV_holds (s : State) (n k i : Nat) : (s.readV n).2.holds k i = s.holds k i := by
  rw [State.holds, readV_myCl, readV_cur]; rfl

theorem needAcc_held {s : State} {k : Nat} (h : s.holds 1 k = true) : s.needAcc k = none := if_pos h
theorem needAcc_free {s : State} {k : Nat} (h : s.holds 1 k = false) : s.needAcc k = some (.trap (opslotTrap 1 k)) := by
  rw [State.needAcc, h]; rfl
theorem needSlot_held {s : State} {k : Nat} (h : s.holds 0 k = true) : s.needSlot k = none := if_pos h
theorem tlRoom_of_room {s : State} {t n : Nat} (h : (s.tl s.cur t).wraps n = false) : s.tlRoom t n = none := by
  rw [State.tlRoom, h]; rfl
theorem queueFull_of_room {s : State} {e : Nat} (h : (s.myCl.engine e).queue.length < 8) : s.queueFull e = none := if_neg (by omega)

/-- No operand slot of an mma's repetitions is missing where each is held (R96). -/
theorem needSlot_reps {s : State} {reps : List (Nat × Nat)} (h : ∀ p ∈ reps, s.holds 0 p.1 = true ∧ s.holds 0 p.2 = true) :
    (reps.flatMap fun r => [r.1, r.2]).findSome? s.needSlot = none := by
  rw [List.findSome?_eq_none_iff]
  intro k hk
  rw [List.mem_flatMap] at hk
  obtain ⟨p, hp, hk⟩ := hk
  obtain ⟨first, second⟩ := h p hp
  simp only [List.mem_cons, List.not_mem_nil, or_false] at hk
  rcases hk with rfl | rfl
  · exact needSlot_held first
  · exact needSlot_held second

/-! ## mstat's word (R183) -/

theorem bn_eq_one (b : Bool) : bn b = 1 ↔ b = true := by cases b <;> decide

/-- The fields of the word that mstat samples: queue length, format pair, whether a repetition is accepted, drain buffers, owner. -/
theorem statWord_fields {n na nb d own : Nat} (b : Bool) (hn : n ≤ 8) (ha : na ≤ 8) (hb : nb ≤ 8) (ho : own ≤ 4) :
    let w : W64 := BitVec.ofNat 64 (n + na * 2 ^ 4 + nb * 2 ^ 8 + bn b * 2 ^ 18 + min 2 d * 2 ^ 19 + (own - 1) * 2 ^ 21 +
      bn (own != 0) * 2 ^ 23)
    fld w 0 4 = n ∧ fld w 4 4 = na ∧ fld w 8 4 = nb ∧ (fld w 18 1 = 1 ↔ b = true) ∧ fld w 19 2 = min 2 d ∧ fld w 21 2 = own - 1 ∧
      (fld w 23 1 = 1 ↔ own ≠ 0) := by
  intro w
  have hd : min 2 d ≤ 2 := Nat.min_le_left 2 d
  have busy : bn b ≤ 1 := by cases b <;> decide
  have owned : bn (own != 0) ≤ 1 := by cases (own != 0) <;> decide
  have hown : own ≠ 0 ↔ bn (own != 0) = 1 := by rw [bn_eq_one]; simp
  rw [← bn_eq_one b, hown]
  have e : w.toNat = n + na * 2 ^ 4 + nb * 2 ^ 8 + bn b * 2 ^ 18 + min 2 d * 2 ^ 19 + (own - 1) * 2 ^ 21 + bn (own != 0) * 2 ^ 23 :=
    (BitVec.toNat_ofNat _ _).trans (Nat.mod_eq_of_lt (by omega))
  simp only [fld, bits, e]
  generalize bn b = x at *
  generalize bn (own != 0) = z at *
  generalize min 2 d = u at *
  refine ⟨?_, ?_, ?_, ?_, ?_, ?_, ?_⟩ <;> omega

/-- An engine has accepted a repetition where it runs a command with one. -/
theorem busy_iff (run : Option EngRun) :
    (match run with
      | some r => r.cur.isSome
      | none => false) = true ↔ ∃ r, run = some r ∧ r.cur.isSome = true := by
  cases run <;> simp

/-- Settles O19. -/
theorem engineCommandsIssue : Obligations.EngineCommandsIssue := by
  intro s s' v t k m y e q d hread eng room
  have holds' : ∀ j i, s'.holds j i = s.holds j i := fun j i => by rw [← readX_holds s y.toNat, hread]
  have myCl' : s'.myCl = s.myCl := by rw [← readX_myCl s y.toNat, hread]
  refine ⟨fun ready held => ?mfmt, fun ready free => ?mfmtFree, fun x ready => ?mstat, fun ready hroom nums => ?mzero,
    fun ready free => ?mzeroFree, fun ready hroom nums bind => ?mdrain, fun c hc ready hroom => ?rowRead,
    fun x w s1 s2 ready hroom hx hw => ?mwrv, fun a b ready hroom nums rpt slots => ?mma,
    fun c hc rec_ v s' s2 hread ready held nums useRec span qroom => ?mst⟩
  case mfmt =>
    rw [exec_of_ready ready fun _ => rfl, hread]
    simp only [holds', held]
    rfl
  case mfmtFree =>
    rw [exec_of_ready ready fun _ => rfl, hread]
    simp only [holds', free]
    rfl
  case mstat =>
    rw [exec_of_ready ready fun _ => rfl]
    refine ⟨_, rfl, fun hn ha hb ho => ?_⟩
    rw [← busy_iff]
    exact statWord_fields _ hn ha hb ho
  case mzero =>
    obtain ⟨qroom, held⟩ := hroom
    rw [exec_of_ready ready fun _ => rfl, needAcc_held held, andThen_none, tlRoom_of_room nums, andThen_none, queueFull_of_room qroom]
    rfl
  case mzeroFree => rw [exec_of_ready ready fun _ => rfl, needAcc_free free]; rfl
  case mdrain =>
    obtain ⟨qroom, held⟩ := hroom
    rw [exec_of_ready ready fun _ => rfl, bind, andThen_none, needAcc_held held, andThen_none, tlRoom_of_room nums, andThen_none,
      queueFull_of_room qroom]
    rfl
  case rowRead =>
    obtain ⟨qroom, held⟩ := hroom
    have held' : s'.holds 1 k.toNat = true := (holds' _ _).trans held
    have qroom' : (s'.myCl.engine (k.toNat / 4)).queue.length < 8 := by rw [myCl']; exact qroom
    simp only [List.mem_cons, List.not_mem_nil, or_false] at hc
    rcases hc with rfl | rfl
    all_goals
      rw [exec_of_ready ready fun _ => rfl, hread]
      simp only [needAcc_held held', andThen_none, queueFull_of_room qroom']
      rfl
  case mwrv =>
    obtain ⟨qroom, held⟩ := hroom
    have held2 : s2.holds 1 k.toNat = true := by
      rw [show s2 = (s1.readX y.toNat).2 by rw [hw], readX_holds, show s1 = (s.readV d.toNat).2 by rw [hx], readV_holds, held]
    have qroom2 : (s2.myCl.engine (k.toNat / 4)).queue.length < 8 := by
      rw [show s2 = (s1.readX y.toNat).2 by rw [hw], readX_myCl, show s1 = (s.readV d.toNat).2 by rw [hx], readV_myCl]
      exact qroom
    rw [exec_of_ready ready fun _ => rfl]
    simp only [hx, hw, needAcc_held held2, andThen_none, queueFull_of_room qroom2]
    rfl
  case mma =>
    obtain ⟨qroom, held⟩ := hroom
    rw [exec_of_ready ready fun _ => rfl, needAcc_held held, andThen_none, needSlot_reps slots, andThen_none, tlRoom_of_room nums,
      andThen_none, rpt, andThen_none, queueFull_of_room qroom]
    rfl
  case mst =>
    simp only [List.mem_cons, List.not_mem_nil, or_false] at hc
    rcases hc with rfl | rfl | rfl
    all_goals
      rw [exec_of_ready ready fun _ => rfl]
      dsimp only at useRec ⊢
      rw [hread]
      simp only [needAcc_held held, andThen_none, useRec, tlRoom_of_room nums, span]
      rw [queueFull_of_room qroom]
      rfl

end Sys2Proof.Machine
end

section
/-! SUPPORT. The operand store (O20): claims and releases, and the loads that enter the loader. -/
namespace Sys2Proof.Machine

/-- Two scalar sources read, one after the other. -/
theorem read2_eq {s s' : State} {x y : W64} {a b : BitVec 6} (h : s.read2 a b = (x, y, s')) :
    ∃ s1, s.readX a.toNat = (x, s1) ∧ s1.readX b.toNat = (y, s') := by
  cases h
  exact ⟨_, rfl, rfl⟩

theorem needSlot_free {s : State} {k : Nat} (h : s.holds 0 k = false) : s.needSlot k = some (.trap (opslotTrap 2 k)) := by
  rw [State.needSlot, h]; rfl

/-- A claim meets another's resource where one of its range has an owner that is not the claiming context (R179). -/
theorem claim_conflict_iff (c : Cluster) (kind me : Nat) (is : List Nat) :
    (is.any fun i => c.ownerOf kind i != 0 && c.ownerOf kind i != me) = true ↔
      ∃ i ∈ is, c.ownerOf kind i ≠ 0 ∧ c.ownerOf kind i ≠ me := by simp

/-- Settles O20: the claims by the owners of their range, ostat by the loads before it, and the loads as their checks pass. -/
theorem operandStoreResults : Obligations.OperandStoreResults := by
  intro s s' v w t x y
  refine ⟨fun hread kind is hrange => ⟨fun ready free => ?claimed, fun ready conflict => ?refused, fun ready => ?release⟩,
    fun hread hrange => ⟨fun ready => ?claimBad, fun ready => ?releaseBad⟩,
    fun hread ready => ⟨fun done => ?ostat, fun waits => ?ostatWaits⟩,
    fun hread ready held r s2 useRec nums span => ?oload, fun hread ready held g rc s2 hring useRec fmt width rows cols nums => ?ofill,
    fun hread free => ⟨fun ready => ?oloadFree, fun ready => ?ofillFree⟩⟩
  case claimed =>
    have none_ : (is.any fun i => s'.myCl.ownerOf kind i != 0 && s'.myCl.ownerOf kind i != s'.cur % 4 + 1) = false := by
      rw [← Bool.not_eq_true, claim_conflict_iff]
      rintro ⟨i, hi, owned, other⟩
      exact (free i hi).elim owned other
    rw [exec_of_ready ready fun _ => rfl, hread]
    simp only [hrange, none_]
    rfl
  case refused =>
    rw [exec_of_ready ready fun _ => rfl, hread]
    simp only [hrange, (claim_conflict_iff s'.myCl kind (s'.cur % 4 + 1) is).mpr conflict]
    rfl
  case release =>
    rw [exec_of_ready ready fun _ => rfl, hread]
    simp only [hrange, List.length_filter_eq_length_iff]
  case claimBad =>
    rw [exec_of_ready ready fun _ => rfl, hread]
    simp only [hrange]
  case releaseBad =>
    rw [exec_of_ready ready fun _ => rfl, hread]
    simp only [hrange]
  case ostat =>
    rw [exec_of_ready ready fun _ => rfl, hread]
    simp only [done]
    rfl
  case ostatWaits =>
    have cur' : s'.cur = s.cur := by rw [← readX_cur s y.toNat, hread]
    have mem' : s'.mem = s.mem := by rw [← readX_mem s y.toNat, hread]
    have myCl' : s'.myCl = s.myCl := by rw [← readX_myCl s y.toNat, hread]
    have id' : s'.nextInter = s.nextInter := by
      show s'.me.nextId = s.me.nextId
      rw [← readX_nextId s y.toNat, hread]
    rw [exec_of_ready ready fun _ => rfl, hread]
    simp only [waits]
    refine ⟨_, rfl, mem', (congrArg Cluster.ostats (State.myCl_setMyCl _ _)).trans ?_⟩
    rw [← cur', ← myCl', ← id']
    rfl
  case oload =>
    obtain ⟨s1, hw, hv⟩ := read2_eq hread
    rw [exec_of_ready ready fun _ => rfl]
    simp only [hw, hv, needSlot_held held, andThen_none, useRec, tlRoom_of_room nums, span]
  case ofill =>
    obtain ⟨s1, hw, hv⟩ := read2_eq hread
    rw [exec_of_ready ready fun _ => rfl]
    simp only [hw, hv, needSlot_held held, andThen_none, hring, useRec, tlRoom_of_room nums]
    rw [if_neg (by omega), if_neg (by omega)]
  case oloadFree =>
    obtain ⟨s1, hw, hv⟩ := read2_eq hread
    rw [exec_of_ready ready fun _ => rfl]
    simp only [hw, hv, needSlot_free free, andThen_trap]
    rfl
  case ofillFree =>
    obtain ⟨s1, hw, hv⟩ := read2_eq hread
    rw [exec_of_ready ready fun _ => rfl]
    simp only [hw, hv, needSlot_free free, andThen_trap]
    rfl

end Sys2Proof.Machine
end

section
/-! SUPPORT. The bundle being issued through the performance of accesses: no access of a context changes it. -/
namespace Sys2Proof.Machine

/-! ## The bundle being issued is no part of memory -/

/-- The bundle being issued is the same in both states. -/
def SameIssue (s t : State) : Prop := t.issue = s.issue

theorem SameIssue.setCl {s t : State} (h : SameIssue s t) (n : Nat) (c : Cluster) : SameIssue s (t.setCl n c) := h

theorem SameIssue.trans {s t u : State} (h : SameIssue s t) (k : SameIssue t u) : SameIssue s u := Eq.trans k h

theorem foldl_issue {α : Type} (f : State → α → State) (hf : ∀ s a, (f s a).issue = s.issue) (l : List α) (s : State) :
    (l.foldl f s).issue = s.issue := foldl_keeps (fun t => t.issue = s.issue) f (fun t a h => (hf t a).trans h) l rfl

@[simp] theorem State.wake_issue (s : State) (pa n : Nat) : (s.wake pa n).issue = s.issue := (State.reads_wake s pa n).issue
@[simp] theorem State.correct_issue (s : State) (cl pa n : Nat) : (s.correct cl pa n).issue = s.issue := (State.reads_correct s cl pa n).issue
@[simp] theorem State.logErr_issue (s : State) (cl pa c : Nat) : (s.logErr cl pa c).issue = s.issue := rfl
@[simp] theorem State.logBad_issue (s : State) (cl pa n c : Nat) : (s.logBad cl pa n c).issue = s.issue := (State.reads_logBad s cl pa n c).issue
@[simp] theorem State.readAt_issue (s : State) (cl pa n : Nat) : (s.readAt cl pa n).issue = s.issue := (State.reads_readAt s cl pa n).issue
@[simp] theorem State.drainWq_issue (s : State) (cl ch : Nat) (gone : WqEnt → Bool) : (s.drainWq cl ch gone).issue = s.issue :=
  (State.reads_drainWq s cl ch gone).issue

@[simp] theorem State.readRed_issue (s : State) (cl pa n : Nat) : (s.readRed cl pa n).issue = s.issue := by
  unfold State.readRed
  dsimp only
  split <;> simp

@[simp] theorem State.putWq_issue (s : State) (cl ch r : Nat) (f : WqEnt → WqEnt) : (s.putWq cl ch r f).issue = s.issue := by
  unfold State.putWq
  simp only [State.setCl_issue]
  split
  · split <;> simp
  · rfl

@[simp] theorem State.enqueue_issue (s : State) (pa n m : Nat) : (s.enqueue pa n m).issue = s.issue := by
  unfold State.enqueue
  split
  · refine foldl_issue _ (fun t r => ?_) _ _
    dsimp only
    split <;> simp
  · rfl

@[simp] theorem State.enqueueRed_issue (s : State) (pa n : Nat) : (s.enqueueRed pa n).issue = s.issue := by
  unfold State.enqueueRed
  dsimp only
  split
  · split <;> simp
  · rfl

@[simp] theorem State.healWith_issue (s : State) (pa n : Nat) (sel : Nat → Bool) (who : Option Nat) :
    (s.healWith pa n sel who).issue = s.issue := by
  unfold State.healWith
  extract_lets covers hit whole ws t
  refine foldl_issue _ (fun t w => ?_) ws s
  split <;> rfl

theorem State.unitPut_issue (s : State) (pa mask v : Nat) : (s.unitPut pa mask v).issue = s.issue := by rw [State.unitPut]

@[simp] theorem State.unitsPut_issue (s : State) (pa n mask v : Nat) : (s.unitsPut pa n mask v).issue = s.issue := by
  unfold State.unitsPut
  refine foldl_issue _ (fun t a => ?_) _ _
  extract_lets m
  split
  · rfl
  · exact State.unitPut_issue _ _ _ _

@[simp] theorem State.store_issue (s : State) (pa n v : Nat) (who : Option Nat) : (s.store pa n v who).issue = s.issue := by
  have healed : (s.healFor pa n who).issue = s.issue := by
    unfold State.healFor
    split <;> simp
  unfold State.store
  dsimp only
  split
  · exact healed
  · rw [State.unitsPut_issue, healed]

@[simp] theorem State.storeMask_issue (s : State) (pa n mask v : Nat) : (s.storeMask pa n mask v).issue = s.issue := by
  unfold State.storeMask
  extract_lets t
  have healed : t.issue = s.issue := by
    simp only [t]
    split <;> simp
  split
  · exact healed
  · rw [State.unitsPut_issue, healed]

@[simp] theorem State.perform_issue (s : State) (pa n v : Nat) (who : Option Nat) : (s.perform pa n v who).issue = s.issue := by
  simp [State.perform]

@[simp] theorem State.performRed_issue (s : State) (pa n v : Nat) (who : Option Nat) : (s.performRed pa n v who).issue = s.issue := by
  simp [State.performRed]

/-! ## The lines of the L1 -/

theorem State.sameIssue_writeBack (s : State) (cl : Nat) (l : L1Line) : SameIssue s (s.writeBack cl l) := by
  unfold State.writeBack
  split
  · exact Eq.refl s.issue
  · split
    · exact State.logErr_issue _ _ _ _
    · extract_lets pa lost u t m
      have logged : SameIssue s u := foldl_issue _ (fun _ _ => State.logErr_issue _ _ _ _) _ _
      have corrected : SameIssue s t := by
        simp only [t]
        split
        · exact logged
        · exact logged.trans (State.correct_issue _ _ _ _)
      exact ((corrected.trans (State.wake_issue _ _ _)).trans (State.storeMask_issue _ _ _ _ _)).trans (State.enqueue_issue _ _ _ _)

@[simp] theorem State.writeBack_issue (s : State) (cl : Nat) (l : L1Line) : (s.writeBack cl l).issue = s.issue := s.sameIssue_writeBack cl l

@[simp] theorem State.l1Drop_issue (s : State) (cl line : Nat) : (s.l1Drop cl line).issue = s.issue := rfl
@[simp] theorem State.l1Recent_issue (s : State) (cl : Nat) (l : L1Line) : (s.l1Recent cl l).issue = s.issue := rfl

@[simp] theorem State.wantLine_issue (s : State) (cl line key : Nat) : (s.wantLine cl line key).issue = s.issue := by
  unfold State.wantLine
  dsimp only
  split <;> rfl

@[simp] theorem State.l1Flush_issue (s : State) (cl line : Nat) : (s.l1Flush cl line).issue = s.issue := by
  unfold State.l1Flush
  split <;> simp

theorem State.sameIssue_l1Bring (s : State) (cl line : Nat) : SameIssue s (s.l1Bring cl line) := by
  have read : ∀ (t : State) (pa : Nat), SameIssue s t → SameIssue s (t.readAt cl pa 128) := fun t pa h => h.trans (State.readAt_issue t cl pa 128)
  unfold State.l1Bring
  extract_lets key pa set t u c new
  have flushed : SameIssue s t := by
    simp only [t]
    split
    · exact Eq.refl s.issue
    · split
      · exact State.l1Flush_issue _ _ _
      · exact Eq.refl s.issue
  exact (read _ _ flushed).setCl _ _

@[simp] theorem State.l1Bring_issue (s : State) (cl line : Nat) : (s.l1Bring cl line).issue = s.issue := s.sameIssue_l1Bring cl line

@[simp] theorem State.l1Fill_issue (s : State) (cl line : Nat) : (s.l1Fill cl line).issue = s.issue := by
  unfold State.l1Fill
  split
  · split <;> simp
  · simp

@[simp] theorem State.l1Heal_issue (s : State) (cl line o n : Nat) : (s.l1Heal cl line o n).issue = s.issue := by
  unfold State.l1Heal
  extract_lets a t u c v
  have corrected : t.issue = s.issue := by
    simp only [t]
    split <;> simp
  split
  · have logged : u.issue = t.issue := by
      simp only [u]
      split <;> rfl
    exact logged.trans corrected
  · exact corrected

/-! ## Performing an access -/

@[simp] theorem State.loadVia_issue (s : State) (cl pa n : Nat) : (s.loadVia cl pa n).2.issue = s.issue := by
  have direct : ∀ t : State, (if (t.readAt cl pa n).badAt pa n then (none, (t.readAt cl pa n).logBad cl pa n 1)
      else (some ((t.readAt cl pa n).load pa n), t.readAt cl pa n) : Option Nat × State).2.issue = t.issue := by
    intro t
    split <;> simp
  unfold State.loadVia
  dsimp only
  split
  · exact direct s
  · split
    · exact direct s
    · split
      · split
        · split <;> simp
        · split <;> simp
      · simp

@[simp] theorem State.storeVia_issue (s : State) (cl pa n v : Nat) : (s.storeVia cl pa n v).issue = s.issue := by
  unfold State.storeVia
  split
  · simp
  · split <;> simp

@[simp] theorem State.amoAt_issue (s : State) (cl pa : Nat) (op : AmoOp) (b d : W64) : (s.amoAt cl pa op b d).2.issue = s.issue := by
  unfold State.amoAt
  extract_lets t u old
  have flushed : t.issue = s.issue := by
    simp only [t]
    split <;> simp
  have read : u.issue = s.issue := by
    simp only [u, State.readRed_issue, flushed]
  split <;> simp [read]

@[simp] theorem State.dropInter_issue (s : State) (g id : Nat) : (s.dropInter g id).issue = s.issue := rfl
@[simp] theorem State.memErr_issue (s : State) (r : MemReq) : (s.memErr r).issue = s.issue := rfl
@[simp] theorem State.answer_issue (s : State) (g id : Nat) (ws : List Wr) (fl : BitVec 5) : (s.answer g id ws fl).issue = s.issue := rfl

@[simp] theorem State.takePart_issue (s : State) (r : MemReq) (put : Option (V2048 → V2048)) : (s.takePart r put).issue = s.issue := by
  unfold State.takePart
  dsimp only
  split
  · rfl
  · split
    · rfl
    · split <;> simp

@[simp] theorem State.logPart_issue (s : State) (r : MemReq) (n : Nat) : (s.logPart r n).issue = s.issue := by
  unfold State.logPart
  dsimp only
  split
  · simp
  · split <;> simp

@[simp] theorem State.addElem_issue (s : State) (r : MemReq) (float : Bool) : (s.addElem r float).issue = s.issue := by
  unfold State.addElem
  dsimp only
  split <;> simp

/-- Performing an access, whatever it is, changes nothing of the bundle being issued. -/
@[simp] theorem State.serve_issue (s : State) (r : MemReq) : (s.serve r).issue = s.issue := by
  unfold State.serve
  dsimp only
  split
  case h_1 => simp
  case h_2 z _ =>
    have read := State.loadVia_issue s (r.ctx / 4) r.pa (szBytes z)
    split <;> rename_i e <;> rw [e] at read <;> simpa using read
  case h_3 op _ =>
    have read := State.amoAt_issue s (r.ctx / 4) r.pa op r.arg r.arg2
    split <;> rename_i e <;> rw [e] at read <;> simpa using read
  case h_4 => split <;> simp
  case h_5 => split <;> simp
  case h_6 => simp

@[simp] theorem State.drainOwn_issue (s : State) (g : Nat) (sel : Nat → Bool) : (s.drainOwn g sel).issue = s.issue := by
  unfold State.drainOwn
  dsimp only
  split
  · rfl
  · rw [State.setCtx_issue]
    exact foldl_issue _ State.serve_issue _ _

@[simp] theorem State.drainMine_issue (s : State) : s.drainMine.issue = s.issue := State.drainOwn_issue _ _ _

end Sys2Proof.Machine
end

section
/-! SUPPORT. The slots of level SUPER (O31): what revoking a token leaves, and what each slot does. -/
namespace Sys2Proof.Machine

/-! ## Revoking tokens -/

/-- u differs from s in messages and in the states of tokens alone. -/
structure TokensOnly (s u : State) : Prop where
  cur : u.cur = s.cur
  cl : ∀ n, u.cl n = { s.cl n with tokens := (u.cl n).tokens }

theorem TokensOnly.refl (s : State) : TokensOnly s s := ⟨rfl, fun _ => rfl⟩

theorem TokensOnly.trans {s t u : State} (h : TokensOnly s t) (k : TokensOnly t u) : TokensOnly s u :=
  ⟨k.cur.trans h.cur, fun n => by rw [k.cl n, h.cl n]⟩

theorem TokensOnly.setTokens (s : State) (n : Nat) (ts : Map Token) : TokensOnly s (s.setCl n { s.cl n with tokens := ts }) := by
  refine ⟨rfl, fun m => ?_⟩
  by_cases e : m = n
  · subst e; rw [State.cl_setCl]
  · rw [State.cl_setCl_ne _ _ _ _ e]

theorem TokensOnly.of_clusters {s u : State} (cur : u.cur = s.cur) (h : u.clusters = s.clusters) : TokensOnly s u :=
  ⟨cur, fun n => by unfold State.cl; rw [h]⟩

theorem TokensOnly.send (s : State) (src dst : Nat) (act : MsgDo) : TokensOnly s (s.send src dst act) := by
  unfold State.send
  extract_lets p q small m close bag id t u v more
  split
  · have opened : TokensOnly s t := by
      simp only [t]
      split <;> exact TokensOnly.of_clusters rfl rfl
    split <;> exact opened.trans (TokensOnly.of_clusters rfl rfl)
  · exact TokensOnly.of_clusters rfl rfl

theorem TokensOnly.settleTokens (s : State) (n : Nat) : TokensOnly s (s.settleTokens n) := by
  unfold State.settleTokens
  dsimp only
  split
  · exact TokensOnly.setTokens _ _ _
  · exact TokensOnly.refl s

theorem TokensOnly.foldl {α : Type} (f : State → α → State) (hf : ∀ s a, TokensOnly s (f s a)) (l : List α) (s : State) :
    TokensOnly s (l.foldl f s) := foldl_keeps (TokensOnly s) f (fun t a h => h.trans (hf t a)) l (TokensOnly.refl s)

theorem TokensOnly.revoke (s : State) (n ix : Nat) : TokensOnly s (s.revoke n ix) := by
  unfold State.revoke
  dsimp only
  split
  · exact TokensOnly.refl s
  · exact ((TokensOnly.setTokens s n _).trans (TokensOnly.foldl _ (fun t d => TokensOnly.send _ _ _ _) _ _)).trans
      (TokensOnly.settleTokens _ _)

/-- The cluster with the translations that meet a range dropped, and the tokens over it listed. -/
def Cluster.dropRange (c : Cluster) (a n : Nat) : Cluster :=
  let keep (e : TlbEnt) : Bool := !meets (e.vpn * 2 ^ pageBits e.level) (2 ^ pageBits e.level) a n
  { c with tlb := c.tlb.filter keep, engTlb := c.engTlb.filter keep, tlbInv := c.tlbInv ++ c.tokensOver a n }

/-- An invalidation drops the range in its cluster, and of the rest changes tokens and messages alone. -/
theorem State.invTlb_spec (s : State) (n a len : Nat) : TokensOnly (s.setCl n ((s.cl n).dropRange a len)) (s.invTlb n a len) :=
  TokensOnly.foldl _ (fun t k => TokensOnly.revoke t n (k % 1024)) _ _

/-- What the own cluster is after an invalidation in it, but for its tokens. -/
theorem State.myCl_invTlb (s : State) (a len : Nat) :
    ∃ ts, (s.invTlb s.clNo a len).myCl = { s.myCl.dropRange a len with tokens := ts } := by
  have h := s.invTlb_spec s.clNo a len
  have no : (s.invTlb s.clNo a len).clNo = s.clNo := congrArg (· / 4) h.cur
  refine ⟨((s.invTlb s.clNo a len).cl s.clNo).tokens, ?_⟩
  unfold State.myCl
  rw [no]
  exact (h.cl s.clNo).trans (by rw [State.cl_setCl])

theorem mem_dropRange_entries {c : Cluster} {a n : Nat} {e : TlbEnt} (h : e ∈ (c.dropRange a n).tlb ++ (c.dropRange a n).engTlb) :
    e ∈ c.tlb ++ c.engTlb ∧ meets (e.vpn * 2 ^ pageBits e.level) (2 ^ pageBits e.level) a n = false := by
  simpa [Cluster.dropRange, ← or_and_right] using h

theorem mem_tokensOver {c : Cluster} {a n ix : Nat} {t : Token} (h : (ix, t) ∈ c.tokens) (used : t.state ≠ 0)
    (overlap : meets t.va t.size a n = true) : t.gen * 1024 + ix ∈ c.tokensOver a n := by
  refine List.mem_map.mpr ⟨(ix, t), List.mem_filter.mpr ⟨h, ?_⟩, rfl⟩
  simp [used, overlap]

theorem read2_myCl {s s' : State} {x y : W64} {a b : BitVec 6} (h : s.read2 a b = (x, y, s')) : s'.myCl = s.myCl := by
  obtain ⟨s1, hx, hy⟩ := read2_eq h
  rw [← readX_myCl s a.toNat, hx, ← readX_myCl s1 b.toNat, hy]

theorem exec_tlbinv {s s' : State} {x y : W64} {a b : BitVec 6} (hread : s.read2 a b = (x, y, s')) (ready : Ready (.tlbinv a b) s) :
    exec (.tlbinv a b) s = .next (s'.invTlb s'.clNo x.toNat y.toNat) := by
  obtain ⟨s1, hx, hy⟩ := read2_eq hread
  rw [exec_of_ready ready fun _ => rfl, hx]
  simp only [hy]

theorem revoking_iff (c : Cluster) (k : Nat) :
    c.revoking k = true ↔ (mget {} c.tokens (k % 1024)).state = 2 ∧ (mget {} c.tokens (k % 1024)).gen = k / 1024 := by
  simp [Cluster.revoking]

/-! ## segenter -/

@[simp] theorem State.putBlock_issue (s : State) (cl pa v : Nat) : (s.putBlock cl pa v).issue = s.issue := by
  unfold State.putBlock
  rw [State.perform_issue]
  split <;> simp

theorem State.putConsts_issue {s u : State} {cl : Nat} {a : Agent} {va : Nat} {ps : List Nat} (h : s.putConsts cl a va ps = .ok u) :
    u.issue = s.issue := by
  induction ps generalizing s va with
  | nil => cases h; rfl
  | cons p ps ih =>
    rw [State.putConsts] at h
    split at h
    · cases h
    · rw [ih h, State.putBlock_issue]

/-- The state after the segment's checks and its constants pass: its bounds are among what takes effect when the bundle has issued. -/
def State.enterSegment (u : State) (o : SegOk) : State :=
  let u := u.noteVerified u.clNo o.hdr
  let u := { u with issue := { u.issue with late := u.issue.late ++ [Late.lsBounds o.hdr.lsBase o.hdr.lsLim] } }
  (u.setMe { u.me with seg := o.segment, fetchBuf := none }).transfer (BitVec.ofNat 64 o.hdr.entry)

theorem exec_segenter {s v u : State} {x : W64} {a : BitVec 6} {o : SegOk} (hread : s.readX a.toNat = (x, v)) (ready : Ready (.segenter a) s)
    (hseg : v.drainMine.segCheck v.drainMine.clNo (v.drainMine.agentOf v.drainMine.cur) v.drainMine.myCl.ti.slot x.toNat = .ok o)
    (hput : v.drainMine.putConsts v.drainMine.clNo (v.drainMine.agentOf v.drainMine.cur) o.hdr.const o.consts = .ok u) :
    exec (.segenter a) s = .next (u.enterSegment o) := by
  rw [exec_of_ready ready fun _ => rfl, hread]
  simp only [hseg, hput]
  rfl

/-! ## The obligation -/

/-- Settles O31: each slot's meaning past its gate; an invalidation by what revoking leaves of a cluster. -/
theorem privilegedSlotResults : Obligations.PrivilegedSlotResults := by
  intro s s' x y a b t
  refine ⟨fun hread ready => ?tlbinv, fun hread ready => ?listed, fun ready free => ?tlbsync, fun k hk revoked gen ready => ?waits,
    fun hread ready => ?rtcinv, fun ready => ?rtcsync, fun ready => ?eret,
    fun hread ready => ⟨fun o u hseg hput => ?segenter, fun r d hseg => ?segTrap⟩,
    fun hread ready room => ⟨fun aligned => ?pgmap, fun kind mis => ?pgmapTrap⟩⟩
  case tlbinv =>
    obtain ⟨ts, hts⟩ := s'.myCl_invTlb x.toNat y.toNat
    refine ⟨_, exec_tlbinv hread ready, fun e he => ?_⟩
    rw [hts] at he
    rw [← read2_myCl hread]
    exact mem_dropRange_entries he
  case listed =>
    obtain ⟨ts, hts⟩ := s'.myCl_invTlb x.toNat y.toNat
    refine ⟨_, exec_tlbinv hread ready, fun ix t ht used overlap => ?_⟩
    rw [hts, read2_myCl hread]
    exact List.mem_append_right _ (mem_tokensOver ht used overlap)
  case tlbsync =>
    have none_ : s.myCl.tlbInv.any s.myCl.revoking = false := by
      simp only [List.any_eq_false, revoking_iff]
      exact fun k hk => free k hk _ rfl
    rw [exec_of_ready ready fun _ => rfl]
    simp only [none_]
    rfl
  case waits =>
    have some_ : s.myCl.tlbInv.any s.myCl.revoking = true := List.any_eq_true.mpr ⟨k, hk, (revoking_iff _ k).mpr ⟨revoked, gen⟩⟩
    rw [exec_of_ready ready fun _ => rfl]
    simp only [some_]
    rfl
  case rtcinv =>
    obtain ⟨s1, hx, hy⟩ := read2_eq hread
    have mem' : s'.mem = s.mem := by rw [← readX_mem s a.toNat, hx, ← readX_mem s1 b.toNat, hy]
    have run : exec (.rtcinv a b) s = .next (s'.setMyCl { s'.myCl with recCache := s'.myCl.recCache.filter fun e =>
        !(y == 0 || decide ((e.1 + 2 ^ 16 - fld x 0 16) % 2 ^ 16 < y.toNat)) }) := by
      rw [exec_of_ready ready fun _ => rfl, hx]
      simp only [hy]
    refine ⟨_, run, mem', fun zero => ?_, fun e he => ?_⟩
    · rw [State.myCl_setMyCl]
      simp [zero]
    · rw [State.myCl_setMyCl, read2_myCl hread] at he
      simp only [List.mem_filter, Bool.not_eq_true', Bool.or_eq_false_iff, decide_eq_false_iff_not] at he
      exact ⟨he.1, he.2.2⟩
  case rtcsync => exact exec_of_ready ready fun _ => rfl
  case eret => exact exec_of_ready ready fun _ => rfl
  case segenter =>
    have issue : u.issue = s.issue := by
      rw [State.putConsts_issue hput, State.drainMine_issue, ← readX_issue s a.toNat, hread]
    refine ⟨_, exec_segenter hread ready hseg hput, rfl, ?_, ?_, ?_⟩
    · exact congrArg Ctx.seg (State.me_setMe _ _)
    · exact congrArg Ctx.fetchBuf (State.me_setMe _ _)
    · exact congrArg (·.late ++ [.lsBounds o.hdr.lsBase o.hdr.lsLim]) issue
  case segTrap =>
    rw [exec_of_ready ready fun _ => rfl, hread]
    simp only [hseg]
  case pgmap =>
    obtain ⟨s1, hx, hy⟩ := read2_eq hread
    have pass : ¬ (fld y 7 2 < 3 ∧ x.toNat % 2 ^ pageBits (fld y 7 2) ≠ 0) := by
      rintro ⟨kind, mis⟩
      rcases aligned with h | h
      · omega
      · exact mis h
    rw [exec_of_ready ready fun _ => rfl, hx]
    simp only [hy, tlRoom_of_room room, andThen_none, if_neg pass]
  case pgmapTrap =>
    obtain ⟨s1, hx, hy⟩ := read2_eq hread
    rw [exec_of_ready ready fun _ => rfl, hx]
    simp only [hy, tlRoom_of_room room, andThen_none, if_pos (And.intro kind mis)]

end Sys2Proof.Machine
end

section
/-! SUPPORT. System registers (O30): the checks of an access, and what a late write leaves. -/
namespace Sys2Proof.Machine

/-! ## The checks of an access -/

theorem csrTrap_pass {s : State} {n lvl : Nat} (ha : csrAllocated n = true) (hl : lvl ≤ s.me.priv) : csrTrap s n lvl = none := by
  rw [csrTrap, ha, if_neg (by decide), if_neg (Nat.not_lt.mpr hl)]

theorem csrTrap_unallocated {s : State} {n : Nat} (lvl : Nat) (ha : csrAllocated n = false) :
    csrTrap s n lvl = some { cause := 0x01, reason := 2 } := by
  rw [csrTrap, ha, if_pos (by decide)]

theorem csrTrap_level {s : State} {n lvl : Nat} (ha : csrAllocated n = true) (hl : s.me.priv < lvl) :
    csrTrap s n lvl = some { cause := 0x03, addr := BitVec.ofNat 64 n, reason := 2 } := by
  rw [csrTrap, ha, if_neg (by decide), if_pos hl]

theorem exec_csrr (d : BitVec 6) (n : BitVec 12) (s : State) : exec (.csrr d n) s = execCsrr d n s := rfl
theorem exec_csrw (d : BitVec 6) (n : BitVec 12) (s : State) : exec (.csrw d n) s = execCsrw d n s := rfl

theorem exec_csrr_pass {s : State} {d : BitVec 6} {n : BitVec 12} (h : csrTrap s n.toNat (csrReadLevel n.toNat) = none) :
    exec (.csrr d n) s = gate 0 [] [.x d.toNat] s fun s => .next ((s.fix 1 (.x d.toNat (s.csrValue n.toNat))).csrClear n.toNat) := by
  rw [exec_csrr]
  delta execCsrr
  rw [h]

theorem exec_csrr_trap {s : State} {d : BitVec 6} {n : BitVec 12} {t : Trap} (h : csrTrap s n.toNat (csrReadLevel n.toNat) = some t) :
    exec (.csrr d n) s = s.trapNow t := by
  rw [exec_csrr]
  delta execCsrr
  rw [h]

theorem exec_csrw_pass {s : State} {d : BitVec 6} {n : BitVec 12} (h : csrTrap s n.toNat (csrWriteLevel n.toNat) = none) :
    exec (.csrw d n) s = gate 0 [.x d.toNat] [] s fun s =>
      let (v, s) := s.readX d.toNat
      .next { s with issue := { s.issue with late := s.issue.late ++ [.csr n.toNat v] } } := by
  rw [exec_csrw]
  delta execCsrw
  rw [h]

theorem exec_csrw_trap {s : State} {d : BitVec 6} {n : BitVec 12} {t : Trap} (h : csrTrap s n.toNat (csrWriteLevel n.toNat) = some t) :
    exec (.csrw d n) s = s.trapNow t := by
  rw [exec_csrw]
  delta execCsrw
  rw [h]

/-! ## LSBASE, LSLIM and PTROOT -/

/-- Waking banks moves no bound. -/
theorem State.wakeLs_bounds (s : State) (cl x n : Nat) :
    ((s.wakeLs cl x n).cl cl).lsBase = (s.cl cl).lsBase ∧ ((s.wakeLs cl x n).cl cl).lsLim = (s.cl cl).lsLim := by
  refine foldl_keeps (fun t => (t.cl cl).lsBase = (s.cl cl).lsBase ∧ (t.cl cl).lsLim = (s.cl cl).lsLim) _ (fun t b h => ?_) _ ⟨rfl, rfl⟩
  dsimp only
  split
  · exact h
  · rw [State.cl_setCl]
    exact h

/-- The bounds of a cluster just written are those given, of at most 48 banks (R31). -/
theorem State.setLsBounds_bounds (s : State) (cl lo hi : Nat) : (s.setLsBounds cl lo hi).cur = s.cur ∧
    ((s.setLsBounds cl lo hi).cl cl).lsBase = min lo 48 ∧ ((s.setLsBounds cl lo hi).cl cl).lsLim = min hi 48 := by
  refine foldl_keeps (fun t => t.cur = s.cur ∧ (t.cl cl).lsBase = min lo 48 ∧ (t.cl cl).lsLim = min hi 48) _
    (fun t b ⟨hc, hb, hl⟩ => ?_) _ ⟨rfl, by rw [State.cl_setCl], by rw [State.cl_setCl]⟩
  obtain ⟨kb, kl⟩ := t.wakeLs_bounds cl (b * 131072) 1
  exact ⟨(t.reads_wakeLs cl (b * 131072) 1).cur.trans hc, kb.trans hb, kl.trans hl⟩

theorem State.setLsBounds_mine (s : State) (lo hi : Nat) :
    (s.setLsBounds s.clNo lo hi).myCl.lsBase = min lo 48 ∧ (s.setLsBounds s.clNo lo hi).myCl.lsLim = min hi 48 := by
  obtain ⟨cur, base, lim⟩ := s.setLsBounds_bounds s.clNo lo hi
  have no : (s.setLsBounds s.clNo lo hi).clNo = s.clNo := congrArg (· / 4) cur
  rw [State.myCl, no]
  exact ⟨base, lim⟩

/-- A written PTROOT is in place, and no translation of the cluster is cached (R287). -/
theorem State.setPtroot_mine (s : State) (v : W64) :
    (s.setPtroot s.clNo v).myCl.ptroot = BitVec.ofNat 64 (fld v 14 34 * 2 ^ 14 + fld v 0 1) ∧
      (s.setPtroot s.clNo v).myCl.tlb = [] ∧ (s.setPtroot s.clNo v).myCl.engTlb = [] := by
  obtain ⟨ts, h⟩ := (s.setMyCl { s.myCl with ptroot := BitVec.ofNat 64 (fld v 14 34 * 2 ^ 14 + fld v 0 1) }).myCl_invTlb 0 0
  rw [State.myCl_setMyCl] at h
  have e : (s.setPtroot s.clNo v).myCl = _ := h
  rw [e]
  exact ⟨rfl, List.filter_eq_nil_iff.mpr fun _ _ => by simp [meets], List.filter_eq_nil_iff.mpr fun _ _ => by simp [meets]⟩

theorem State.reads_wakeGoverned (s : State) (cl : Nat) : Reads s (s.wakeGoverned cl) :=
  Reads.foldl _ (fun _ _ => State.reads_readySet _ _ _) _ _

/-! ## Late writes -/

/-- A number of the latency table names a register that keeps its value. -/
theorem State.landLate_table (s : State) (v : W64) {n : Nat} (lo : 0x080 ≤ n) (hi : n < 0x100) : s.landLate (.csr n v) = s := by
  show s.csrWrite n v = s
  rw [State.csrWrite, if_neg (by omega), if_pos (by omega)]
  unfold State.writeMemReg
  dsimp only
  split
  case h_8 => rfl
  all_goals omega

/-- The format pair of an mfmt that is its context's only one is the engine's when it lands (R173). -/
theorem State.landLate_mfmt (s : State) (e na nb : Nat) (free : s.me.fmts = []) :
    ∃ q, ((s.landLate (.mfmt e na nb)).landFmts s.cur).myCl.engine e = { s.myCl.engine e with na := na, nb := nb, queue := q } := by
  have ctx : (s.landLate (.mfmt e na nb)).ctx s.cur =
      { s.me with fmts := [(e, na, nb, s.myCl.cycle + min 255 (1 + Config.physSlack 0))] } :=
    (State.ctx_setCtx _ _ _).trans (by rw [free]; rfl)
  unfold State.landFmts
  dsimp only
  rw [ctx, if_neg (by simp)]
  exact ⟨_, (congrArg (Cluster.engine · e) (State.cl_setCl _ _ _)).trans (mget_mset_same _ _ _ _)⟩

/-- Settles O30: the access by its checks, and each late write by the field it sets. -/
theorem systemRegisterAccess : Obligations.SystemRegisterAccess := by
  refine ⟨fun s s' v d n => ⟨fun ha hl ready => ?_, fun ha hl ready hread => ?_, fun ha => ⟨?_, ?_⟩, fun ha hl => ?_, fun ha hl => ?_⟩,
    fun s v => ?late, fun s e na nb free => ?mfmt, fun s l lo hi => ?_⟩
  · exact (exec_csrr_pass (csrTrap_pass ha hl)).trans (gate_pass _ ready)
  · rw [exec_csrw_pass (csrTrap_pass ha hl), gate_pass _ ready]
    simp only [hread]
  · exact exec_csrr_trap (csrTrap_unallocated _ ha)
  · exact exec_csrw_trap (csrTrap_unallocated _ ha)
  · exact exec_csrr_trap (csrTrap_level ha hl)
  · exact exec_csrw_trap (csrTrap_level ha hl)
  case late =>
    refine ⟨congrArg Ctx.fctl (State.me_setMe _ _), congrArg Ctx.vflags (State.me_setMe _ _), congrArg Ctx.ppriv (State.me_setMe _ _),
      congrArg Ctx.trapCause (State.me_setMe _ _), congrArg Ctx.trapWrem (State.me_setMe _ _), fun discard => ?discard,
      congrArg Ctx.trapPc (State.me_setMe _ _), congrArg Ctx.trapAddr (State.me_setMe _ _), congrArg Ctx.trapInfo (State.me_setMe _ _),
      congrArg Ctx.trapVec (State.me_setMe _ _), congrArg Ctx.stkSpill (State.me_setMe _ _), congrArg Ctx.ckptBase (State.me_setMe _ _),
      congrArg Ctx.dirty (State.me_setMe _ _), s.setLsBounds_mine _ _, (s.setLsBounds_mine _ _).symm, ?sbMode,
      congrArg Cluster.recBase (State.myCl_setMyCl _ _), congrArg Cluster.recLim (State.myCl_setMyCl _ _), s.setPtroot_mine v,
      fun open_ => ?expert, fun shut => ?shut, fun above => ?marks, fun w1 => ?saveFail, congrArg Cluster.clSave (State.myCl_setMyCl _ _),
      congrArg Ctx.wqSel (State.me_setMe _ _), congrArg Ctx.hpSel (State.me_setMe _ _), fun w1 => ?rtcDrop, congrArg Ctx.iczSel (State.me_setMe _ _),
      congrArg Ctx.ksSel (State.me_setMe _ _), congrArg Ctx.resSel (State.me_setMe _ _), congrArg Site.sealHdr (State.site_setSite _ _ _),
      congrArg Site.sealSlot (State.site_setSite _ _ _), congrArg Site.sealPar (State.site_setSite _ _ _),
      congrArg Ctx.pmSel (State.me_setMe _ _), ?readOnly, fun n lo hi => s.landLate_table v lo hi⟩
    case discard =>
      refine (congrArg Ctx.shadow (State.me_setMe _ _)).trans ?_
      rw [Ctx.setTrapcause, if_pos discard]
    case sbMode =>
      rw [show (s.landLate (.csr 0x042 v)).myCl.sbMode = (fld v 0 1 == 1) from congrArg Cluster.sbMode (State.myCl_setMyCl _ _), beq_iff_eq]
    case expert =>
      have power : s.landLate (.csr 0x104 v) = _ := if_pos open_
      have hammer : s.landLate (.csr 0x115 v) = _ := if_pos open_
      have bag : s.landLate (.csr 0x310 v) = _ := if_pos open_
      refine ⟨?_, ?_, ?_, ?_, fun above => ?_⟩
      · beta_reduce
        rw [power, State.myCl_setMyCl]
      · beta_reduce
        rw [power, State.myCl_setMyCl]
      · beta_reduce
        rw [hammer, State.myCl_setMyCl]
      · beta_reduce
        rw [bag]
        exact congrArg Site.mbWait (State.site_setSite _ _ _)
      · have marks : s.landLate (.csr 0x114 v) = _ := if_pos (by rw [open_, decide_eq_true above]; rfl)
        beta_reduce
        rw [marks, State.myCl_setMyCl]
        exact ⟨rfl, rfl⟩
    case shut =>
      have closed : (!s.expert s.clNo) = true := by rw [shut]; rfl
      have notOpen : ¬ s.expert s.clNo = true := by rw [shut]; decide
      have none_ (p : Bool) : ¬ (s.expert s.clNo && p) = true := by rw [shut]; exact Bool.false_ne_true
      simp only [List.forall_mem_cons]
      exact ⟨if_pos closed, if_pos closed, if_neg notOpen, if_pos closed, if_neg (none_ _), if_neg notOpen, if_neg notOpen, if_neg (none_ _),
        fun n h => absurd h List.not_mem_nil⟩
    case marks => exact if_neg (by rw [decide_eq_false (Nat.not_lt.mpr above), Bool.and_false]; exact Bool.false_ne_true)
    case saveFail =>
      have cleared : s.landLate (.csr 0x201 v) = _ := if_pos w1
      beta_reduce
      rw [cleared, State.myCl_setMyCl]
    case rtcDrop =>
      have dropped : s.landLate (.csr 0x309 v) = _ := if_pos w1
      have cluster : (s.dropRtc s.clNo).myCl = { s.myCl with rtc := [], replicas := [] } := State.myCl_setMyCl _ _
      beta_reduce
      rw [dropped, cluster]
      exact ⟨rfl, rfl⟩
    case readOnly =>
      simp only [List.forall_mem_cons]
      exact ⟨rfl, rfl, rfl, rfl, rfl, rfl, rfl, rfl, rfl, rfl, rfl, rfl, rfl, rfl, rfl, rfl, rfl, rfl, rfl, rfl, rfl, rfl, rfl, rfl, rfl, rfl,
        fun n h => absurd h List.not_mem_nil⟩
  case mfmt =>
    obtain ⟨q, landed⟩ := s.landLate_mfmt e na nb free
    refine ⟨rfl, rfl, ?_, ?_⟩ <;> rw [landed]
  · exact ⟨congrArg Ctx.phase ((State.reads_wakeGoverned _ _).me.trans (State.me_setMe _ _)), s.setLsBounds_mine lo hi⟩

end Sys2Proof.Machine
end

section
/-! SUPPORT. Fixed-latency landings (O57): what a cycle of a context in which nothing is late lands, and what that leaves of a register. -/
namespace Sys2Proof.Machine

/-! ## One landing -/

/-- A landing write changes at most the register files and the dirty bits. -/
theorem Ctx.land_keeps {α : Type} (f : Ctx → α) (c : Ctx) (w : Wr)
    (h : ∀ xs vs ps cs qs vqs d, f { c with xs := xs, vs := vs, ps := ps, cs := cs, qs := qs, vqs := vqs, dirty := d } = f c) :
    f (c.land w) = f c := by
  cases w <;> unfold Ctx.land Ctx.markDirty <;> dsimp only <;> split_ifs <;>
    exact h _ _ _ _ _ _ _

@[simp] theorem Ctx.land_pending (c : Ctx) (w : Wr) : (c.land w).pending = c.pending := Ctx.land_keeps _ c w fun _ _ _ _ _ _ _ => rfl
@[simp] theorem Ctx.land_ccount (c : Ctx) (w : Wr) : (c.land w).ccount = c.ccount := Ctx.land_keeps _ c w fun _ _ _ _ _ _ _ => rfl
@[simp] theorem Ctx.land_inflight (c : Ctx) (w : Wr) : (c.land w).inflight = c.inflight := Ctx.land_keeps _ c w fun _ _ _ _ _ _ _ => rfl
@[simp] theorem Ctx.land_fmts (c : Ctx) (w : Wr) : (c.land w).fmts = c.fmts := Ctx.land_keeps _ c w fun _ _ _ _ _ _ _ => rfl
@[simp] theorem Ctx.land_fctl (c : Ctx) (w : Wr) : (c.land w).fctl = c.fctl := Ctx.land_keeps _ c w fun _ _ _ _ _ _ _ => rfl
@[simp] theorem Ctx.land_vflags (c : Ctx) (w : Wr) : (c.land w).vflags = c.vflags := Ctx.land_keeps _ c w fun _ _ _ _ _ _ _ => rfl

theorem Ctx.getX_land_same (c : Ctx) {n : Nat} (v : W64) (h0 : 0 < n) (h : n < 48) : (c.land (.x n v)).getX n = v := by
  rw [Ctx.land, if_neg (by omega), if_pos h, Ctx.getX, if_neg (by omega)]
  exact mget_mset_same _ _ _ _

theorem Ctx.getX_land_ne (c : Ctx) {w : Wr} {n : Nat} (h : w.reg ≠ some (.x n)) : (c.land w).getX n = c.getX n := by
  cases w with
  | x m v =>
    have ne : n ≠ m := fun e => h (by rw [e]; rfl)
    rw [Ctx.land]
    split_ifs
    · rfl
    · unfold Ctx.getX
      split_ifs
      · rfl
      · exact mget_mset_ne _ _ _ _ _ ne
    · rfl
  | flags => rfl
  | _ => rw [Ctx.land]; split_ifs <;> rfl

theorem Ctx.getV_land_same (c : Ctx) {n : Nat} (v : V2048) (h : n < 28) : (c.land (.v n v)).getV n = v := by
  rw [Ctx.land, if_pos h]
  exact mget_mset_same _ _ _ _

theorem Ctx.getV_land_ne (c : Ctx) {w : Wr} {n : Nat} (h : w.reg ≠ some (.v n)) : (c.land w).getV n = c.getV n := by
  cases w with
  | v m x =>
    have ne : n ≠ m := fun e => h (by rw [e]; rfl)
    rw [Ctx.land]
    split_ifs
    · exact mget_mset_ne _ _ _ _ _ ne
    · rfl
  | flags => rfl
  | _ => rw [Ctx.land]; split_ifs <;> rfl

theorem Ctx.getP_land_same (c : Ctx) {n : Nat} (v : W64) (h0 : 0 < n) : (c.land (.p n v)).getP n = v := by
  rw [Ctx.land, if_neg (by omega), Ctx.getP, if_neg (by omega)]
  exact mget_mset_same _ _ _ _

theorem Ctx.getP_land_ne (c : Ctx) {w : Wr} {n : Nat} (h : w.reg ≠ some (.p n)) : (c.land w).getP n = c.getP n := by
  cases w with
  | p m x =>
    have ne : n ≠ m := fun e => h (by rw [e]; rfl)
    rw [Ctx.land]
    split_ifs
    · rfl
    · unfold Ctx.getP
      split_ifs
      · rfl
      · exact mget_mset_ne _ _ _ _ _ ne
  | flags => rfl
  | _ => rw [Ctx.land]; split_ifs <;> rfl

theorem getLsbD_oneBit {n : Nat} (m : Nat) (h : n < 8) : (BitVec.ofNat 8 (2 ^ m)).getLsbD n = decide (m = n) := by
  rw [BitVec.getLsbD_ofNat, Nat.testBit_two_pow, decide_eq_true h, Bool.true_and]

theorem Ctx.getC_land_same (c : Ctx) {n : Nat} (v : Bool) (h0 : 0 < n) (h : n < 8) : (c.land (.c n v)).getC n = v := by
  rw [Ctx.land, if_neg (by omega), Ctx.getC]
  have nonzero : (n == 0) = false := beq_eq_false_iff_ne.mpr (Nat.ne_of_gt h0)
  cases v
  · simp only [Bool.false_eq_true, if_false, BitVec.getLsbD_and, BitVec.getLsbD_not, getLsbD_oneBit n h, nonzero, decide_true, Bool.not_true,
      Bool.and_false, Bool.or_false]
  · simp only [if_true, BitVec.getLsbD_or, getLsbD_oneBit n h, decide_true, Bool.or_true]

theorem Ctx.getC_land_ne (c : Ctx) {w : Wr} {n : Nat} (h : w.reg ≠ some (.c n)) (hn : n < 8) : (c.land w).getC n = c.getC n := by
  cases w with
  | c m x =>
    have ne : m ≠ n := fun e => h (by rw [e]; rfl)
    rw [Ctx.land]
    split_ifs
    · rfl
    · simp only [Ctx.getC, BitVec.getLsbD_or, getLsbD_oneBit m hn, decide_eq_false ne, Bool.or_false]
    · simp only [Ctx.getC, BitVec.getLsbD_and, BitVec.getLsbD_not, getLsbD_oneBit m hn, decide_eq_false ne, decide_eq_true hn, Bool.not_false,
        Bool.and_true]
  | flags => rfl
  | _ => rw [Ctx.land]; split_ifs <;> rfl

theorem Ctx.getQ_land (c : Ctx) {q : Nat} (v : W64) : ((c.land (.x (48 + q) v)).getQ q).ents = (c.getQ q).ents ++ [v] := by
  rw [Ctx.land, if_neg (by omega), if_neg (by omega), Nat.add_sub_cancel_left]
  exact congrArg XQueue.ents (mget_mset_same _ _ _ _)

theorem Ctx.getVQ_land (c : Ctx) {q : Nat} (v : V2048) : ((c.land (.v (28 + q) v)).getVQ q).ents = (c.getVQ q).ents ++ [v] := by
  rw [Ctx.land, if_neg (by omega), Nat.add_sub_cancel_left]
  exact congrArg VQueue.ents (mget_mset_same _ _ _ _)

/-- Setting flags changes the two flag registers alone. -/
theorem Ctx.orFlags_keeps {α : Type} (f : Ctx → α) (c : Ctx) (fl : BitVec 5) (toV : Bool)
    (h : ∀ a b, f { c with fctl := a, vflags := b } = f c) : f (c.orFlags fl toV) = f c := by
  unfold Ctx.orFlags
  split
  · exact h _ _
  · exact h _ _

@[simp] theorem Ctx.landOne_pending (c : Ctx) (p : Pend) : (c.landOne p).pending = c.pending.erase p :=
  (Ctx.orFlags_keeps Ctx.pending _ _ _ fun _ _ => rfl).trans (Ctx.land_pending _ _)
@[simp] theorem Ctx.landOne_ccount (c : Ctx) (p : Pend) : (c.landOne p).ccount = c.ccount :=
  (Ctx.orFlags_keeps Ctx.ccount _ _ _ fun _ _ => rfl).trans (Ctx.land_ccount _ _)
@[simp] theorem Ctx.landOne_inflight (c : Ctx) (p : Pend) : (c.landOne p).inflight = c.inflight :=
  (Ctx.orFlags_keeps Ctx.inflight _ _ _ fun _ _ => rfl).trans (Ctx.land_inflight _ _)
@[simp] theorem Ctx.landOne_fmts (c : Ctx) (p : Pend) : (c.landOne p).fmts = c.fmts :=
  (Ctx.orFlags_keeps Ctx.fmts _ _ _ fun _ _ => rfl).trans (Ctx.land_fmts _ _)

/-! ## Every due landing -/

/-- Erasing from a list its elements that satisfy p leaves those that do not. -/
theorem diff_filter {α : Type} [BEq α] [LawfulBEq α] (p : α → Bool) (l : List α) : l.diff (l.filter p) = l.filter fun a => !p a := by
  induction l with
  | nil => simp
  | cons a l ih =>
    by_cases h : p a
    · rw [List.filter_cons_of_pos h, List.filter_cons_of_neg (by simp [h]), List.diff_cons, List.erase_cons_head, ih]
    · rw [List.filter_cons_of_neg h, List.filter_cons_of_pos (by simp [h]),
        List.cons_diff_of_not_mem (fun m => h (List.mem_filter.mp m).2), ih]

theorem Ctx.foldl_landOne (ps : List Pend) (c : Ctx) : (ps.foldl Ctx.landOne c).pending = c.pending.diff ps ∧
    (ps.foldl Ctx.landOne c).ccount = c.ccount ∧ (ps.foldl Ctx.landOne c).inflight = c.inflight ∧ (ps.foldl Ctx.landOne c).fmts = c.fmts := by
  induction ps generalizing c with
  | nil => exact ⟨rfl, rfl, rfl, rfl⟩
  | cons p ps ih =>
    obtain ⟨h1, h2, h3, h4⟩ := ih (c.landOne p)
    rw [List.foldl_cons, h1, h2, h3, h4, Ctx.landOne_pending, List.diff_cons]
    exact ⟨rfl, Ctx.landOne_ccount _ _, Ctx.landOne_inflight _ _, Ctx.landOne_fmts _ _⟩

/-- The writes still pending when every due one has landed. -/
theorem Ctx.landDueNow_pending (c : Ctx) :
    (c.dueNow.foldl Ctx.landOne c).pending = c.pending.filter fun p => decide (c.ccount < p.due) := by
  rw [(Ctx.foldl_landOne _ c).1]
  exact (diff_filter _ _).trans (List.filter_congr fun p _ => by rw [← decide_not, decide_eq_decide, Nat.not_le])

/-! ## Cycles in which nothing is late -/

/-- No interlocked result of the context is known, and all that pends has been delivered by cycle now. -/
structure Ctx.Quiet (c : Ctx) (now : Nat) : Prop where
  unknown : ∀ f ∈ c.inflight, f.val = none
  arrived : ∀ p ∈ c.pending, p.arr ≤ now
  formats : ∀ e ∈ c.fmts, e.2.2.2 ≤ now

theorem Ctx.late_eq_false {c : Ctx} {now : Nat} (arrived : ∀ p ∈ c.pending, p.arr ≤ now) (formats : ∀ e ∈ c.fmts, e.2.2.2 ≤ now) :
    c.late now = false := by
  rw [Ctx.late, Bool.or_eq_false_iff, List.any_eq_false, List.any_eq_false]
  refine ⟨fun p hp => ?_, fun e he => ?_⟩
  · rw [decide_eq_true_iff, Nat.not_lt]
    exact arrived p (List.mem_filter.mp hp).1
  · rw [decide_eq_true_iff, Nat.not_lt]
    exact formats e he

theorem Ctx.tryLand_unknown (c : Ctx) {f : Inflight} (h : f.val = none) : c.tryLand f = c :=
  if_neg (by simp [Ctx.canLand, h])

theorem Ctx.foldl_tryLand_unknown (c : Ctx) {fs : List Inflight} (h : ∀ f ∈ fs, f.val = none) : fs.foldl Ctx.tryLand c = c := by
  induction fs with
  | nil => rfl
  | cons f fs ih =>
    rw [List.foldl_cons, Ctx.tryLand_unknown c (h f List.mem_cons_self)]
    exact ih fun g hg => h g (List.mem_cons_of_mem _ hg)

theorem Ctx.landFixed_unknown (ps : List Pend) (c : Ctx) (h : ∀ f ∈ c.inflight, f.val = none) :
    c.landFixed ps = ps.foldl Ctx.landOne c := by
  induction ps generalizing c with
  | nil => rfl
  | cons p ps ih =>
    rw [Ctx.landFixed, Ctx.foldl_tryLand_unknown c fun f hf => h f (List.mem_filter.mp hf).1, List.foldl_cons]
    exact ih _ (by rwa [Ctx.landOne_inflight])

/-- Where no interlocked result is known, what a cycle lands is the fixed-latency results that are due. -/
theorem Ctx.landAll_unknown (c : Ctx) (h : ∀ f ∈ c.inflight, f.val = none) : c.landAll = c.dueNow.foldl Ctx.landOne c := by
  rw [Ctx.landAll, Ctx.landFixed_unknown _ c h]
  refine Ctx.foldl_tryLand_unknown _ ?_
  rwa [(Ctx.foldl_landOne _ c).2.2.1]

/-- A quiet context's cycle lands what its advanced count has reached. -/
theorem Ctx.tick_quiet {c : Ctx} {now : Nat} (q : c.Quiet now) :
    c.tick (now + 1) = { c with ccount := c.ccount + 1 }.dueNow.foldl Ctx.landOne { c with ccount := c.ccount + 1 } := by
  have onTime : Ctx.late { c with ccount := c.ccount + 1 } (now + 1) = false :=
    Ctx.late_eq_false (fun p hp => Nat.le_succ_of_le (q.arrived p hp)) fun e he => Nat.le_succ_of_le (q.formats e he)
  rw [Ctx.tick, onTime, if_neg Bool.false_ne_true]
  exact Ctx.landAll_unknown _ q.unknown

theorem Ctx.tick_quiet_pending {c : Ctx} {now : Nat} (q : c.Quiet now) :
    (c.tick (now + 1)).pending = c.pending.filter fun p => decide (c.ccount + 1 < p.due) := by
  rw [Ctx.tick_quiet q, Ctx.landDueNow_pending]

theorem Ctx.tick_quiet_ccount {c : Ctx} {now : Nat} (q : c.Quiet now) : (c.tick (now + 1)).ccount = c.ccount + 1 := by
  rw [Ctx.tick_quiet q, (Ctx.foldl_landOne _ _).2.1]

theorem Ctx.Quiet.tick {c : Ctx} {now : Nat} (q : c.Quiet now) : (c.tick (now + 1)).Quiet (now + 1) := by
  refine ⟨?_, fun p hp => ?_, ?_⟩
  · rw [Ctx.tick_quiet q, (Ctx.foldl_landOne _ _).2.2.1]
    exact q.unknown
  · rw [Ctx.tick_quiet_pending q] at hp
    exact Nat.le_succ_of_le (q.arrived p (List.mem_filter.mp hp).1)
  · rw [Ctx.tick_quiet q, (Ctx.foldl_landOne _ _).2.2.2]
    exact fun e he => Nat.le_succ_of_le (q.formats e he)

/-! ## What is read of a context over its cycles -/

/-- f is a reading that the count does not enter, and that no landing of ps changes. -/
structure Unmoved {α : Type} (f : Ctx → α) (ps : List Pend) : Prop where
  count : ∀ (d : Ctx) n, f { d with ccount := n } = f d
  land : ∀ q ∈ ps, ∀ d : Ctx, f (d.landOne q) = f d

theorem Unmoved.subset {α : Type} {f : Ctx → α} {ps qs : List Pend} (h : Unmoved f ps) (sub : ∀ q ∈ qs, q ∈ ps) : Unmoved f qs :=
  ⟨h.count, fun q hq => h.land q (sub q hq)⟩

theorem Unmoved.foldl {α : Type} {f : Ctx → α} {ps : List Pend} (h : Unmoved f ps) (c : Ctx) : f (ps.foldl Ctx.landOne c) = f c := by
  induction ps generalizing c with
  | nil => rfl
  | cons p ps ih =>
    rw [List.foldl_cons, ih (h.subset fun q hq => List.mem_cons_of_mem _ hq), h.land p List.mem_cons_self]

/-- A reading that no pending write moves stays as it is. -/
theorem ticks_unmoved {α : Type} {f : Ctx → α} (k : Nat) {c : Ctx} {now : Nat} (q : c.Quiet now) (h : Unmoved f c.pending) :
    f (c.ticks now k) = f c := by
  induction k generalizing c now with
  | zero => rfl
  | succ k ih =>
    have left : Unmoved f (c.tick (now + 1)).pending := h.subset fun p hp => by
      rw [Ctx.tick_quiet_pending q] at hp
      exact (List.mem_filter.mp hp).1
    have due : Unmoved f { c with ccount := c.ccount + 1 }.dueNow := h.subset fun p hp => (List.mem_filter.mp hp).1
    rw [Ctx.ticks, ih q.tick left, Ctx.tick_quiet q, due.foldl, h.count]

/-- A reading that the last pending write p changes by g, and no other: it changes in the cycle whose count reaches p's. -/
theorem ticks_landing {α : Type} {f : Ctx → α} {g : α → α} {ps : List Pend} {p : Pend} (h : Unmoved f ps)
    (lands : ∀ d : Ctx, f (d.landOne p) = g (f d)) (k : Nat) {c : Ctx} {now : Nat} (q : c.Quiet now) {qs : List Pend}
    (pend : c.pending = qs ++ [p]) (sub : ∀ q ∈ qs, q ∈ ps) (early : c.ccount < p.due) :
    f (c.ticks now k) = if c.ccount + k < p.due then f c else g (f c) := by
  induction k generalizing c now qs with
  | zero => rw [if_pos (by omega)]; rfl
  | succ k ih =>
    have count : (c.tick (now + 1)).ccount = c.ccount + 1 := Ctx.tick_quiet_ccount q
    have left := Ctx.tick_quiet_pending q
    have due : { c with ccount := c.ccount + 1 }.dueNow = qs.filter (fun p => decide (p.due ≤ c.ccount + 1)) ++
        [p].filter fun p => decide (p.due ≤ c.ccount + 1) := (congrArg (List.filter _) pend).trans (List.filter_append _ _)
    have others : Unmoved f (qs.filter fun p => decide (p.due ≤ c.ccount + 1)) := h.subset fun r hr => sub r (List.mem_filter.mp hr).1
    rw [pend, List.filter_append] at left
    rw [Ctx.ticks]
    by_cases reached : p.due ≤ c.ccount + 1
    · -- p lands in this cycle, and what stays pending are others
      rw [List.filter_singleton, decide_eq_false (by omega), cond_false, List.append_nil] at left
      rw [List.filter_singleton, decide_eq_true reached, cond_true] at due
      have rest : Unmoved f (c.tick (now + 1)).pending := h.subset fun r hr => by
        rw [left] at hr
        exact sub r (List.mem_filter.mp hr).1
      rw [if_neg (by omega), ticks_unmoved k q.tick rest, Ctx.tick_quiet q, due, List.foldl_append, List.foldl_cons, List.foldl_nil, lands,
        others.foldl, h.count]
    · -- p stays pending, the last
      rw [List.filter_singleton, decide_eq_true (by omega), cond_true] at left
      rw [List.filter_singleton, decide_eq_false reached, cond_false, List.append_nil] at due
      have same : f (c.tick (now + 1)) = f c := by rw [Ctx.tick_quiet q, due, others.foldl, h.count]
      rw [ih q.tick left (fun r hr => sub r (List.mem_filter.mp hr).1) (by omega), count, same, Nat.add_right_comm, Nat.add_assoc]

/-! ## The result of a bundle -/

/-- What a fixed-latency result of latency L adds to the pending writes of its context, as w is kept. -/
def State.pendFor (s : State) (L arr : Nat) (w : Wr) (fl : BitVec 5) (toV : Bool) : Pend :=
  { wr := w, due := s.me.ccount + L, seq := s.me.seq, fl := fl, toV := toV, arr := arr }

/-- A result that is not discarded is the last pending write of its context. -/
theorem State.me_fix {w : Wr} {r : Reg} (s : State) (L : Nat) (fl : BitVec 5) (toV : Bool) (hr : w.reg = some r) (hf : r.isFixed = false) :
    ∃ arr, (s.fix L w fl toV).me = { s.me with pending := s.me.pending ++ [s.pendFor L arr w fl toV] } := by
  unfold State.fix
  dsimp only
  split
  case h_1 => cases hr; cases hf
  case h_2 => cases hr; cases hf
  case h_3 => cases hr; cases hf
  case h_4 =>
    rw [if_neg]
    · exact ⟨_, State.me_setMe _ _⟩
    · rintro ⟨rfl, -⟩
      cases hr

/-- A result of any kind is the last pending write of its context, unless it carries no flag and has no effect. -/
theorem State.me_fix_cases (s : State) (L : Nat) (w : Wr) (fl : BitVec 5) (toV : Bool) :
    (s.fix L w fl toV).me = s.me ∧ fl = 0 ∨
      ∃ arr w', (s.fix L w fl toV).me = { s.me with pending := s.me.pending ++ [s.pendFor L arr w' fl toV] } := by
  unfold State.fix
  extract_lets c w'
  split
  next h => exact .inl ⟨rfl, h.2⟩
  next => exact .inr ⟨_, _, State.me_setMe _ _⟩

section
variable {s : State} {L now : Nat} {fl : BitVec 5} (hL : 1 ≤ L) (unknown : ∀ f ∈ s.me.inflight, f.val = none)
  (formats : ∀ e ∈ s.me.fmts, e.2.2.2 ≤ now)
include hL unknown formats

/-- A reading over the cycles after a write is added to those pending, where none of those moves it and the write changes it by g. -/
theorem ticks_added {α : Type} {f : Ctx → α} {g : α → α} {w : Wr} {toV : Bool} {arr : Nat} (k : Nat)
    (ok : ∀ p ∈ s.me.pending ++ [s.pendFor L arr w fl toV], p.arr ≤ now) (h : Unmoved f s.me.pending)
    (pend : ∀ (d : Ctx) ps, f { d with pending := ps } = f d)
    (lands : ∀ d : Ctx, f (d.landOne (s.pendFor L arr w fl toV)) = g (f d)) :
    f (Ctx.ticks { s.me with pending := s.me.pending ++ [s.pendFor L arr w fl toV] } now k) = if k < L then f s.me else g (f s.me) := by
  have quiet : Ctx.Quiet { s.me with pending := s.me.pending ++ [s.pendFor L arr w fl toV] } now := ⟨unknown, ok, formats⟩
  rw [ticks_landing h lands k quiet rfl (fun _ h => h) (Nat.lt_add_of_pos_right hL), pend]
  exact if_congr Nat.add_lt_add_iff_left rfl rfl

/-- The same of a fixed-latency result to a register that is written. -/
theorem ticks_fix {α : Type} {f : Ctx → α} {g : α → α} {w : Wr} {r : Reg} {toV : Bool} (k : Nat) (hr : w.reg = some r)
    (hf : r.isFixed = false) (ok : ∀ p ∈ (s.fix L w fl toV).me.pending, p.arr ≤ now) (h : Unmoved f s.me.pending)
    (pend : ∀ (d : Ctx) ps, f { d with pending := ps } = f d)
    (lands : ∀ arr (d : Ctx), f (d.landOne (s.pendFor L arr w fl toV)) = g (f d)) :
    f ((s.fix L w fl toV).me.ticks now k) = if k < L then f s.me else g (f s.me) := by
  obtain ⟨arr, e⟩ := s.me_fix L fl toV hr hf
  rw [e] at ok ⊢
  exact ticks_added hL unknown formats k ok h pend (lands arr)

/-- The same of a register that nothing but its own writes moves. -/
theorem ticks_reg {α : Type} {f : Ctx → α} {w : Wr} {r : Reg} {v : α} {toV : Bool} (k : Nat) (hr : w.reg = some r) (hf : r.isFixed = false)
    (ok : ∀ p ∈ (s.fix L w fl toV).me.pending, p.arr ≤ now) (other : ∀ p ∈ s.me.pending, p.wr.reg ≠ some r)
    (view : ∀ (d : Ctx) n a b ps, f { d with ccount := n, fctl := a, vflags := b, pending := ps } = f d)
    (ne : ∀ (d : Ctx) w, w.reg ≠ some r → f (d.land w) = f d) (same : ∀ d : Ctx, f (d.land w) = v) :
    f ((s.fix L w fl toV).me.ticks now k) = if k < L then f s.me else v := by
  have flags (d : Ctx) (q : Pend) : f (d.landOne q) = f ({ d with pending := d.pending.erase q }.land q.wr) :=
    Ctx.orFlags_keeps f _ _ _ fun a b => view _ _ a b _
  exact ticks_fix (g := fun _ => v) hL unknown formats k hr hf ok
    ⟨fun d n => view d n d.fctl d.vflags d.pending,
      fun q hq d => (flags d q).trans ((ne _ _ (other q hq)).trans (view d d.ccount d.fctl d.vflags _))⟩
    (fun d ps => view d d.ccount d.fctl d.vflags ps) fun arr d => (flags d _).trans (same _)

/-- The same of a flag register, which every result of its domain sets, and no register's landing. -/
theorem ticks_flags {f : Ctx → W64} {toV : Bool} (k : Nat) (w : Wr) (free : s.me.pending = [])
    (ok : ∀ p ∈ (s.fix L w fl toV).me.pending, p.arr ≤ now) (count : ∀ (d : Ctx) n, f { d with ccount := n } = f d)
    (pend : ∀ (d : Ctx) ps, f { d with pending := ps } = f d)
    (lands : ∀ arr w (d : Ctx), f (d.landOne (s.pendFor L arr w fl toV)) = f d ||| fl.setWidth 64) :
    f ((s.fix L w fl toV).me.ticks now k) = f s.me ||| if k < L then 0 else fl.setWidth 64 := by
  have h : Unmoved f s.me.pending := ⟨count, by rw [free]; exact fun _ h => absurd h List.not_mem_nil⟩
  rcases s.me_fix_cases L w fl toV with ⟨e, rfl⟩ | ⟨arr, w', e⟩
  · rw [e] at ok ⊢
    rw [ticks_unmoved k ⟨unknown, ok, formats⟩ h]
    split <;> exact BitVec.or_zero.symm
  · rw [e] at ok ⊢
    rw [ticks_added (g := (· ||| fl.setWidth 64)) hL unknown formats k ok h pend (lands arr w')]
    split
    · exact BitVec.or_zero.symm
    · rfl

end

/-! ## A result that is late -/

theorem Ctx.late_of_due {c : Ctx} {p : Pend} {now : Nat} (hp : p ∈ c.pending) (due : p.due ≤ c.ccount) (notYet : now < p.arr) :
    c.late now = true := by
  have mem : p ∈ c.dueNow := List.mem_filter.mpr ⟨hp, decide_eq_true due⟩
  rw [Ctx.late, List.any_eq_true.mpr ⟨p, mem, decide_eq_true notYet⟩, Bool.true_or]

theorem Ctx.endCompensate_late {c : Ctx} {now : Nat} (h : c.late now = true) : c.endCompensate now = c :=
  if_neg (by rw [h]; exact fun e => Bool.false_ne_true e.2)

theorem Ctx.endCompensate_arrived {c : Ctx} {now : Nat} (hc : c.cstate = .compensate) (h : c.late now = false) :
    c.endCompensate now = { c with cstate := .held }.landAll :=
  if_pos ⟨hc, by rw [h]; rfl⟩

/-- Settles O57: the landing of the one pending write that moves the reading, and the count that stands while it is late. -/
theorem fixedLatencyLands : Obligations.FixedLatencyLands := by
  refine ⟨fun s L k n now fl hL unknown formats => ⟨?x, ?v, ?p, ?c, ?q, ?vq, ?fixed, ?flags⟩, fun c p now hp due notYet => ?late⟩
  case x =>
    exact fun v b ok other h0 hn => ticks_reg (f := (·.getX n)) hL unknown formats k rfl (beq_eq_false_iff_ne.mpr (Nat.ne_of_gt h0)) ok other
      (fun _ _ _ _ _ => rfl) (fun _ _ => Ctx.getX_land_ne _) fun _ => Ctx.getX_land_same _ v h0 hn
  case v =>
    exact fun v b ok other hn => ticks_reg (f := (·.getV n)) hL unknown formats k rfl rfl ok other
      (fun _ _ _ _ _ => rfl) (fun _ _ => Ctx.getV_land_ne _) fun _ => Ctx.getV_land_same _ v hn
  case p =>
    exact fun v b ok other h0 => ticks_reg (f := (·.getP n)) hL unknown formats k rfl (beq_eq_false_iff_ne.mpr (Nat.ne_of_gt h0)) ok other
      (fun _ _ _ _ _ => rfl) (fun _ _ => Ctx.getP_land_ne _) fun _ => Ctx.getP_land_same _ v h0
  case c =>
    exact fun v b ok other h0 hn => ticks_reg (f := (·.getC n)) hL unknown formats k rfl (beq_eq_false_iff_ne.mpr (Nat.ne_of_gt h0)) ok other
      (fun _ _ _ _ _ => rfl) (fun _ _ h => Ctx.getC_land_ne _ h hn) fun _ => Ctx.getC_land_same _ v h0 hn
  case q =>
    intro q v b ok none_ hq
    have reads := ticks_fix (g := (· ++ [v])) (f := fun d => (d.getQ q).ents) hL unknown formats k (r := .x (48 + q)) rfl
      (beq_eq_false_iff_ne.mpr (by omega)) ok ⟨fun _ _ => rfl, by rw [none_]; exact fun _ h => absurd h List.not_mem_nil⟩ (fun _ _ => rfl)
      fun arr d => (Ctx.orFlags_keeps (fun d => (d.getQ q).ents) _ _ _ fun _ _ => rfl).trans (Ctx.getQ_land _ v)
    refine reads.trans ?_
    split
    · exact (List.append_nil _).symm
    · rfl
  case vq =>
    intro q v b ok none_ hq
    have reads := ticks_fix (g := (· ++ [v])) (f := fun d => (d.getVQ q).ents) hL unknown formats k (r := .v (28 + q)) rfl rfl ok
      ⟨fun _ _ => rfl, by rw [none_]; exact fun _ h => absurd h List.not_mem_nil⟩ (fun _ _ => rfl)
      fun arr d => (Ctx.orFlags_keeps (fun d => (d.getVQ q).ents) _ _ _ fun _ _ => rfl).trans (Ctx.getVQ_land _ v)
    refine reads.trans ?_
    split
    · exact (List.append_nil _).symm
    · rfl
  case fixed => exact fun _ _ _ _ => ⟨rfl, rfl, rfl⟩
  case flags =>
    intro w okV okX free
    exact ⟨ticks_flags hL unknown formats k w free okX (fun _ _ => rfl) (fun _ _ => rfl)
        fun arr w d => congrArg (· ||| fl.setWidth 64) (Ctx.land_fctl _ w),
      ticks_flags hL unknown formats k w free okV (fun _ _ => rfl) (fun _ _ => rfl)
        fun arr w d => congrArg (· ||| fl.setWidth 64) (Ctx.land_vflags _ w)⟩
  case late =>
    have entered : c.tick now = { c with ccount := c.ccount + 1, cstate := .compensate } :=
      if_pos (Ctx.late_of_due (c := { c with ccount := c.ccount + 1 }) hp due notYet)
    rw [entered]
    exact ⟨rfl, fun later h => Ctx.endCompensate_late (Ctx.late_of_due hp due h),
      fun later arrived formats => Ctx.endCompensate_arrived rfl (Ctx.late_eq_false arrived formats)⟩

end Sys2Proof.Machine
end

section
/-! SUPPORT. A context's own events between its bundles (O34). -/
namespace Sys2Proof.Machine

theorem exec_blockOpen (g : Nat) (s : State) : exec (.blockOpen g) s = execBlockOpen g s := rfl
theorem exec_fixedLatencyLanding (g : Nat) (s : State) : exec (.fixedLatencyLanding g) s = .next (s.setCtx g (s.ctx g).landDue) := rfl
theorem exec_interlockedResultArrival (g id : Nat) (s : State) :
    exec (.interlockedResultArrival g id) s = .next ((s.tryTlErr g id).landResult g id) := rfl
theorem exec_compensatedResultArrival (g : Nat) (s : State) :
    exec (.compensatedResultArrival g) s = .next (s.setCtx g ((s.ctx g).endCompensate (s.cl (g / 4)).cycle)) := rfl
theorem exec_loadMemoryError (g : Nat) (s : State) : exec (.loadMemoryError g) s = execLoadMemoryError g s := rfl
theorem exec_taskfaultDelivery (g : Nat) (s : State) : exec (.taskfaultDelivery g) s = execTaskfaultDelivery g s := rfl
theorem exec_boundQueueDelivery (g q : Nat) (s : State) : exec (.boundQueueDelivery g q) s =
    .next (if q < 16 then s.deliver g ((s.ctx g).getQ q).bound 0 else s.deliver g ((s.ctx g).getVQ (q - 16)).bound (q - 16)) := rfl
theorem exec_unallocatedEncoding (w : BitVec 32) (s : State) : exec (.unallocatedEncoding w) s = execUnallocatedEncoding w s := rfl

/-- A block is opened for a context at a bundle that is neither replayed nor to be stopped. -/
theorem blockOpen_guard {s : State} {g : Nat} (atB : (s.ctx g).atBundle = true) (notReplayed : (s.ctx g).replayed = none)
    (going : s.stopping g = false) : (!(s.ctx g).atBundle || (s.ctx g).replayed.isSome || s.stopping g) = false := by
  rw [atB, notReplayed, going]
  rfl

/-- A tlerr that waits under another number is no matter of an arrival. -/
theorem State.tryTlErr_other {s : State} {g id : Nat} (h : (s.ctx g).tlErrs.all (fun e => e.1 != id) = true) : s.tryTlErr g id = s := by
  have none_ : (s.ctx g).tlErrs.find? (fun e => e.1 == id) = none := by
    rw [List.find?_eq_none]
    exact fun e he => by simpa using List.all_eq_true.mp h e he
  unfold State.tryTlErr
  dsimp only
  rw [none_]

theorem State.landResult_found {s : State} {g id : Nat} {f : Inflight} (h : (s.ctx g).inflight.find? (fun f => f.id == id) = some f) :
    s.landResult g id = if (s.ctx g).canLand f then s.setCtx g ((s.ctx g).landInflight f) else s := by
  unfold State.landResult
  dsimp only
  rw [h]

theorem Ctx.landDue_free {c : Ctx} (h : c.cstate ≠ .compensate) : c.landDue = c.dueNow.foldl Ctx.landOne c := if_neg h

/-- A deferred trap at the head of its list is due where the context runs, is not in COMPENSATE and has no pop answered. -/
theorem State.dueMemErr_head {s : State} {g : Nat} {t : Trap} {ts : List Trap} (h : (s.ctx g).memErrs = t :: ts) (live : (s.ctx g).live = .run)
    (free : (s.ctx g).cstate ≠ .compensate) (unanswered : s.answered g = false) : s.dueMemErr g = some t := by
  rw [State.dueMemErr, h, live, unanswered, bne_iff_ne.mpr free]
  rfl

theorem State.dueTaskFault_head {s : State} {g : Nat} {t : Trap} {ts : List Trap} (h : (s.ctx g).taskFaults = t :: ts)
    (live : (s.ctx g).live = .run) (free : (s.ctx g).cstate ≠ .compensate) (unanswered : s.answered g = false) : s.dueTaskFault g = some t := by
  rw [State.dueTaskFault, h, live, unanswered, bne_iff_ne.mpr free]
  rfl

/-- A delivery to a queue register is its stream's. -/
theorem exec_boundQueueDelivery_of {s : State} {g q : Nat} {b : Stream}
    (h : (if q < 16 then ((s.ctx g).getQ q).bound else ((s.ctx g).getVQ (q - 16)).bound) = some b) :
    exec (.boundQueueDelivery g q) s = .next (s.deliver g (some b) (q - 16)) := by
  rw [exec_boundQueueDelivery]
  split_ifs at h ⊢ with small
  · rw [h, Nat.sub_eq_zero_of_le (Nat.le_of_lt small)]
  · rw [h]

theorem State.deliver_drain {s : State} {g vq e k : Nat}
    (h : ((s.cl (g / 4)).engine e).drains.findIdx? (fun d => d.ctx == g && d.vq == vq) = some k) :
    s.deliver g (some (.drain e)) vq = s.deliverDrain (g / 4) e k := by
  unfold State.deliver
  dsimp only
  rw [h]

/-- Settles O34: each event by the branch of its meaning that its hypotheses choose. -/
theorem contextStepResults : Obligations.ContextStepResults := by
  intro s g
  refine ⟨fun atB notReplayed going => ⟨fun t ht => ?fetchTrap, fun p z hz => ⟨fun ws hs => ?opened, fun e he => ?noSlots⟩⟩,
    fun comp => ?landsNot, fun free => ?lands, fun id f others found => ⟨fun can => ?arrives, fun cannot => ?waits⟩,
    ⟨fun comp onTime => ?released, fun late => ?stays⟩, fun t ts h live free unanswered => ?memErr,
    fun t ts h live free unanswered => ?taskFault, fun q r hq h => ?ring, fun q sid hq h => ?delivery, fun q e k hq h hk => ?drain,
    fun w e live h => ?illegal, fun w h => ?legal⟩
  case fetchTrap =>
    rw [exec_blockOpen]
    delta execBlockOpen
    dsimp only
    rw [blockOpen_guard atB notReplayed going, if_neg Bool.false_ne_true, ht]
  case opened =>
    rw [exec_blockOpen]
    delta execBlockOpen
    dsimp only
    rw [blockOpen_guard atB notReplayed going, if_neg Bool.false_ne_true, hz]
    dsimp only
    rw [hs]
  case noSlots =>
    rw [exec_blockOpen]
    delta execBlockOpen
    dsimp only
    rw [blockOpen_guard atB notReplayed going, if_neg Bool.false_ne_true, hz]
    dsimp only
    rw [he]
  case landsNot => rw [exec_fixedLatencyLanding, Ctx.landDue, if_pos comp]
  case lands =>
    refine ⟨_, exec_fixedLatencyLanding g s, ?_, ?_, fun h hne => State.ctx_setCtx_ne _ _ _ _ hne, rfl⟩
    · rw [State.ctx_setCtx, Ctx.landDue_free free, Ctx.landDueNow_pending]
    · rw [State.ctx_setCtx, Ctx.landDue_free free, (Ctx.foldl_landOne _ _).2.1]
  case arrives => rw [exec_interlockedResultArrival, State.tryTlErr_other others, State.landResult_found found, if_pos can]
  case waits =>
    rw [exec_interlockedResultArrival, State.tryTlErr_other others, State.landResult_found found, cannot, if_neg Bool.false_ne_true]
  case released => rw [exec_compensatedResultArrival, Ctx.endCompensate_arrived comp onTime]
  case stays => rw [exec_compensatedResultArrival, Ctx.endCompensate_late late]
  case memErr =>
    rw [exec_loadMemoryError]
    delta execLoadMemoryError
    rw [State.dueMemErr_head h live free unanswered]
    dsimp only
    rw [State.takeMemErr, h]
    rfl
  case taskFault =>
    rw [exec_taskfaultDelivery]
    delta execTaskfaultDelivery
    rw [State.dueTaskFault_head h live free unanswered]
    dsimp only
    rw [State.takeTaskFault, h]
    rfl
  case ring => exact exec_boundQueueDelivery_of h
  case delivery => exact exec_boundQueueDelivery_of h
  case drain =>
    rw [exec_boundQueueDelivery_of (by rw [if_neg (Nat.not_lt.mpr hq)]; exact h), State.deliver_drain hk]
  case illegal =>
    rw [exec_unallocatedEncoding]
    delta execUnallocatedEncoding
    rw [h, live]
    rfl
  case legal =>
    rw [exec_unallocatedEncoding]
    delta execUnallocatedEncoding
    rw [h]
    rfl

end Sys2Proof.Machine
end

section
/-! SUPPORT. The host's accesses, resets and links, power and cooling, and a cycle (O46): what reading leaves of every encrypted word's
text, and what each step leaves. -/
namespace Sys2Proof.Machine

/-! ## Reading leaves what memory holds -/

/-- Every home reads alike in both states: memory is the same, and so are the key slots and the rotations that its text is under. -/
structure SameText (s t : State) : Prop where
  mem : t.mem = s.mem
  rotation : ∀ n, (t.cl n).kbSlot = (s.cl n).kbSlot ∧ (t.cl n).kbPos = (s.cl n).kbPos
  slots : ∀ n, (t.site n).slots = (s.site n).slots

theorem SameText.refl (s : State) : SameText s s := ⟨rfl, fun _ => ⟨rfl, rfl⟩, fun _ => rfl⟩

theorem SameText.trans {s t u : State} (h : SameText s t) (k : SameText t u) : SameText s u :=
  ⟨k.mem.trans h.mem, fun n => ⟨(k.rotation n).1.trans (h.rotation n).1, (k.rotation n).2.trans (h.rotation n).2⟩,
    fun n => (k.slots n).trans (h.slots n)⟩

theorem SameText.setCl (s : State) (n : Nat) (c : Cluster) (h : c.kbSlot = (s.cl n).kbSlot ∧ c.kbPos = (s.cl n).kbPos) :
    SameText s (s.setCl n c) := by
  refine ⟨rfl, fun m => ?_, fun _ => rfl⟩
  by_cases e : m = n
  · subst e; rw [State.cl_setCl]; exact h
  · rw [State.cl_setCl_ne _ _ _ _ e]; exact ⟨rfl, rfl⟩

theorem SameText.setSite (s : State) (n : Nat) (x : Site) (h : x.slots = (s.site n).slots) : SameText s (s.setSite n x) := by
  refine ⟨rfl, fun _ => ⟨rfl, rfl⟩, fun m => ?_⟩
  by_cases e : m = n
  · subst e; rw [State.site_setSite, h]
  · rw [State.site_setSite_ne _ _ _ _ e]

theorem SameText.foldl {α : Type} (f : State → α → State) (hf : ∀ s a, SameText s (f s a)) (l : List α) (s : State) :
    SameText s (l.foldl f s) := foldl_keeps (SameText s) f (fun t a h => h.trans (hf t a)) l (SameText.refl s)

theorem SameText.ite {s t u : State} {p : Prop} [Decidable p] (h : SameText s t) (k : SameText s u) : SameText s (if p then t else u) := by
  split
  · exact h
  · exact k

theorem State.sameText_logEntry (s : State) (site cls : Nat) (cl : Option Nat) (code src addr detail : Nat) :
    SameText s (s.logEntry site cls cl code src addr detail) := SameText.setSite _ _ _ rfl

theorem State.sameText_countEvent (s : State) (cl pa : Nat) : SameText s (s.countEvent cl pa) := by
  unfold State.countEvent
  dsimp only
  refine SameText.trans (SameText.setCl s cl _ ?_) (State.sameText_logEntry _ _ _ _ _ _ _ _)
  split <;> exact ⟨rfl, rfl⟩

theorem State.sameText_correct (s : State) (cl pa n : Nat) : SameText s (s.correct cl pa n) :=
  SameText.trans (t := { s with soft := s.soft.filter fun w => !decide (w < bare pa + n ∧ bare pa < w + wordLen w) })
    ⟨rfl, fun _ => ⟨rfl, rfl⟩, fun _ => rfl⟩ (SameText.foldl _ (fun _ _ => State.sameText_countEvent _ _ _) _ _)

theorem State.sameText_wakeLs (s : State) (cl x n : Nat) : SameText s (s.wakeLs cl x n) :=
  SameText.foldl _ (fun t _ => SameText.ite (SameText.refl t) (SameText.setCl t cl _ (by exact ⟨rfl, rfl⟩))) _ _

theorem State.sameText_readySet (s : State) (cl k : Nat) : SameText s (s.readySet cl k) :=
  SameText.ite (SameText.refl s) (SameText.setCl s cl _ ⟨rfl, rfl⟩)

theorem State.sameText_activate (s : State) (cl x : Nat) : SameText s (s.activate cl x) := by
  unfold State.activate
  extract_lets r t c d k e
  have counted : SameText s t := SameText.ite (State.sameText_countEvent _ _ _) (SameText.refl s)
  refine (counted.trans (SameText.setCl t cl e ?_)).trans (State.sameText_readySet _ _ _)
  simp only [e, d]
  split <;> exact ⟨rfl, rfl⟩

theorem State.sameText_noteEnc (s : State) (pa : Nat) : SameText s (s.noteEnc pa) :=
  SameText.ite (SameText.refl s) (SameText.setCl s _ _ ⟨rfl, rfl⟩)

theorem State.sameText_wake (s : State) (pa n : Nat) : SameText s (s.wake pa n) :=
  SameText.ite (State.sameText_wakeLs _ _ _ _)
    (SameText.ite ((SameText.foldl _ (fun _ _ => State.sameText_activate _ _ _) _ _).trans (State.sameText_noteEnc _ _)) (SameText.refl s))

theorem Cluster.rotation_slcTouch (l : List Nat) (c : Cluster) :
    (l.foldl Cluster.slcTouch c).kbSlot = c.kbSlot ∧ (l.foldl Cluster.slcTouch c).kbPos = c.kbPos := by
  induction l generalizing c with
  | nil => exact ⟨rfl, rfl⟩
  | cons a l ih => exact ih (c.slcTouch a)

theorem State.sameText_slcPass (s : State) (cl x n : Nat) : SameText s (s.slcPass cl x n) :=
  SameText.setCl s cl _ (Cluster.rotation_slcTouch _ _)

theorem State.sameText_drainWq (s : State) (cl ch : Nat) (gone : WqEnt → Bool) : SameText s (s.drainWq cl ch gone) :=
  SameText.trans (SameText.setCl s cl _ (by exact ⟨rfl, rfl⟩)) (SameText.foldl _ (fun _ _ => State.sameText_slcPass _ _ _ _) _ _)

theorem State.sameText_drainRead (s : State) (cl x n : Nat) : SameText s (s.drainRead cl x n) :=
  SameText.ite (SameText.refl s) (SameText.foldl _ (fun _ _ => State.sameText_drainWq _ _ _ _) _ _)

/-- A read leaves what every home reads as. -/
theorem State.sameText_readAt (s : State) (cl pa n : Nat) : SameText s (s.readAt cl pa n) := by
  unfold State.readAt
  extract_lets t u
  have woken : SameText s t := State.sameText_wake s pa n
  have drained : SameText s u := SameText.ite
    (woken.trans ((State.sameText_drainRead _ _ _ _).trans (State.sameText_slcPass _ _ _ _))) woken
  exact SameText.ite drained (drained.trans (State.sameText_correct _ _ _ _))

theorem SameText.unitText {s t : State} (h : SameText s t) (pa : Nat) : t.unitText pa = s.unitText pa := by
  unfold State.unitText State.cipher
  dsimp only
  rw [h.mem, h.slots, (h.rotation _).1, (h.rotation _).2]

theorem SameText.load {s t : State} (h : SameText s t) (pa n : Nat) : t.load pa n = s.load pa n := by
  have text : t.unitText = s.unitText := funext h.unitText
  unfold State.load
  rw [h.mem, text]

/-! ## The steps -/

theorem exec_hostRegisterWrite (bar off : Nat) (v : W64) (s : State) :
    exec (.hostRegisterWrite bar off v) s = execHostRegisterWrite bar off v s := rfl
theorem exec_hostUnimplementedAccess (bar off : Nat) (wr : Bool) (s : State) : exec (.hostUnimplementedAccess bar off wr) s =
    if off < barSize bar then .next s else .next { s.logEntry 0 4 none 0 4 off 0 with reply := if wr then .none else .abort } := rfl
theorem exec_bar4Read (off n : Nat) (s : State) : exec (.bar4Read off n) s = execBar4Read off n s := rfl
theorem exec_bar4Write (off n : Nat) (v : W64) (s : State) : exec (.bar4Write off n v) s = execBar4Write off n v s := rfl
theorem exec_thermalRestart (site : Nat) (s : State) : exec (.thermalRestart site) s =
    .next (if (s.site site).off then s.setSite site { s.site site with off := false, stage := some 3, throttle := 0 } else s) := rfl
theorem exec_aclkCycle (cl : Nat) (s : State) : exec (.aclkCycle cl) s = execAclkCycle cl s := rfl

theorem mem_mmap {α : Type} {f : Nat → α → α} {m : Map α} {k : Nat} {v : α} (h : (k, v) ∈ mmap f m) : ∃ u, v = f k u := by
  induction m with
  | nil => cases h
  | cons e m ih =>
    rcases List.mem_cons.mp h with e | h
    · cases e; exact ⟨_, rfl⟩
    · exact ih h

/-- A post box sealed under a session of a port whose link goes down halts (R370). -/
theorem State.linkDown_halts {s : State} {port p : Nat} {b : PostBox} (h : (p, b) ∈ (s.linkDown port).pbs) (isSealed : b.sealedTo.isSome)
    (session : b.session / 4 = port) : b.halt = true ∧ b.haltWhy = 3 := by
  obtain ⟨u, e⟩ := mem_mmap h
  split at e <;> subst e
  next => exact ⟨rfl, rfl⟩
  next other => exact absurd ⟨isSealed, session⟩ other

theorem State.performDue_none {s : State} {g : Nat} (h : (s.ctx g).posted = []) : s.performDue g = s :=
  if_pos (by rw [h]; rfl)

/-- A cycle whose contexts have no access under way performs none. -/
theorem foldl_performDue_none {s : State} {f : Nat → Nat} {l : List Nat} (h : ∀ k ∈ l, (s.ctx (f k)).posted = []) :
    l.foldl (fun s k => s.performDue (f k)) s = s := by
  induction l with
  | nil => rfl
  | cons k l ih =>
    rw [List.foldl_cons, State.performDue_none (h k List.mem_cons_self)]
    exact ih fun j hj => h j (List.mem_cons_of_mem _ hj)

/-- The state in which a cycle of a cluster's contexts take their turns (R88). -/
def State.cycled (s : State) (cl : Nat) : State :=
  (List.range 4).foldl (fun s k => s.performDue (4 * cl + k)) (s.setCl cl { s.cl cl with cycle := ((s.cl cl).cycle + 1) % 2 ^ 64 })

theorem exec_aclkCycle_turns {s : State} {cl g : Nat} {gs : List Nat} (h : (s.cycled cl).lineUp cl = g :: gs) :
    exec (.aclkCycle cl) s = .next { s.cycled cl with cur := g, lane := { left := gs } } := by
  rw [exec_aclkCycle]
  show Host.Outcome.next (match (s.cycled cl).lineUp cl with
    | g :: gs => { s.cycled cl with cur := g, lane := { left := gs } }
    | [] => s.cycled cl) = _
  rw [h]

theorem exec_aclkCycle_idle {s : State} {cl : Nat} (h : (s.cycled cl).lineUp cl = []) : exec (.aclkCycle cl) s = .next (s.cycled cl) := by
  rw [exec_aclkCycle]
  show Host.Outcome.next (match (s.cycled cl).lineUp cl with
    | g :: gs => { s.cycled cl with cur := g, lane := { left := gs } }
    | [] => s.cycled cl) = _
  rw [h]

/-- Settles O46: each step by its meaning; a read of BAR 4 by what reading leaves of memory's text. -/
theorem hostStepResults : Obligations.HostStepResults := by
  intro s
  refine ⟨fun site => ⟨_, rfl, rfl, congrArg Site.elLost (State.site_setSite _ _ _)⟩,
    fun site on => ⟨_, rfl, congrArg Site.expert (State.site_setSite _ _ _)⟩, fun off v ready box => ?boxWrite, fun v => rfl,
    fun v => ⟨_, rfl, rfl⟩, fun bar off wr beyond => ?beyond, fun bar off wr inside => ?inside,
    fun off n pa ready home => ⟨fun good => ?bar4Read, fun v small => ?bar4Write⟩, fun off n v early => ⟨?early, ?earlyRead⟩, rfl,
    ⟨_, rfl, rfl, rfl⟩, rfl, fun site => rfl, rfl, fun port => ?linkDown,
    fun site => ⟨_, rfl, congrArg Site.throttle (State.site_setSite _ _ _), rfl⟩,
    fun site => ⟨_, rfl, congrArg Site.off (State.site_setSite _ _ _)⟩, fun site off => ?restart, rfl, fun site => ⟨_, rfl, rfl, rfl, rfl⟩,
    fun cl => ⟨fun g gs h => exec_aclkCycle_turns h, fun h => exec_aclkCycle_idle h, fun none_ => ?cycle⟩⟩
  case boxWrite =>
    rw [exec_hostRegisterWrite, execHostRegisterWrite, if_pos rfl, if_pos ⟨ready, box⟩]
  case beyond =>
    exact ⟨_, (exec_hostUnimplementedAccess bar off wr s).trans (if_neg (Nat.not_lt.mpr beyond)), rfl, rfl⟩
  case inside => rw [exec_hostUnimplementedAccess, if_pos inside]
  case bar4Read =>
    rw [exec_bar4Read]
    delta execBar4Read
    rw [if_neg (not_not_intro ready), home]
    dsimp only
    rw [good, if_neg Bool.false_ne_true, (State.sameText_readAt _ _ _ _).load]
  case bar4Write =>
    rw [exec_bar4Write]
    delta execBar4Write
    rw [if_neg (not_not_intro ready), Nat.min_eq_left small, home]
  case early =>
    rw [exec_bar4Write, execBar4Write, if_pos early]
  case earlyRead =>
    exact ⟨_, (exec_bar4Read off n s).trans (if_pos early), rfl, rfl⟩
  case linkDown =>
    have port' : (s.linkDown port).hostPort port = { mget {} s.hostPorts port with conn := 0, sessions := [], ide := [] } := mget_mset_same _ _ _ _
    refine ⟨s.linkDown port, rfl, ?_, ?_, ?_, fun p b hb isSealed session => State.linkDown_halts hb isSealed session⟩ <;> rw [port']
  case restart =>
    refine ⟨_, by rw [exec_thermalRestart, if_pos off], ?_, ?_⟩ <;> rw [State.site_setSite]
  case cycle =>
    have same : s.cycled cl = s.setCl cl { s.cl cl with cycle := ((s.cl cl).cycle + 1) % 2 ^ 64 } :=
      foldl_performDue_none fun k hk => none_ k (List.mem_range.mp hk)
    rcases turns : (s.cycled cl).lineUp cl with _ | ⟨g, gs⟩
    · refine ⟨_, exec_aclkCycle_idle turns, ?_, ?_, fun g => ?_⟩ <;> rw [same]
      · rfl
      · rw [State.cl_setCl]
      · rfl
    · refine ⟨_, exec_aclkCycle_turns turns, ?_, ?_, fun g => ?_⟩ <;> rw [same]
      · rfl
      · exact congrArg Cluster.cycle (State.cl_setCl _ _ _)
      · rfl

end Sys2Proof.Machine
end

section
/-! SUPPORT. Integer division (O2, R37): the quotient and the remainder of every case, and what a division leaves. -/
namespace Sys2Proof.Machine

/-! ## Division by a word that is not 0 -/

theorem divS_of_ne_zero {y : W64} (h : y ≠ 0) (x : W64) : divS x y = wrap 64 (x.toInt.tdiv y.toInt) := if_neg h
theorem divZ_of_ne_zero {y : W64} (h : y ≠ 0) (x : W64) : divZ x y = BitVec.ofNat 64 (x.toNat / y.toNat) := if_neg h
theorem remS_of_ne_zero {y : W64} (h : y ≠ 0) (x : W64) : remS x y = wrap 64 (x.toInt.tmod y.toInt) := if_neg h
theorem remZ_of_ne_zero {y : W64} (h : y ≠ 0) (x : W64) : remZ x y = BitVec.ofNat 64 (x.toNat % y.toNat) := if_neg h

/-- The signed remainder is srem: a remainder always fits, so wrapping it changes nothing. -/
theorem remS_eq_srem {y : W64} (h : y ≠ 0) (x : W64) : remS x y = x.srem y := by
  rw [remS_of_ne_zero h, ← BitVec.toInt_srem, wrap, BitVec.ofInt_toInt]

/-- What the signed remainder leaves of the dividend, modulo 2^64, is the wrapped quotient times the divisor. -/
theorem remS_eq_sub {y : W64} (h : y ≠ 0) (x : W64) : remS x y = x - divS x y * y := by
  have parts : x.toInt.tmod y.toInt = x.toInt - x.toInt.tdiv y.toInt * y.toInt := by
    have := Int.tmod_add_tdiv_mul x.toInt y.toInt
    omega
  rw [remS_of_ne_zero h, divS_of_ne_zero h, parts]
  simp only [wrap, Int.sub_eq_add_neg, BitVec.ofInt_add, BitVec.ofInt_neg, BitVec.ofInt_mul, BitVec.ofInt_toInt, BitVec.sub_eq_add_neg]

theorem remZ_eq_sub {y : W64} (h : y ≠ 0) (x : W64) : remZ x y = x - divZ x y * y := by
  have parts : x.toNat % y.toNat + x.toNat / y.toNat * y.toNat = x.toNat := Nat.mod_add_div' _ _
  rw [remZ_of_ne_zero h, divZ_of_ne_zero h, eq_sub_iff_add_eq]
  calc BitVec.ofNat 64 (x.toNat % y.toNat) + BitVec.ofNat 64 (x.toNat / y.toNat) * y
      = BitVec.ofNat 64 (x.toNat % y.toNat + x.toNat / y.toNat * y.toNat) := by
        rw [BitVec.ofNat_add, BitVec.ofNat_mul, BitVec.ofNat_toNat, BitVec.setWidth_eq]
    _ = x := by rw [parts, BitVec.ofNat_toNat, BitVec.setWidth_eq]

/-- The remainder takes the sign of the dividend. -/
theorem remS_sign {y : W64} (h : y ≠ 0) (x : W64) : (remS x y).toInt = 0 ∨ (0 < (remS x y).toInt ↔ 0 < x.toInt) := by
  rw [remS_eq_srem h, BitVec.toInt_srem]
  rcases Int.lt_or_le 0 x.toInt with pos | nonpos
  · have := Int.tmod_nonneg y.toInt pos.le
    omega
  · have := Int.tmod_nonneg y.toInt (Int.neg_nonneg_of_nonpos nonpos)
    rw [Int.neg_tmod] at this
    omega

/-! ## Division as a slot -/

/-- An interlocked result of known writes leaves the bundle as it was, and waits after those in flight (R91). -/
theorem inter_spec (s : State) (ds : List Reg) (ws : List Wr) :
    (s.inter ds (some ws)).issue = s.issue ∧
      ∃ f, (s.inter ds (some ws)).me.inflight = s.me.inflight ++ [f] ∧ f.val = some ws :=
  ⟨rfl, _, congrArg Ctx.inflight (State.me_setMe _ _), rfl⟩

/-- A slot of two sources with an interlocked result answers f of them, once its shared checks pass. -/
theorem binI_of_pass {s s' : State} {x y : W64} {d a b : BitVec 6} (f : W64 → W64 → W64) (hread : s.read2 a b = (x, y, s'))
    (pass : s.issueCheck 0 [.x a.toNat, .x b.toNat] [.x d.toNat] = none) :
    binI f d a b s = .next (s'.inter [.x d.toNat] (some [.x d.toNat (f x y)])) := by
  cases hread
  exact gate_pass _ pass

/-- Reading two scalar sources leaves the bundle and what is in flight. -/
theorem read2_leaves {s s' : State} {x y : W64} {a b : BitVec 6} (h : s.read2 a b = (x, y, s')) :
    s'.issue = s.issue ∧ s'.me.inflight = s.me.inflight := by
  cases h
  exact ⟨(readX_issue _ _).trans (readX_issue _ _), (readX_inflight _ _).trans (readX_inflight _ _)⟩

/-- Such a slot traps nowhere: it goes on with its result in flight. -/
theorem binI_goes_on {s s' : State} {x y : W64} {d a b : BitVec 6} (f : W64 → W64 → W64) (hread : s.read2 a b = (x, y, s'))
    (pass : s.issueCheck 0 [.x a.toNat, .x b.toNat] [.x d.toNat] = none) :
    ∃ t, binI f d a b s = .next t ∧ t.issue = s.issue ∧
      ∃ g, t.me.inflight = s.me.inflight ++ [g] ∧ g.val = some [.x d.toNat (f x y)] := by
  have leaves := inter_spec s' [.x d.toNat] [.x d.toNat (f x y)]
  obtain ⟨issue, inflight⟩ := read2_leaves hread
  rw [issue, inflight] at leaves
  exact ⟨_, binI_of_pass f hread pass, leaves⟩

/-- Settles O2: the cases of R37 by the lemma of each, and the four slots as one operand form. -/
theorem divisionRule : Obligations.DivisionRule := by
  refine ⟨fun x y => ⟨fun h => ?values, fun h => remS_sign h x, ⟨rfl, rfl, rfl, rfl⟩, by decide⟩, fun s s' x y d a b hread r hr ready => ?slots⟩
  case values => exact ⟨divS_of_ne_zero h x, remS_eq_sub h x, remS_of_ne_zero h x, divZ_of_ne_zero h x, remZ_eq_sub h x⟩
  case slots =>
    simp only [List.mem_cons, List.not_mem_nil, or_false] at hr
    rcases hr with rfl | rfl | rfl | rfl
    all_goals exact binI_goes_on _ hread ready

end Sys2Proof.Machine
end

section
/-! SUPPORT. fx additions (O60, R39): their value, sums of several, and the residual of a heap. -/
namespace Sys2Proof.Machine

/-! ## One addition -/

/-- The fx sum of two codes (R39). -/
def fxAdd (x y : W64) : W64 := wrap 64 (satS64 (x.toInt + y.toInt))

/-- A word read as a signed number of its 64 bits. -/
theorem sextNat_toNat (x : W64) : sextNat x.toNat 64 = x.toInt := by
  rw [sextNat, Nat.mod_eq_of_lt x.isLt, BitVec.toInt]
  rfl

theorem amoApply_fx (a b d : W64) : AmoOp.fx.apply a.toNat b d = ((fxAdd a b).toNat, 0) := by
  rw [AmoOp.apply, BitVec.ofNat_toNat, BitVec.setWidth_eq]
  rfl

theorem remApply_fx (a b : W64) : RemKind.fx.apply a.toNat b.toNat = ((fxAdd a b).toNat, 0) := by
  rw [RemKind.apply, sextNat_toNat, sextNat_toNat]
  rfl

theorem satS64_mem (x : Int) : -(2 ^ 63) ≤ satS64 x ∧ satS64 x ≤ 2 ^ 63 - 1 := by
  unfold satS64
  omega

theorem satS64_of_mem {x : Int} (lo : -(2 ^ 63) ≤ x) (hi : x ≤ 2 ^ 63 - 1) : satS64 x = x := by
  unfold satS64
  omega

/-- A saturated sum fits its word. -/
theorem toInt_fxAdd (a b : W64) : (fxAdd a b).toInt = satS64 (a.toInt + b.toInt) := by
  obtain ⟨lo, hi⟩ := satS64_mem (a.toInt + b.toInt)
  exact BitVec.toInt_ofInt_eq_self (by decide) lo (by omega)

/-! ## Several additions -/

/-- While the absolute values add up to at most 2^63 − 1 no addition saturates, and the total is exact. -/
theorem toInt_foldl_fxAdd (l : List W64) (a : W64) (bound : a.toInt.natAbs + (l.map fun x => x.toInt.natAbs).sum ≤ 2 ^ 63 - 1) :
    (l.foldl fxAdd a).toInt = a.toInt + (l.map fun x => x.toInt).sum := by
  induction l generalizing a with
  | nil => simp
  | cons b l ih =>
    simp only [List.map_cons, List.sum_cons, List.foldl_cons] at bound ⊢
    have step : (fxAdd a b).toInt = a.toInt + b.toInt := by rw [toInt_fxAdd, satS64_of_mem (by omega) (by omega)]
    rw [ih (fxAdd a b) (by omega), step, Int.add_assoc]

/-- Within the bound the order of additions does not matter. -/
theorem foldl_fxAdd_perm {l l' : List W64} (h : l.Perm l') {a : W64}
    (bound : a.toInt.natAbs + (l.map fun x => x.toInt.natAbs).sum ≤ 2 ^ 63 - 1) : l.foldl fxAdd a = l'.foldl fxAdd a := by
  have bound' : a.toInt.natAbs + (l'.map fun x => x.toInt.natAbs).sum ≤ 2 ^ 63 - 1 := by rwa [← (h.map _).sum_eq]
  apply BitVec.eq_of_toInt_eq
  rw [toInt_foldl_fxAdd l a bound, toInt_foldl_fxAdd l' a bound', (h.map _).sum_eq]

/-! ## The residual of a heap (R248) -/

/-- An answered pop leaves the residual. -/
theorem pop_res {h h' : Heap} {r : Bool × W64} (hp : h.pop = some (r, h')) : h'.res = h.res := by
  unfold Heap.pop at hp
  split at hp
  · cases hp; rfl
  split at hp
  · cases hp; rfl
  split at hp
  · cases hp; rfl
  split at hp
  · cases hp; rfl
  · split at hp
    · cases hp
    · cases hp; rfl

/-- Answering the waiting pops leaves the residual. -/
@[simp] theorem settle_res (h : Heap) (n : Nat) : (h.settle n).res = h.res := by
  induction n generalizing h with
  | zero => rfl
  | succ n ih =>
    unfold Heap.settle
    split
    · rfl
    · split
      · rfl
      · rename_i hp
        rw [ih, pop_res hp]

@[simp] theorem heap_setHeap (s : State) (site i : Nat) (w : Heap) : ((s.setHeap site i w).site site).heap i = w := by
  rw [State.setHeap, State.site_setSite]
  exact mget_mset_same _ _ _ _

/-- hres adds its operand to the residual by one fx addition. -/
theorem hres_adds {s s' : State} {x y : W64} {d a b : BitVec 6} (hread : s.read2 a b = (x, y, s')) (usable : s'.hUsable x = true)
    (ready : Ready (.hres d a b) s) : ∃ t, exec (.hres d a b) s = .next t ∧
      ((t.site (hSite x)).heap (hIx x)).res = fxAdd ((s'.site (hSite x)).heap (hIx x)).res y := by
  obtain ⟨s1, hx, hy⟩ := read2_eq hread
  rw [exec_of_ready ready fun _ => rfl]
  simp only [hx, hy, usable]
  refine ⟨_, rfl, (congrArg Heap.res (heap_setHeap s' (hSite x) (hIx x) _)).trans ?_⟩
  rw [settle_res]
  rfl

/-- Settles O60: the three forms are one addition, whose value saturates, and whose sums are exact within the bound. -/
theorem fxAddition : Obligations.FxAddition := by
  unfold Obligations.FxAddition
  intro fx
  have hfx : fx = fxAdd := by
    funext x y
    show BitVec.ofNat 64 (AmoOp.fx.apply x.toNat y 0).1 = fxAdd x y
    rw [amoApply_fx, BitVec.ofNat_toNat, BitVec.setWidth_eq]
  rw [hfx]
  refine ⟨fun a b d => ?one, fun a l l' perm bound => ?several, fun s s' x y d a b hread usable ready => hres_adds hread usable ready⟩
  case one =>
    obtain ⟨lo, hi⟩ := satS64_mem (a.toInt + b.toInt)
    rw [toInt_fxAdd]
    exact ⟨amoApply_fx a b d, remApply_fx a b, rfl, lo, hi, satS64_of_mem⟩
  case several => exact ⟨foldl_fxAdd_perm perm bound, toInt_foldl_fxAdd l a bound⟩

end Sys2Proof.Machine
end

section
/-! SUPPORT. Vector reductions, scans, vtopk and vargmax (O15). -/
namespace Sys2Proof.Machine

/-- Reading a vector source leaves every predicate. -/
theorem getP_of_readV {s s1 : State} {x : V2048} {a : BitVec 5} (hread : s.readV a.toNat = (x, s1)) (p : Nat) :
    s1.me.getP p = s.me.getP p := by rw [← readV_getP s a.toNat, hread]

/-! ## The operand forms -/

/-- A reduction writes its one result to every active lane, once the shared checks pass (R151). -/
theorem vred_of_pass {s s1 : State} {x : V2048} {d a : BitVec 5} {p : BitVec 3} (f : W64 → V2048 → Nat × Flags)
    (hread : s.readV a.toNat = (x, s1)) (pass : s.issueCheck 0 [.v a.toNat, .p p.toNat] [.v d.toNat] = none) :
    vred f d a p s = .next (s1.fix 6 (.v d.toNat (lanes (s.me.getP p.toNat) (s.oldV d.toNat)
      fun _ => BitVec.ofNat 32 (f (s.me.getP p.toNat) x).1))
      (if s.me.getP p.toNat = 0 then 0 else (f (s.me.getP p.toNat) x).2) true) := by
  rw [vred, gate_pass _ pass, hread]
  simp only [getP_of_readV hread]

/-- A scan writes to each active lane the running value of its step, once the shared checks pass (R152). -/
theorem vscan_of_pass {s s1 : State} {x : V2048} {d a : BitVec 5} {p : BitVec 3} (f : Nat → Nat → Nat × Flags) (idn : Nat)
    (hread : s.readV a.toNat = (x, s1)) (pass : s.issueCheck 0 [.v a.toNat, .p p.toNat] [.v d.toNat] = none) :
    let v := scanFrom f idn (tab (fun i => if pbit (s.me.getP p.toNat) i then (lane x i).toNat else idn) 64)
    vscan f idn d a p s = .next (s1.fix 6 (.v d.toNat (lanes (s.me.getP p.toNat) (s.oldV d.toNat)
      fun i => BitVec.ofNat 32 (v.1.getD i 0))) v.2 true) := by
  rw [vscan, gate_pass _ pass, hread]
  simp only [getP_of_readV hread]

/-! ## vtopk (R153) -/

/-- Lane i of the result of vtopk over the ordered candidates l: values from lane 0 on, lane indices from lane 8 on, and the lanes
between and above as old. -/
def topkLane (l : List (Nat × Nat)) (old : V2048) (k i : Nat) : W32 :=
  if i < k then (match l[i]? with
    | some c => BitVec.ofNat 32 c.1
    | none => 0xFF800000#32)
  else if 8 ≤ i ∧ i < 8 + k then (match l[i - 8]? with
    | some c => BitVec.ofNat 32 c.2
    | none => 0xFFFFFFFF#32)
  else lane old i

/-- A value lane holds its candidate's value, or −∞ where there are fewer. -/
theorem topkLane_value (l : List (Nat × Nat)) (old : V2048) {k i : Nat} (h : i < k) :
    topkLane l old k i = (l[i]?.map fun c => BitVec.ofNat 32 c.1).getD 0xFF800000 := by
  rw [topkLane, if_pos h]
  cases l[i]? <;> rfl

/-- An index lane holds its candidate's lane, or all ones where there are fewer; a k above 8 lays values over the indices. -/
theorem topkLane_index (l : List (Nat × Nat)) (old : V2048) {k i : Nat} (hk : k ≤ 8) (h : i < k) :
    topkLane l old k (8 + i) = (l[i]?.map fun c => BitVec.ofNat 32 c.2).getD 0xFFFFFFFF := by
  rw [topkLane, if_neg (by omega), if_pos (by omega), Nat.add_sub_cancel_left]
  cases l[i]? <;> rfl

theorem topkLane_old (l : List (Nat × Nat)) (old : V2048) {k i : Nat} (hv : k ≤ i) (hx : ¬ (8 ≤ i ∧ i < 8 + k)) :
    topkLane l old k i = lane old i := by
  rw [topkLane, if_neg (by omega), if_neg hx]

theorem exec_vtopk_ready {s s1 : State} {x : V2048} {d a k : BitVec 5} {p : BitVec 3} (hread : s.readV a.toNat = (x, s1))
    (ready : Ready (.vtopk d a k p) s) :
    exec (.vtopk d a k p) s = .next (s1.fix 8 (.v d.toNat
      (vecOf (topkLane (topOrder (s.me.getP p.toNat) x) (s.oldV d.toNat) k.toNat))) (snanFlag (s.me.getP p.toNat) x) true) := by
  rw [exec_of_ready ready fun _ => rfl, hread, ← getP_of_readV hread]
  rfl

/-! ## vargmax (R154) -/

/-- Lane j of the result of vargmax for the greatest candidate c: its value, its lane, and the other lanes as old. -/
def argmaxLane (c : Option (Nat × Nat)) (old : V2048) (j : Nat) : W32 :=
  if j = 0 then (c.map fun c => BitVec.ofNat 32 c.1).getD 0x7FC00000
  else if j = 1 then (c.map fun c => BitVec.ofNat 32 c.2).getD 0xFFFFFFFF
  else lane old j

theorem argmaxLane_old (c : Option (Nat × Nat)) (old : V2048) {j : Nat} (h : 2 ≤ j) : argmaxLane c old j = lane old j := by
  rw [argmaxLane, if_neg (by omega), if_neg (by omega)]

theorem exec_vargmax_ready {s s1 : State} {x : V2048} {d a : BitVec 5} {p : BitVec 3} (hread : s.readV a.toNat = (x, s1))
    (ready : Ready (.vargmax d a p) s) :
    exec (.vargmax d a p) s = .next (s1.fix 6 (.v d.toNat
      (vecOf (argmaxLane (topOrder (s.me.getP p.toNat) x).head? (s.oldV d.toNat)))) (snanFlag (s.me.getP p.toNat) x) true) := by
  rw [exec_of_ready ready fun _ => rfl, hread]
  simp only [getP_of_readV hread]
  cases (topOrder (s.me.getP p.toNat) x).head? <;> rfl

/-- Settles O15: the reductions and the scans by their operand forms, vtopk and vargmax by the lanes of their results. -/
theorem vectorReduceResults : Obligations.VectorReduceResults := by
  intro s s1 x d a p hread act old
  refine ⟨fun r hr ready => ?reductions, fun r hr ready => ?scans, fun k ready => ?topk, fun ready => ?argmax⟩
  case reductions =>
    simp only [List.mem_cons, List.not_mem_nil, or_false] at hr
    rcases hr with rfl | rfl | rfl | rfl
    · exact vred_of_pass sumF32 hread ready
    · exact vred_of_pass (minMaxF32 true) hread ready
    · exact vred_of_pass (minMaxF32 false) hread ready
    · exact vred_of_pass (fun p x => (sumS32 p x, 0)) hread ready
  case scans =>
    simp only [List.mem_cons, List.not_mem_nil, or_false] at hr
    rcases hr with rfl | rfl
    · exact vscan_of_pass (fAdd f32 .rne) negZero hread ready
    · exact vscan_of_pass (fun u v => ((u + v) % 2 ^ 32, 0)) 0 hread ready
  case topk =>
    exact ⟨_, exec_vtopk_ready hread ready, fun _ h => topkLane_value _ old h, fun hk _ h => topkLane_index _ old hk h,
      fun _ hv hx => topkLane_old _ old hv hx⟩
  case argmax => exact ⟨_, exec_vargmax_ready hread ready, rfl, rfl, fun _ h => argmaxLane_old _ old h⟩

end Sys2Proof.Machine
end

section
/-! SUPPORT. What the stepping decides by, the agenda and the slot's verdict, is left as it is by the operations on the state (O53, O55). -/
namespace Sys2Proof.Machine

/-- What the stepping decides by: the agenda, and the verdict on the slot at hand. -/
def State.control (s : State) : List Instr × Verdict := (s.agenda, s.issue.verdict)

theorem State.agenda_of_control {s t : State} (h : t.control = s.control) : t.agenda = s.agenda := congrArg Prod.fst h
theorem State.verdict_of_control {s t : State} (h : t.control = s.control) : t.issue.verdict = s.issue.verdict := congrArg Prod.snd h

/-- Of a state given field by field, as an update of one is after simp. -/
@[simp] theorem State.control_mk {x0 x1 x2 x3 x4 x5 x6 x7 x8 x9 x10 x11 x12 x13 x14 x15 x16 x17 x18 x19 x20 x21 x22 x23 x24 x25 x26 x27 x28
    x29 x31 x33 x34} {agenda : List Instr} {issue : Issue} :
    (State.mk x0 x1 x2 x3 x4 x5 x6 x7 x8 x9 x10 x11 x12 x13 x14 x15 x16 x17 x18 x19 x20 x21 x22 x23 x24 x25 x26 x27 x28 x29 agenda x31 issue
      x33 x34).control = (agenda, issue.verdict) := by rfl

@[simp] theorem State.control_eta (s : State) : (s.agenda, s.issue.verdict) = s.control := by rfl

@[simp] theorem State.control_ite (p : Prop) [Decidable p] (s t : State) :
    (if p then s else t).control = if p then s.control else t.control := apply_ite State.control p s t

@[simp] theorem foldl_control {α : Type} (f : State → α → State) (hf : ∀ s a, (f s a).control = s.control) (l : List α) (s : State) :
    (l.foldl f s).control = s.control := foldl_keeps (fun t => t.control = s.control) f (fun t a h => (hf t a).trans h) l rfl

/-! The operations of Machine/Mem. -/

@[simp] theorem State.control_setCtx (s : State) (g : Nat) (c : Ctx) : (s.setCtx g c).control = s.control := by rfl
@[simp] theorem State.control_setCl (s : State) (n : Nat) (c : Cluster) : (s.setCl n c).control = s.control := by rfl
@[simp] theorem State.control_setSite (s : State) (n : Nat) (x : Site) : (s.setSite n x).control = s.control := by rfl
@[simp] theorem State.control_setMe (s : State) (c : Ctx) : (s.setMe c).control = s.control := by rfl
@[simp] theorem State.control_setMyCl (s : State) (c : Cluster) : (s.setMyCl c).control = s.control := by rfl

@[simp] theorem State.control_logEntry (s : State) (site cls : Nat) (cl : Option Nat) (code src addr detail : Nat) :
    (s.logEntry site cls cl code src addr detail).control = s.control := by rfl

@[simp] theorem State.control_logErr (s : State) (cl pa : Nat) (code : Nat) : (s.logErr cl pa code).control = s.control := by rfl

@[simp] theorem State.control_logBad (s : State) (cl pa n : Nat) (code : Nat) :
    (s.logBad cl pa n code).control = s.control := by simp [State.logBad]

@[simp] theorem State.control_healWith (s : State) (pa n : Nat) (sel : Nat → Bool) (who : Option Nat) :
    (s.healWith pa n sel who).control = s.control := by simp [State.healWith]

@[simp] theorem State.control_healFor (s : State) (pa n : Nat) (who : Option Nat) :
    (s.healFor pa n who).control = s.control := by simp [State.healFor]

@[simp] theorem State.control_unitPut (s : State) (pa mask v : Nat) : (s.unitPut pa mask v).control = s.control := by simp [State.unitPut]

@[simp] theorem State.control_unitsPut (s : State) (pa n mask v : Nat) :
    (s.unitsPut pa n mask v).control = s.control := by simp [State.unitsPut]

@[simp] theorem State.control_store (s : State) (pa n v : Nat) (who : Option Nat) :
    (s.store pa n v who).control = s.control := by simp [State.store]

@[simp] theorem State.control_storeMask (s : State) (pa n mask v : Nat) :
    (s.storeMask pa n mask v).control = s.control := by simp [State.storeMask]

@[simp] theorem State.control_zeroMem (s : State) (pa n : Nat) : (s.zeroMem pa n).control = s.control := by simp [State.zeroMem]
@[simp] theorem State.control_countEvent (s : State) (cl pa : Nat) : (s.countEvent cl pa).control = s.control := by rfl
@[simp] theorem State.control_correct (s : State) (cl pa n : Nat) : (s.correct cl pa n).control = s.control := by simp [State.correct]

@[simp] theorem State.control_logWalk (s : State) (cl : Nat) (a : Agent) (va : Nat) : (s.logWalk cl a va).control = s.control := by
  unfold State.logWalk
  dsimp only
  (repeat' split) <;> simp

@[simp] theorem State.control_logVa (s : State) (cl : Nat) (a : Agent) (va : W64) (code : Nat) :
    (s.logVa cl a va code).control = s.control := by
  unfold State.logVa
  (repeat' split) <;> simp

@[simp] theorem State.control_wakeLs (s : State) (cl x n : Nat) : (s.wakeLs cl x n).control = s.control := by simp [State.wakeLs]
@[simp] theorem State.control_readySet (s : State) (cl k : Nat) : (s.readySet cl k).control = s.control := by simp [State.readySet]
@[simp] theorem State.control_activate (s : State) (cl x : Nat) : (s.activate cl x).control = s.control := by simp [State.activate]
@[simp] theorem State.control_noteEnc (s : State) (pa : Nat) : (s.noteEnc pa).control = s.control := by simp [State.noteEnc]
@[simp] theorem State.control_wake (s : State) (pa n : Nat) : (s.wake pa n).control = s.control := by simp [State.wake]
@[simp] theorem State.control_slcPass (s : State) (cl x n : Nat) : (s.slcPass cl x n).control = s.control := by rfl

@[simp] theorem State.control_drainWq (s : State) (cl ch : Nat) (gone : WqEnt → Bool) :
    (s.drainWq cl ch gone).control = s.control := by simp [State.drainWq]

@[simp] theorem State.control_putWq (s : State) (cl ch r : Nat) (f : WqEnt → WqEnt) : (s.putWq cl ch r f).control = s.control := by
  unfold State.putWq
  dsimp only
  (repeat' split) <;> simp

@[simp] theorem State.control_enqueue (s : State) (pa n : Nat) (m : Nat) : (s.enqueue pa n m).control = s.control := by simp [State.enqueue]
@[simp] theorem State.control_enqueueRed (s : State) (pa n : Nat) : (s.enqueueRed pa n).control = s.control := by simp [State.enqueueRed]
@[simp] theorem State.control_drainRead (s : State) (cl x n : Nat) : (s.drainRead cl x n).control = s.control := by simp [State.drainRead]
@[simp] theorem State.control_readRed (s : State) (cl pa n : Nat) : (s.readRed cl pa n).control = s.control := by simp [State.readRed]
@[simp] theorem State.control_readAt (s : State) (cl pa n : Nat) : (s.readAt cl pa n).control = s.control := by simp [State.readAt]

@[simp] theorem State.control_perform (s : State) (pa n v : Nat) (who : Option Nat) :
    (s.perform pa n v who).control = s.control := by simp [State.perform]

@[simp] theorem State.control_performRed (s : State) (pa n v : Nat) (who : Option Nat) :
    (s.performRed pa n v who).control = s.control := by simp [State.performRed]

@[simp] theorem State.control_walkReads (s : State) (cl : Nat) (a : Agent) (va : Nat) :
    (s.walkReads cl a va).control = s.control := by simp [State.walkReads]

@[simp] theorem State.control_noteTlb (s : State) (cl : Nat) (a : Agent) (eng : Bool) (va : Nat) :
    (s.noteTlb cl a eng va).control = s.control := by
  unfold State.noteTlb
  dsimp only
  (repeat' split) <;> simp

@[simp] theorem State.control_logFor (s : State) (cl : Nat) (a : Agent) (t : Trap) (eng : Bool) :
    (s.logFor cl a t eng).control = s.control := by simp [State.logFor]

@[simp] theorem State.control_writeBack (s : State) (cl : Nat) (l : L1Line) :
    (s.writeBack cl l).control = s.control := by simp [State.writeBack]

@[simp] theorem State.control_l1Drop (s : State) (cl line : Nat) : (s.l1Drop cl line).control = s.control := by rfl
@[simp] theorem State.control_l1Recent (s : State) (cl : Nat) (l : L1Line) : (s.l1Recent cl l).control = s.control := by rfl

@[simp] theorem State.control_l1Flush (s : State) (cl line : Nat) : (s.l1Flush cl line).control = s.control := by
  unfold State.l1Flush
  (repeat' split) <;> simp

@[simp] theorem State.control_wantLine (s : State) (cl line key : Nat) :
    (s.wantLine cl line key).control = s.control := by simp [State.wantLine]

@[simp] theorem State.control_l1Bring (s : State) (cl line : Nat) : (s.l1Bring cl line).control = s.control := by
  unfold State.l1Bring
  dsimp only
  (repeat' split) <;> simp

@[simp] theorem State.control_l1Fill (s : State) (cl line : Nat) : (s.l1Fill cl line).control = s.control := by
  unfold State.l1Fill
  (repeat' split) <;> simp

@[simp] theorem State.control_loadVia (s : State) (cl pa n : Nat) : (s.loadVia cl pa n).2.control = s.control := by
  unfold State.loadVia
  dsimp only
  (repeat' split) <;> simp

@[simp] theorem State.control_l1Heal (s : State) (cl line o n : Nat) : (s.l1Heal cl line o n).control = s.control := by simp [State.l1Heal]

@[simp] theorem State.control_storeVia (s : State) (cl pa n v : Nat) : (s.storeVia cl pa n v).control = s.control := by
  unfold State.storeVia
  dsimp only
  split <;> simp

/-! The operations of Machine/Ops. -/

@[simp] theorem State.control_fresh (s : State) : s.fresh.2.control = s.control := by rfl

@[simp] theorem State.control_fix (s : State) (L : Nat) (w : Wr) (fl : BitVec 5) (toV : Bool) :
    (s.fix L w fl toV).control = s.control := by simp [State.fix]

@[simp] theorem State.control_inter (s : State) (ds : List Reg) (val : Option (List Wr)) (fl : BitVec 5) :
    (s.inter ds val fl).control = s.control := by rfl

@[simp] theorem State.control_answer (s : State) (g id : Nat) (ws : List Wr) (fl : BitVec 5) :
    (s.answer g id ws fl).control = s.control := by rfl

@[simp] theorem State.control_dropInter (s : State) (g id : Nat) : (s.dropInter g id).control = s.control := by rfl
@[simp] theorem State.control_setQueue (s : State) (site q : Nat) (w : WorkQ) : (s.setQueue site q w).control = s.control := by rfl
@[simp] theorem State.control_setHeap (s : State) (site h : Nat) (w : Heap) : (s.setHeap site h w).control = s.control := by rfl

@[simp] theorem State.control_taskFaultTo (s : State) (k : CurTask) (t : Trap) (pc : W64) (g frec owner team : Nat) :
    (s.taskFaultTo k t pc g frec owner team).control = s.control := by
  unfold State.taskFaultTo
  extract_lets t tf give tm
  have performed : t.control = s.control := State.control_perform ..
  split <;> simp [performed]

@[simp] theorem State.control_freezeTask (s : State) (g : Nat) (t : Trap) (pc : W64) : (s.freezeTask g t pc).control = s.control := by
  unfold State.freezeTask
  dsimp only
  split <;> simp

@[simp] theorem State.control_logTrap (s : State) (g : Nat) (t : Trap) : (s.logTrap g t).control = s.control := by
  unfold State.logTrap
  dsimp only
  (repeat' split) <;> simp

@[simp] theorem State.control_trapEntry (s : State) (g : Nat) (t : Trap) (pc : W64) (wrem : Nat) :
    (s.trapEntry g t pc wrem).control = s.control := by simp [State.trapEntry]

@[simp] theorem State.control_waitResult (s : State) (ds : List Reg) (ws : List Wr) : (s.waitResult ds ws).control = s.control := by rfl
@[simp] theorem State.control_setTl (s : State) (g t : Nat) (x : Timeline) : (s.setTl g t x).control = s.control := by rfl
@[simp] theorem State.control_takeNums (s : State) (g t n : Nat) : (s.takeNums g t n).control = s.control := by rfl

@[simp] theorem State.control_complete (s : State) (g t n : Nat) (vis : Bool) :
    (s.complete g t n vis).control = s.control := by simp [State.complete]

@[simp] theorem State.control_failOp (s : State) (g t n : Nat) (addr : W64) (code : Nat) (side : Nat) :
    (s.failOp g t n addr code side).control = s.control := by simp [State.failOp]

/-! The operations of Machine/Access. -/

@[simp] theorem State.control_memErr (s : State) (r : MemReq) : (s.memErr r).control = s.control := by rfl

@[simp] theorem State.control_takePart (s : State) (r : MemReq) (put : Option (V2048 → V2048)) :
    (s.takePart r put).control = s.control := by
  unfold State.takePart
  dsimp only
  (repeat' split) <;> simp

@[simp] theorem State.control_logPart (s : State) (r : MemReq) (n : Nat) : (s.logPart r n).control = s.control := by
  unfold State.logPart
  dsimp only
  split <;> simp

@[simp] theorem State.control_amoAt (s : State) (cl pa : Nat) (op : AmoOp) (b d : W64) : (s.amoAt cl pa op b d).2.control = s.control := by
  unfold State.amoAt
  dsimp only
  (repeat' split) <;> simp

@[simp] theorem State.control_addElem (s : State) (r : MemReq) (float : Bool) :
    (s.addElem r float).control = s.control := by simp [State.addElem]

@[simp] theorem State.control_serve (s : State) (r : MemReq) : (s.serve r).control = s.control := by
  unfold State.serve
  dsimp only
  split
  case h_1 => simp
  case h_2 z _ =>
    have loaded := State.control_loadVia s (r.ctx / 4) r.pa (szBytes z)
    split <;> rename_i e <;> rw [e] at loaded <;> simpa using loaded
  case h_3 op _ =>
    have done := State.control_amoAt s (r.ctx / 4) r.pa op r.arg r.arg2
    split <;> rename_i e <;> rw [e] at done <;> simpa using done
  case h_4 => split <;> simp
  case h_5 => split <;> simp
  case h_6 => simp

@[simp] theorem State.control_askLine (s : State) (cl : Nat) (line : Option Nat) (key : Nat) :
    (s.askLine cl line key).control = s.control := by
  unfold State.askLine
  dsimp only
  split <;> simp

@[simp] theorem State.control_post (s : State) (r : MemReq) : (s.post r).control = s.control := by rfl

@[simp] theorem State.control_drainOwn (s : State) (g : Nat) (sel : Nat → Bool) :
    (s.drainOwn g sel).control = s.control := by simp [State.drainOwn]

@[simp] theorem State.control_drainLs (s : State) : s.drainLs.control = s.control := by simp [State.drainLs]
@[simp] theorem State.control_drainL1 (s : State) : s.drainL1.control = s.control := by simp [State.drainL1]
@[simp] theorem State.control_drainAll (s : State) (g : Nat) : (s.drainAll g).control = s.control := by simp [State.drainAll]

@[simp] theorem State.control_interAcc (s : State) (ds : List Reg) (acc : V2048) (n : Nat) (blk : Bool) :
    (s.interAcc ds acc n blk).control = s.control := by rfl

@[simp] theorem State.control_blockErr (s : State) (va : W64) : (s.blockErr va).control = s.control := by rfl
@[simp] theorem State.control_drainMine (s : State) : s.drainMine.control = s.control := by simp [State.drainMine]

theorem State.control_spillAll {s t : State} {a : Nat} {es : List RetEntry} (h : s.spillAll a es = .ok t) : t.control = s.control := by
  induction es generalizing s a with
  | nil => cases h; rfl
  | cons e es ih =>
    rw [State.spillAll] at h
    split at h
    · cases h
    · simpa using ih h

theorem State.control_refillAll {s t : State} {a n : Nat} {es : List RetEntry} (h : s.refillAll a n = .ok (es, t)) :
    t.control = s.control := by
  induction n generalizing s a es with
  | zero => cases h; rfl
  | succ n ih =>
    rw [State.refillAll] at h
    split at h
    · cases h
    · split at h
      · cases h
      · rename_i pa _ _ v u loaded
        split at h
        · cases h
        · rename_i rest
          cases h
          have read := State.control_loadVia s s.clNo pa 8
          rw [loaded] at read
          exact (ih rest).trans read

theorem State.control_pushRet {s t : State} {e : RetEntry} (h : s.pushRet e = .ok t) : t.control = s.control := by
  unfold State.pushRet at h
  dsimp only at h
  split at h
  · cases h
    simp
  · split at h
    · cases h
    · split at h
      · cases h
      · split at h
        · cases h
        · rename_i spilled
          cases h
          simpa using State.control_spillAll spilled

theorem State.control_popRet {s t : State} {e : RetEntry} (h : s.popRet = .ok (e, t)) : t.control = s.control := by
  unfold State.popRet at h
  extract_lets c a at h
  split at h
  · cases h
    simp
  · split at h
    · cases h
    · split at h
      · cases h
      · split at h
        · cases h
        · rename_i refilled
          split at h
          · cases h
          · cases h
            simpa using State.control_refillAll refilled

/-! The operations of Machine/Operands. -/

@[simp] theorem State.control_readX (s : State) (n : Nat) : (s.readX n).2.control = s.control := by
  unfold State.readX
  dsimp only
  (repeat' split) <;> simp

@[simp] theorem State.control_readV (s : State) (n : Nat) : (s.readV n).2.control = s.control := by
  unfold State.readV
  dsimp only
  (repeat' split) <;> simp

@[simp] theorem State.control_popAll (s : State) (srcs : List Reg) : (s.popAll srcs).control = s.control := by
  unfold State.popAll
  refine foldl_control _ (fun t r => ?_) _ s
  split <;> simp

/-! The operations of Machine/LoadStore. -/

@[simp] theorem State.control_bump (s : State) (u : BitVec 1) (r : Nat) (base : W64) (n : Int) :
    (s.bump u r base n).control = s.control := by simp [State.bump]

@[simp] theorem State.control_l1Clean (s : State) (cl line : Nat) : (s.l1Clean cl line).control = s.control := by
  unfold State.l1Clean
  dsimp only
  split <;> simp

/-! The operations of Machine/Fetch. -/

theorem State.control_readText {s t : State} {g blk : Nat} (h : s.readText g blk = .ok t) : t.control = s.control := by
  unfold State.readText at h
  split at h
  · cases h
  · split at h
    · cases h
    · cases h
      simp

@[simp] theorem State.control_fetchReads (s : State) (g blk : Nat) : (s.fetchReads g blk).control = s.control := by
  unfold State.fetchReads
  dsimp only
  (repeat' split) <;> simp

theorem State.control_fetchBlock {s t : State} {g blk : Nat} {p : BitVec 2048} (h : s.fetchBlock g blk = .ok (p, t)) :
    t.control = s.control := by
  have opened : State.fetchBlock.go s g blk = .ok (p, t) → t.control = s.control := by
    intro h
    unfold State.fetchBlock.go at h
    split at h
    · cases h
    · cases h
      simp
  unfold State.fetchBlock at h
  split at h
  · split at h
    · cases h; rfl
    · exact opened h
  · exact opened h

/-! The operations of Machine/Rec. -/

theorem State.control_fetchRec {s t : State} {a : Nat} {r : List W64} (h : s.fetchRec a = .ok (r, t)) : t.control = s.control := by
  unfold State.fetchRec at h
  dsimp only at h
  split at h
  · cases h
  · split at h
    · cases h
      rfl
    · split at h
      · cases h
      · split at h
        · cases h
        · cases h
          simp

@[simp] theorem State.control_engNote (s : State) (cl : Nat) (op : Op) (va : Nat) : (s.engNote cl op va).control = s.control := by
  unfold State.engNote
  dsimp only
  (repeat' split) <;> simp

theorem control_andThen {α β : Type} {r : Rd α} {k : α → State → Rd β} (h : ∀ v u, (k v u).2.control = u.control) :
    (r.andThen k).2.control = r.2.control := by
  unfold Rd.andThen
  split
  · rfl
  · exact h _ _

theorem control_readAll {ι α : Type} {f : ι → State → Rd α} (h : ∀ x u, (f x u).2.control = u.control) (xs : List ι) (s : State) :
    (readAll f xs s).2.control = s.control := by
  induction xs generalizing s with
  | nil => rfl
  | cons x xs ih =>
    rw [readAll, control_andThen fun v u => ?_, h]
    rw [control_andThen fun vs w => rfl, ih]

@[simp] theorem State.control_engReadPart (s : State) (cl : Nat) (op : Op) (va n : Nat) :
    (s.engReadPart cl op va n).2.control = s.control := by
  unfold State.engReadPart
  split <;> simp

@[simp] theorem State.control_engRead (s : State) (cl : Nat) (op : Op) (va n : Nat) : (s.engRead cl op va n).2.control = s.control := by
  rw [State.engRead, control_andThen fun vs u => rfl, control_readAll fun p u => State.control_engReadPart ..]

@[simp] theorem State.control_engParts (s : State) (cl : Nat) (op : Op) (ws : List (Nat × Nat × Nat)) :
    (s.engParts cl op ws).1.control = s.control := by
  induction ws generalizing s with
  | nil => rfl
  | cons w ws ih =>
    rw [State.engParts]
    split <;> simp [ih]

@[simp] theorem State.control_engWriteAll (s : State) (cl : Nat) (op : Op) (ws : List (Nat × Nat × Nat)) :
    (s.engWriteAll cl op ws).1.control = s.control := by simp [State.engWriteAll]

@[simp] theorem State.control_engWrite (s : State) (cl : Nat) (op : Op) (va n v : Nat) :
    (s.engWrite cl op va n v).1.control = s.control := by simp [State.engWrite]

@[simp] theorem State.control_dropOpTlb (s : State) (op : Op) : (s.dropOpTlb op).control = s.control := by simp [State.dropOpTlb]
@[simp] theorem State.control_opDone (s : State) (op : Op) : (s.opDone op).control = s.control := by simp [State.opDone]

@[simp] theorem State.control_opFail (s : State) (op : Op) (e : Nat × W64) (side : Nat) : (s.opFail op e side).control = s.control := by
  unfold State.opFail
  dsimp only
  (repeat' split) <;> simp

/-! The operations of Machine/VecMove. -/

@[simp] theorem State.control_setBound (s : State) (g q : Nat) (b : Option Stream) : (s.setBound g q b).control = s.control := by rfl

/-! The operations of Machine/VecMem. -/

@[simp] theorem State.control_vBump (s : State) (u : BitVec 1) (r : BitVec 4) (v : W64) :
    (s.vBump u r v).control = s.control := by simp [State.vBump]

@[simp] theorem State.control_postAll (s : State) (rs : List MemReq) : (s.postAll rs).control = s.control := by simp [State.postAll]

@[simp] theorem State.control_vecRead (s : State) (v reason : Nat) (es : List (W64 × MemOp × W64)) :
    (s.vecRead v reason es).control = s.control := by simp [State.vecRead]

@[simp] theorem State.control_vecWrite (s : State) (es : List (W64 × MemOp × W64)) :
    (s.vecWrite es).control = s.control := by simp [State.vecWrite]

/-! The operations of Machine/Matrix. -/

@[simp] theorem State.control_setEngine (s : State) (cl e : Nat) (x : Engine) : (s.setEngine cl e x).control = s.control := by rfl
@[simp] theorem State.control_takeStamp (s : State) (cl : Nat) : (s.takeStamp cl).2.control = s.control := by rfl

@[simp] theorem State.control_enqueueEng (s : State) (e : Nat) (op : Op) (act : EngDo) :
    (s.enqueueEng e op act).control = s.control := by rfl

@[simp] theorem State.control_withOp {s : State} {k : State → Op → State} (t n : Nat) (h : ∀ u op, (k u op).control = u.control) :
    (s.withOp t n k).control = s.control := by
  unfold State.withOp
  dsimp only
  split <;> simp [h]

@[simp] theorem State.control_landFmt (s : State) (cl : Nat) (f : Nat × Nat × Nat × Nat) : (s.landFmt cl f).control = s.control := by rfl
@[simp] theorem State.control_landFmts (s : State) (g : Nat) : (s.landFmts g).control = s.control := by simp [State.landFmts]
@[simp] theorem State.control_setVBound (s : State) (g q : Nat) (b : Option Stream) : (s.setVBound g q b).control = s.control := by rfl

theorem State.control_useRec {s t : State} {a : Nat} {rights : List Nat} {t3 t6 : List W64 → Bool} {r : List W64}
    (h : s.useRec a rights t3 t6 = .ok (r, t)) : t.control = s.control := by
  unfold State.useRec at h
  split at h
  · cases h
  · rename_i fetched
    (repeat' split at h) <;> cases h
    exact State.control_fetchRec fetched

@[simp] theorem State.control_enqueueLoad (s : State) (op : Op) (x : W64) (n : Nat) (src : LoadFrom) :
    (s.enqueueLoad op x n src).control = s.control := by rfl

/-! The operations of Machine/Net. -/

@[simp] theorem State.control_setPort (s : State) (p : Nat) (x : IczPort) : (s.setPort p x).control = s.control := by rfl

@[simp] theorem State.control_send (s : State) (src dst : Nat) (act : MsgDo) :
    (s.send src dst act).control = s.control := by simp [State.send]

/-! The operations of Machine/Rings. -/

@[simp] theorem State.control_setRing (s : State) (g r : Nat) (x : Ring) : (s.setRing g r x).control = s.control := by rfl

@[simp] theorem State.control_putRow (s : State) (g : Nat) (x : Ring) (a v : Nat) :
    (s.putRow g x a v).control = s.control := by simp [State.putRow]

@[simp] theorem State.control_landZeros (s : State) (g r n : Nat) : (s.landZeros g r n).control = s.control := by
  induction n generalizing s with
  | zero => rfl
  | succ n ih =>
    rw [State.landZeros]
    (repeat' split) <;> simp [ih]

@[simp] theorem State.control_leaveSource (s : State) (g : Nat) (x : Ring) : (s.leaveSource g x).control = s.control := by
  unfold State.leaveSource
  dsimp only
  (repeat' split) <;> simp

@[simp] theorem State.control_orphan (s : State) (g r : Nat) (x : Ring) (i : Nat) : (s.orphan g r x i).control = s.control := by
  unfold State.orphan
  dsimp only
  (repeat' split) <;> simp

@[simp] theorem State.control_freeRing (s : State) (g r : Nat) (x : Ring) (ops : List Op) : (s.freeRing g r x ops).control = s.control := by
  unfold State.freeRing
  extract_lets t u v c
  have dropped : t.control = s.control := by
    refine foldl_control _ (fun w c => ?_) _ s
    split <;> simp
  have unbound : u.control = t.control := by
    simp only [u]
    split <;> simp
  have left : v.control = u.control := by
    simp only [v]
    (repeat' split) <;> simp
  simp [left, unbound, dropped]

@[simp] theorem State.control_ringCmdStep (s : State) (g r : Nat) (x : Ring) (k : Nat) (op : Op) (w : RingWait) :
    (s.ringCmdStep g r x k op w).control = s.control := by
  unfold State.ringCmdStep
  split
  · dsimp only
    split
    · simp
    · split
      · rfl
      · split
        · simp
        · split
          · split <;> simp
          · simp
  · (repeat' split) <;> simp
  · split <;> simp
  · rfl

@[simp] theorem State.control_ringTurn (s : State) (g r : Nat) : (s.ringTurn g r).control = s.control := by
  unfold State.ringTurn
  dsimp only
  split
  · simp
  · split <;> simp

@[simp] theorem State.control_ringSettle (s : State) (g r : Nat) : (s.ringSettle g r).control = s.control := by
  unfold State.ringSettle
  extract_lets turns t u
  have turned : u.control = s.control := by simp [u, t]
  split
  · exact turned
  · extract_lets done x v
    have retired : v.control = s.control := by simp [v, turned]
    (repeat' split) <;> simp [retired]

/-! The operations of Machine/Remote. -/

@[simp] theorem State.control_winFail (s : State) (op : Op) (code : Nat) :
    (s.winFail op code).control = s.control := by simp [State.winFail]

@[simp] theorem State.control_sendPacket (s : State) (cl : Nat) (p : Packet) : (s.sendPacket cl p).control = s.control := by
  unfold State.sendPacket
  dsimp only
  split <;> simp

@[simp] theorem State.control_launchPacket (s : State) (cl : Nat) (p : Packet) :
    (s.launchPacket cl p).control = s.control := by simp [State.launchPacket]

@[simp] theorem State.control_awaitFar (s : State) (cl : Nat) (op : Op) (dst : Nat) :
    (s.awaitFar cl op dst).control = s.control := by simp [State.awaitFar]

@[simp] theorem State.control_sendPart (s : State) (cl win : Nat) (p : WinPart) (act : WinPart → MsgDo) :
    (s.sendPart cl win p act).control = s.control := by simp [State.sendPart]

@[simp] theorem State.control_winAct (s : State) (cl : Nat) (w : WinWait) : (s.winAct cl w).control = s.control := by
  unfold State.winAct
  dsimp only
  split <;> simp

@[simp] theorem State.control_settleWaits (s : State) (cl : Nat) : (s.settleWaits cl).control = s.control := by simp [State.settleWaits]

@[simp] theorem State.control_bufCheck (s : State) (cl : Nat) (op : Op) (va n : Nat) (acc : Acc) :
    (s.bufCheck cl op va n acc).2.control = s.control := by
  unfold State.bufCheck
  refine List.foldlRecOn (motive := fun r : Option (Nat × W64) × State => r.2.control = s.control) _ _ rfl fun r h p _ => ?_
  (repeat' split) <;> simpa using h

@[simp] theorem State.control_sendAccess (s : State) (op : Op) (kind : RemKind) (rank win off n data back : Nat) (ordered : Bool)
    (tag : Tag) (ra : W64) (entry : Option (Nat × W64)) (row : Option Nat) (late : Bool) :
    (s.sendAccess op kind rank win off n data back ordered tag ra entry row late).control = s.control := by simp [State.sendAccess]

@[simp] theorem State.control_remoteGo (s : State) (kind : RemKind) (multi : Nat) (lw ra : W64) (n : Nat) (r : List W64) (op : Op) :
    (s.remoteGo kind multi lw ra n r op).control = s.control := by
  have checked : ∀ (b : Bool) (u : State) (e : Option (Nat × W64)) va n acc,
      (if b then u.bufCheck s.clNo op va n acc else (e, u)).2.control = u.control := by
    intro b u e va n acc
    split <;> simp
  unfold State.remoteGo
  extract_lets cl va span
  split
  rename_i e u hu
  have first : u.control = s.control := (congrArg (·.2.control) hu).symm.trans (checked kind.readsL s none va span .read)
  split
  rename_i e' w hw
  have second : w.control = s.control :=
    ((congrArg (·.2.control) hw).symm.trans (checked (e.isNone && kind.writesL) u e va span .write)).trans first
  split
  · simp [second]
  · split
    · split
      · simp [second]
      · rename_i v _ _
        have written := State.control_engWrite w cl op va n v
        split <;> rename_i hz <;> rw [hz] at written <;> simpa [second] using written
    · have read : (if kind.readsL then w.engRead cl op va span else (.ok 0, w)).2.control = w.control := by
        split <;> simp
      split <;> rename_i hz <;> rw [hz] at read <;> simpa [second] using read

@[simp] theorem State.control_settleTokens (s : State) (cl : Nat) : (s.settleTokens cl).control = s.control := by simp [State.settleTokens]
@[simp] theorem State.control_revoke (s : State) (cl ix : Nat) : (s.revoke cl ix).control = s.control := by simp [State.revoke]

/-! The operations of Machine/Windows. -/

@[simp] theorem State.control_setFrank (s : State) (cl w : Nat) (f : Frank) : (s.setFrank cl w f).control = s.control := by rfl
@[simp] theorem State.control_takePlace (s : State) (w : Nat) : (s.takePlace w).2.control = s.control := by rfl

@[simp] theorem State.control_toTeam (s : State) (kind win k : Nat) (p : WinPart) :
    (s.toTeam kind win k p).control = s.control := by simp [State.toTeam]

@[simp] theorem State.control_deadPart (kind w : Nat) (s : State) (op : Op) :
    (State.deadPart kind w s op).control = s.control := by simp [State.deadPart]

@[simp] theorem State.control_waitFor (s : State) (cl : Nat) (w : WinWait) : (s.waitFor cl w).control = s.control := by simp [State.waitFor]

@[simp] theorem State.control_settleStarts (s : State) (cl : Nat) : (s.settleStarts cl).control = s.control := by
  unfold State.settleStarts
  refine foldl_control _ (fun t e => ?_) _ s
  split
  · rfl
  · dsimp only
    split <;> simp

@[simp] theorem State.control_settleExposure (s : State) (cl w : Nat) : (s.settleExposure cl w).control = s.control := by
  unfold State.settleExposure
  dsimp only
  split <;> simp

/-! The operations of Machine/Sort. -/

@[simp] theorem State.control_setOffice (s : State) (cl : Nat) (l : List SortCmd) : (s.setOffice cl l).control = s.control := by rfl
@[simp] theorem State.control_mapCmd (s : State) (c : SortCmd) (f : SortCmd → SortCmd) : (s.mapCmd c f).control = s.control := by rfl
@[simp] theorem State.control_dropCmd (s : State) (c : SortCmd) : (s.dropCmd c).control = s.control := by rfl

@[simp] theorem State.control_sendNote (s : State) (cl : Nat) (w : W64) (n : HeadNote) :
    (s.sendNote cl w n).control = s.control := by simp [State.sendNote]

@[simp] theorem State.control_announce (s : State) (cl ch : Nat) : (s.announce cl ch).control = s.control := by
  unfold State.announce
  (repeat' split) <;> simp

theorem State.control_getRecs {s t : State} {hs : List (Nat × List Nat × (List W64 → Bool))} {rs : List (List W64)}
    (h : s.getRecs hs = .ok (rs, t)) : t.control = s.control := by
  induction hs generalizing s rs with
  | nil => cases h; rfl
  | cons x hs ih =>
    rw [State.getRecs] at h
    split at h
    · cases h
    · rename_i used
      split at h
      · cases h
      · rename_i rest
        cases h
        exact (ih rest).trans (State.control_useRec used)

@[simp] theorem State.control_takeComm (s : State) (id : Nat) : (s.takeComm id).2.control = s.control := by rfl

@[simp] theorem State.control_joinOffice (s : State) (fn : Nat) (b : List W64) (rs : List (List W64)) (op : Op) (dead : Bool) :
    (s.joinOffice fn b rs op dead).control = s.control := by simp [State.joinOffice]

@[simp] theorem State.control_cancelAt (s : State) (cl id : Nat) : (s.cancelAt cl id).control = s.control := by simp [State.cancelAt]

/-! The operations of Machine/Sync. -/

@[simp] theorem State.control_setBar (s : State) (cl o : Nat) (b : Bar) : (s.setBar cl o b).control = s.control := by rfl
@[simp] theorem State.control_status (s : State) (d : BitVec 6) (n : Nat) : (s.status d n).control = s.control := by rfl
@[simp] theorem State.control_invTlb (s : State) (cl a n : Nat) : (s.invTlb cl a n).control = s.control := by simp [State.invTlb]

/-! The operations of Machine/Tasks. -/

@[simp] theorem State.control_countOp (s : State) (site i : Nat) : (s.countOp site i).control = s.control := by rfl

@[simp] theorem State.control_qTake (s : State) (site i g : Nat) : (s.qTake site i g).2.control = s.control := by
  unfold State.qTake
  dsimp only
  (repeat' split) <;> simp

@[simp] theorem State.control_qSettle (s : State) (site i n : Nat) : (s.qSettle site i n).control = s.control := by
  induction n generalizing s with
  | zero => rfl
  | succ n ih =>
    rw [State.qSettle]
    split
    · rfl
    · rename_i g _
      have taken := State.control_qTake s site i g
      split <;> rename_i e <;> rw [e] at taken
      · exact taken
      · simpa [ih] using taken

@[simp] theorem State.control_popResult (s : State) (heap : Bool) (site ix : Nat) (d : BitVec 6) (c : BitVec 3) (a : Bool × W64)
    (waiting : Bool) : (s.popResult heap site ix d c a waiting).control = s.control := by simp [State.popResult]

@[simp] theorem State.control_keepAt (s : State) (g : Nat) (l : Keep) : (s.keepAt g l).control = s.control := by
  unfold State.keepAt
  split
  · simp
  · simp
  · dsimp only
    split <;> simp

@[simp] theorem State.control_mapWaits (s : State) (f : List Waiter → List Waiter) : (s.mapWaits f).control = s.control := by rfl
@[simp] theorem State.control_withdraw (s : State) (g : Nat) : (s.withdraw g).control = s.control := by rfl

/-! The operations of Machine/Landing. -/

@[simp] theorem State.control_takeDeferred (s : State) (g : Nat) (t : Trap) :
    (s.takeDeferred g t).control = s.control := by simp [State.takeDeferred]

@[simp] theorem State.control_takeMemErr (s : State) (g : Nat) (t : Trap) :
    (s.takeMemErr g t).control = s.control := by simp [State.takeMemErr]

@[simp] theorem State.control_takeTaskFault (s : State) (g : Nat) (t : Trap) :
    (s.takeTaskFault g t).control = s.control := by simp [State.takeTaskFault]

/-! The operations of Machine/Control. -/

@[simp] theorem State.control_transfer (s : State) (a : W64) : (s.transfer a).control = s.control := by rfl

/-! The operations of Machine/Sequencer. -/

@[simp] theorem State.control_partEnded (s : State) : s.partEnded.control = s.control := by rfl
@[simp] theorem State.control_seqTrap (s : State) (t : Trap) : (s.seqTrap t).control = s.control := by simp [State.seqTrap]

@[simp] theorem State.control_enterPart (s : State) (part a : Nat) (fresh : Bool) : (s.enterPart part a fresh).control = s.control := by
  unfold State.enterPart
  split
  · rfl
  · simp
  · rename_i pushed
    simpa using State.control_pushRet pushed

@[simp] theorem State.control_seqRecord (s : State) : s.seqRecord.control = s.control := by
  unfold State.seqRecord
  dsimp only
  split <;> simp

@[simp] theorem State.control_seqEnter (s : State) : s.seqEnter.control = s.control := by simp [State.seqEnter]

@[simp] theorem State.control_seqCond (s : State) : s.seqCond.control = s.control := by
  unfold State.seqCond
  extract_lets q a done
  have kept : ∀ t w, (done t w).control = t.control := fun t w => rfl
  split
  · exact kept _ _
  · split
    · simp
    · rename_i pa _
      have loaded := State.control_loadVia s s.clNo pa 8
      split
      · simp
      · rename_i e
        rw [e] at loaded
        exact (kept _ _).trans loaded

@[simp] theorem State.control_seqChoose (s : State) : s.seqChoose.control = s.control := by simp [State.seqChoose]

@[simp] theorem State.control_seqReload (s : State) : s.seqReload.control = s.control := by
  unfold State.seqReload
  dsimp only
  (repeat' split) <;> simp

@[simp] theorem State.control_seqStep (s : State) : s.seqStep.control = s.control := by
  unfold State.seqStep
  dsimp only
  split <;> simp

/-! The operations of Machine/Letters. -/

@[simp] theorem State.control_setPb (s : State) (p : Nat) (b : PostBox) : (s.setPb p b).control = s.control := by rfl
@[simp] theorem State.control_putRecord (s : State) (r : Record) : (s.putRecord r).control = s.control := by simp [State.putRecord]

@[simp] theorem State.control_writeRecord (s : State) (p : Nat) (r : Record) :
    (s.writeRecord p r).control = s.control := by simp [State.writeRecord]

@[simp] theorem State.control_mapLetter (s : State) (p id : Nat) (f : Letter → Letter) : (s.mapLetter p id f).control = s.control := by rfl

@[simp] theorem State.control_retireLetter (s : State) (p id : Nat) : (s.retireLetter p id).control = s.control := by
  unfold State.retireLetter
  dsimp only
  split <;> simp

@[simp] theorem State.control_tryRetire (s : State) (p id : Nat) : (s.tryRetire p id).control = s.control := by
  unfold State.tryRetire
  (repeat' split) <;> simp

/-! The operations of Machine/Slice. -/

@[simp] theorem State.control_lsPower (s : State) (cl b p : Nat) : (s.lsPower cl b p).control = s.control := by simp [State.lsPower]
@[simp] theorem State.control_lsOn (s : State) (cl b : Nat) : (s.lsOn cl b).control = s.control := by simp [State.lsOn]

@[simp] theorem State.control_startRetire (s : State) (cl ch : Nat) : (s.startRetire cl ch).control = s.control := by
  unfold State.startRetire
  dsimp only
  split <;> simp

@[simp] theorem State.control_retire (s : State) (cl ch : Nat) : (s.retire cl ch).control = s.control := by simp [State.retire]
@[simp] theorem State.control_retireGo (s : State) (cl : Nat) : (s.retireGo cl).control = s.control := by simp [State.retireGo]
@[simp] theorem State.control_wakeGoverned (s : State) (cl : Nat) : (s.wakeGoverned cl).control = s.control := by simp [State.wakeGoverned]

/-! The operations of Machine/Csr. -/

@[simp] theorem State.control_clearCe (s : State) (cl : Nat) : (s.clearCe cl).control = s.control := by rfl
@[simp] theorem State.control_clearMerr (s : State) (cl : Nat) : (s.clearMerr cl).control = s.control := by rfl
@[simp] theorem State.control_clearRtc (s : State) (cl : Nat) : (s.clearRtc cl).control = s.control := by rfl
@[simp] theorem State.control_clearPm (s : State) (p : Nat) : (s.clearPm p).control = s.control := by rfl

@[simp] theorem State.control_csrClear (s : State) (n : Nat) : (s.csrClear n).control = s.control := by
  unfold State.csrClear
  dsimp only
  split <;> simp

@[simp] theorem State.control_setLsBounds (s : State) (cl lo hi : Nat) :
    (s.setLsBounds cl lo hi).control = s.control := by simp [State.setLsBounds]

@[simp] theorem State.control_setBankPower (s : State) (cl b v : Nat) :
    (s.setBankPower cl b v).control = s.control := by simp [State.setBankPower]

@[simp] theorem State.control_setLsPwr (s : State) (cl j : Nat) (v : W64) :
    (s.setLsPwr cl j v).control = s.control := by simp [State.setLsPwr]

@[simp] theorem State.control_dropTlb (s : State) (cl : Nat) : (s.dropTlb cl).control = s.control := by simp [State.dropTlb]

@[simp] theorem State.control_setPtroot (s : State) (cl : Nat) (v : W64) :
    (s.setPtroot cl v).control = s.control := by simp [State.setPtroot]

@[simp] theorem State.control_stopCtx (s : State) (g : Nat) : (s.stopCtx g).control = s.control := by rfl
@[simp] theorem State.control_killCtx (s : State) (g : Nat) : (s.killCtx g).control = s.control := by simp [State.killCtx]
@[simp] theorem State.control_setWqcfg (s : State) (site i : Nat) (v : W64) : (s.setWqcfg site i v).control = s.control := by rfl
@[simp] theorem State.control_writeHeap (s : State) (n : Nat) (v : W64) : (s.writeHeap n v).control = s.control := by rfl

@[simp] theorem State.control_writeLow (s : State) (n : Nat) (v : W64) : (s.writeLow n v).control = s.control := by
  unfold State.writeLow
  dsimp only
  split <;> simp

@[simp] theorem State.control_writeMemReg (s : State) (n : Nat) (v : W64) : (s.writeMemReg n v).control = s.control := by
  unfold State.writeMemReg
  dsimp only
  split <;> simp

@[simp] theorem State.control_writeSchedReg (s : State) (n : Nat) (v : W64) : (s.writeSchedReg n v).control = s.control := by
  unfold State.writeSchedReg
  dsimp only
  split <;> simp

@[simp] theorem State.control_dropRtc (s : State) (cl : Nat) : (s.dropRtc cl).control = s.control := by rfl

@[simp] theorem State.control_writeFabReg (s : State) (n : Nat) (v : W64) : (s.writeFabReg n v).control = s.control := by
  unfold State.writeFabReg
  dsimp only
  split <;> simp

@[simp] theorem State.control_answerSeal (s : State) (site : Nat) (done : Bool) : (s.answerSeal site done).control = s.control := by
  unfold State.answerSeal
  dsimp only
  (repeat' split) <;> simp

@[simp] theorem State.control_writeKeyReg (s : State) (n : Nat) (v : W64) : (s.writeKeyReg n v).control = s.control := by
  unfold State.writeKeyReg
  dsimp only
  split <;> simp

@[simp] theorem State.control_csrWrite (s : State) (n : Nat) (v : W64) : (s.csrWrite n v).control = s.control := by simp [State.csrWrite]

/-! The operations of Machine/Segment. -/

@[simp] theorem State.control_noteVerified (s : State) (cl : Nat) (h : SegHdr) : (s.noteVerified cl h).control = s.control := by rfl

@[simp] theorem State.control_putBlock (s : State) (cl pa v : Nat) : (s.putBlock cl pa v).control = s.control := by
  unfold State.putBlock
  dsimp only
  split <;> simp

theorem State.control_putConsts {s t : State} {cl : Nat} {a : Agent} {va : Nat} {ps : List Nat} (h : s.putConsts cl a va ps = .ok t) :
    t.control = s.control := by
  induction ps generalizing s va with
  | nil => cases h; rfl
  | cons p ps ih =>
    rw [State.putConsts] at h
    split at h
    · cases h
    · simpa using ih h

theorem State.control_ownLoads {s t : State} {va n : Nat} {ws : List W64} (h : s.ownLoads va n = .ok (ws, t)) : t.control = s.control := by
  induction n generalizing s va ws with
  | zero => cases h; rfl
  | succ n ih =>
    rw [State.ownLoads] at h
    split at h
    · cases h
    · rename_i pa _
      have read := State.control_loadVia (s.noteTlb s.clNo (s.agentOf s.cur) false va) s.clNo pa 8
      split at h
      · cases h
      · rename_i loaded
        rw [loaded] at read
        split at h
        · cases h
        · rename_i rest
          cases h
          exact (ih rest).trans (by simpa using read)

theorem State.control_ownStores {s t : State} {va : Nat} {vs : List Nat} (h : s.ownStores va vs = .ok t) : t.control = s.control := by
  induction vs generalizing s va with
  | nil => cases h; rfl
  | cons v vs ih =>
    rw [State.ownStores] at h
    split at h
    · cases h
    · simpa using ih h

theorem State.control_segsealBlock {s t : State} {patch : Bool} {h : SegHdr} {slot i : Nat} (done : s.segsealBlock patch h slot i = .ok t) :
    t.control = s.control := by
  unfold State.segsealBlock at done
  split at done
  · cases done
  · rename_i read
    split at done
    · cases done
    · rename_i readTag
      extract_lets v key plain at done
      generalize plain = text at done
      split at done
      · cases done
      · dsimp only at done
        split at done
        · cases done
        · rename_i stored
          exact (State.control_ownStores done).trans ((State.control_ownStores stored).trans
            ((State.control_ownLoads readTag).trans (State.control_ownLoads read)))

@[simp] theorem State.control_segsealRun (s : State) (patch : Bool) (h : SegHdr) (slot i n : Nat) :
    (s.segsealRun patch h slot i n).1.control = s.control := by
  induction n generalizing s i with
  | zero => rfl
  | succ n ih =>
    rw [State.segsealRun]
    split
    · rfl
    · rename_i done
      exact (ih _ _).trans (State.control_segsealBlock done)

theorem State.control_sealHeader {s t : State} {patch : Bool} {h : SegHdr} (read : s.sealHeader patch = .ok (h, t)) :
    t.control = s.control := by
  unfold State.sealHeader at read
  split at read
  · cases read
  · rename_i words
    cases patch with
    | false =>
      cases read
      exact State.control_ownLoads words
    | true =>
      dsimp only [if_true] at read
      split at read
      · cases read
      · rename_i patches
        cases read
        exact (State.control_ownLoads patches).trans (State.control_ownLoads words)

@[simp] theorem State.control_drainEvery (s : State) : s.drainEvery.control = s.control := by simp [State.drainEvery]

@[simp] theorem State.control_reseal (s : State) (i : Issue) : (s.reseal i).control = s.control := by
  unfold State.reseal
  split
  · rfl
  · split
    · rfl
    · rename_i read
      simpa using State.control_sealHeader read

/-! The operations of Machine/KeySlots. -/

@[simp] theorem State.control_putLsWords (s : State) (a : Nat) (ws : List W64) :
    (s.putLsWords a ws).control = s.control := by simp [State.putLsWords]

@[simp] theorem State.control_setSlot (s : State) (site k : Nat) (y : KeySlot) : (s.setSlot site k y).control = s.control := by rfl
@[simp] theorem State.control_stopRotation (s : State) (site k : Nat) : (s.stopRotation site k).control = s.control := by rfl

@[simp] theorem State.control_zeroiseSlot (s : State) (site k : Nat) :
    (s.zeroiseSlot site k).control = s.control := by simp [State.zeroiseSlot]

@[simp] theorem State.control_bindSlot (s : State) (k : Nat) (y : W64) (first count sess : Nat) (rs : List W64) :
    (s.bindSlot k y first count sess rs).control = s.control := by simp [State.bindSlot]

/-! The operations of Machine/LateFx. -/

@[simp] theorem State.control_landLate (s : State) (l : Late) : (s.landLate l).control = s.control := by
  unfold State.landLate
  dsimp only
  (repeat' split) <;> simp

@[simp] theorem State.control_keepWaiting (s : State) (i : Issue) : (s.keepWaiting i).control = s.control := by
  unfold State.keepWaiting
  (repeat' split) <;> simp

/-! The operations of Machine/Bundle. -/

@[simp] theorem State.control_spend (s : State) (st : CState) : (s.spend st).control = s.control := by simp [State.spend]
@[simp] theorem State.control_heldStep (s : State) (st : CState) : (s.heldStep st).control = s.control := by simp [State.heldStep]
@[simp] theorem State.control_waitStep (s : State) (n : Nat) : (s.waitStep n).control = s.control := by simp [State.waitStep]
@[simp] theorem State.control_markWaiting (s : State) (b : Bool) : (s.markWaiting b).control = s.control := by rfl
@[simp] theorem State.control_heldHere (s : State) : s.heldHere.control = s.control := by rfl

/-- The merge stage takes the bundle's outcome t, or keeps s. -/
theorem State.agenda_select {s t : State} (use : List (Nat × Nat)) (h : t.agenda = s.agenda) : (s.select t use).agenda = s.agenda := by
  have kept : s.heldHere.agenda = s.agenda := rfl
  unfold State.select
  dsimp only
  (repeat' split) <;> simp only [State.setMe, State.setCtx, State.setCl, kept, h]

theorem State.agenda_chosen {s t : State} (h : t.agenda = s.agenda) : (s.chosen t).agenda = s.agenda := by
  unfold State.chosen
  split
  · exact h
  · exact State.agenda_select _ h

@[simp] theorem State.control_unyield (s : State) : s.unyield.control = s.control := by rfl

end Sys2Proof.Machine
end

section
/-! SUPPORT. A slot answers a next state whatever the state, and leaves the agenda; one that only the shared checks guard goes on past them (O53, O55). -/
namespace Sys2Proof.Machine

/-- What the stepping decides by, of a next state; none for a stop. -/
def nextControl : Out → Option (List Instr × Verdict)
  | .next t => some t.control
  | _ => none

/-- The agenda of a next state; none for a stop. -/
def nextAgenda : Out → Option (List Instr)
  | .next t => some t.control.1
  | _ => none

@[simp] theorem nextControl_next (t : State) : nextControl (.next t) = some t.control := by rfl
@[simp] theorem nextAgenda_next (t : State) : nextAgenda (.next t) = some t.control.1 := by rfl

@[simp] theorem nextControl_ite (p : Prop) [Decidable p] (a b : Out) :
    nextControl (if p then a else b) = if p then nextControl a else nextControl b := apply_ite nextControl p a b

@[simp] theorem nextAgenda_ite (p : Prop) [Decidable p] (a b : Out) :
    nextAgenda (if p then a else b) = if p then nextAgenda a else nextAgenda b := apply_ite nextAgenda p a b

theorem nextAgenda_of_control {s : State} {o : Out} (h : nextControl o = some s.control) : nextAgenda o = some s.control.1 := by
  cases o with
  | next t => exact congrArg (·.map Prod.fst) h
  | fault f => cases h
  | refused r => cases h

@[simp] theorem nextAgenda_trapNow (s : State) (t : Trap) : nextAgenda (s.trapNow t) = some s.control.1 := by
  have entered : ∀ t, ((s.logTrap s.cur t).trapEntry s.cur t s.issue.bpc).control = s.control := by simp
  exact congrArg (fun c => some c.1) (entered _)

@[simp] theorem nextAgenda_hold (s : State) (c : CState) : nextAgenda (s.hold c) = some s.control.1 := by rfl
@[simp] theorem nextAgenda_holdWait (s : State) (k : Option Keep) : nextAgenda (s.holdWait k) = some s.control.1 := by rfl

@[simp] theorem nextControl_postTrap (s : State) (cause reason : Nat) : nextControl (s.postTrap cause reason) = some s.control := by
  simp [State.postTrap]

theorem nextAgenda_gate {s : State} {k : State → Out} (lvl : Nat) (srcs dsts : List Reg) (peek : Option Reg)
    (h : nextAgenda (k s) = some s.control.1) : nextAgenda (gate lvl srcs dsts s k peek) = some s.control.1 := by
  unfold gate
  split <;> simp [h]

/-- A further check that stops the slot leaves the agenda, as what follows it does. -/
@[simp] theorem nextAgenda_andThen (c : Option Stop) (s : State) (k : State → Out) :
    nextAgenda (andThen c s k) = if c.isNone then nextAgenda (k s) else some s.control.1 := by
  unfold andThen
  split <;> simp

theorem nextAgenda_engGate {s : State} {k : State → Out} (srcs dsts : List Reg) (h : nextAgenda (k s.drainLs) = some s.control.1) :
    nextAgenda (engGate srcs dsts s k) = some s.control.1 := nextAgenda_gate _ _ _ _ h

/-- The slot goes on where the checks that all slots share pass, and answers a next state in any case. -/
def Completes (i : Instr) (s : State) : Prop :=
  (s.issueCheck (shape i).level (shape i).srcs (shape i).dsts (shape i).peek = none → nextControl (exec i s) = some s.control) ∧
    nextAgenda (exec i s) = some s.control.1

theorem completes_of_gate {i : Instr} {s : State} {k : State → Out}
    (e : ∀ s, exec i s = gate (shape i).level (shape i).srcs (shape i).dsts s k (shape i).peek)
    (h : nextControl (k s) = some s.control) : Completes i s := by
  rw [Completes, e]
  exact ⟨fun ready => by rw [gate_peek_pass _ ready, h], nextAgenda_gate _ _ _ _ (nextAgenda_of_control h)⟩

theorem agenda_of_gate {i : Instr} {s : State} {lvl : Nat} {srcs dsts : List Reg} {peek : Option Reg} {k : State → Out}
    (e : ∀ s, exec i s = gate lvl srcs dsts s k peek) (h : nextAgenda (k s) = some s.control.1) :
    nextAgenda (exec i s) = some s.control.1 := by
  rw [e]
  exact nextAgenda_gate _ _ _ _ h

@[simp] theorem nextControl_landV (s : State) (L d : Nat) (p : W64) (old : V2048) (f : Nat → W32 × Flags) :
    nextControl (s.landV L d p old f) = some s.control := by simp [State.landV]

@[simp] theorem nextAgenda_issueMem {s : State} {k : State → State} (r : MemReq) (d : Option Nat)
    (hk : ∀ u, (k u).control = u.control) :
    nextAgenda (s.issueMem r d k) = some s.control.1 := by
  unfold State.issueMem
  dsimp only
  split
  · simp
  · cases d <;> simp [hk]

@[simp] theorem nextAgenda_loadTo {s : State} {k : State → State} (z : Nat) (va : W64) (d : Nat)
    (hk : ∀ u, (k u).control = u.control) :
    nextAgenda (s.loadTo z va d k) = some s.control.1 := by
  unfold State.loadTo
  split <;> simp [hk]

@[simp] theorem nextAgenda_amoDo (op : AmoOp) (va b d : W64) (dst : Nat) (s : State) :
    nextAgenda (amoDo op va b d dst s) = some s.control.1 := by
  unfold amoDo
  split <;> simp

theorem nextAgenda_amo (op : AmoOp) (d a b : BitVec 6) (s : State) : nextAgenda (amo op d a b s) = some s.control.1 :=
  nextAgenda_gate _ _ _ _ (by simp)

@[simp] theorem nextAgenda_retFails (s : State) (t : Option Trap) : nextAgenda (s.retFails t) = some s.control.1 := by
  cases t <;> simp [State.retFails]

@[simp] theorem nextAgenda_callTo (s : State) (a : W64) : nextAgenda (s.callTo a) = some s.control.1 := by
  unfold State.callTo
  split
  · simp
  · rename_i pushed
    simp [State.control_pushRet pushed]

theorem nextAgenda_mst (kind : MstKind) (fmt : Nat) (t k : BitVec 3) (y : BitVec 6) (s : State) :
    nextAgenda (mst kind fmt t k y s) = some s.control.1 := by
  refine nextAgenda_engGate _ _ ?_
  dsimp only
  rw [nextAgenda_andThen]
  split
  · split
    · simp
    · rename_i used
      simp [State.control_useRec used]
  · simp

theorem nextAgenda_ringCmd {t : BitVec 3} {x : BitVec 6} {s : State} {k : State → Nat → Ring → Op → State}
    (hk : ∀ u r g op, (k u r g op).control = u.control) : nextAgenda (ringCmd t x s k) = some s.control.1 := by
  unfold ringCmd
  dsimp only
  split <;> simp [hk]

theorem nextAgenda_winCmd {t : BitVec 3} {rel : Bool} {k dead : State → Op → State} {s u : State} (hu : u.control = s.control)
    (hk : ∀ v op, (k v op).control = v.control) (hd : ∀ v op, (dead v op).control = v.control) :
    nextAgenda (winCmd t rel k u dead) = some s.control.1 := by
  unfold winCmd
  simp only [nextAgenda_andThen, nextAgenda_next]
  (repeat' split) <;> simp [hk, hd, hu]

theorem nextAgenda_remote (kindOf : W64 → RemKind) (bad : W64 → Bool) (multi : W64 → Nat) (t : BitVec 3) (x : BitVec 6) (y : BitVec 4)
    (s : State) : nextAgenda (remote kindOf bad multi t x y s) = some s.control.1 := by
  have given : ∀ (lw ra : W64) (n : Nat) (r : List W64) (u : State) (op : Op),
      (if bad lw then u.opFail op (12, ra) else u.remoteGo (kindOf lw) (multi lw) lw ra n r op).control = u.control := by
    intro lw ra n r u op
    split <;> simp
  refine nextAgenda_engGate _ _ ?_
  dsimp only
  split
  · simp
  · split
    · simp
    · rename_i used
      simp [State.control_useRec used, given]

theorem nextAgenda_sortCmd (fn : Nat) (t : BitVec 3) (x : BitVec 6) (s : State) : nextAgenda (sortCmd fn t x s) = some s.control.1 := by
  refine nextAgenda_engGate _ _ ?_
  dsimp only
  split
  · simp
  · split
    · simp
    · rename_i got
      have read := State.control_getRecs got
      simp only [nextAgenda_andThen]
      (repeat' split) <;> simp [read]

theorem nextAgenda_segseal (patch : Bool) (a b : BitVec 6) (s : State) : nextAgenda (segseal patch a b s) = some s.control.1 := by
  refine nextAgenda_gate _ _ _ _ ?_
  dsimp only
  split
  · simp
  · split
    · simp
    · rename_i h u read
      have header : u.control = s.control := by simpa using State.control_sealHeader read
      split
      · simp [header]
      · generalize he : u.segsealRun patch h u.mySite.sealSlot _ _ = run
        have ran : run.1.control = s.control := by rw [← he, State.control_segsealRun, header]
        split
        · exact congrArg (fun c => some c.1) ran
        · simpa using congrArg Prod.fst ran

theorem nextAgenda_kslotOp {n rd : Nat} {d a b : BitVec 6} {s : State} {k : State → Nat → Nat → W64 → Nat × State}
    (hk : ∀ u op x y, (k u op x y).2.control = u.control) : nextAgenda (kslotOp n rd d a b s k) = some s.control.1 := by
  refine nextAgenda_gate _ _ _ _ ?_
  dsimp only
  split
  · simp
  · simp [hk]

theorem nextAgenda_barOp {s : State} {k : State → Nat → Nat → W64 → Out} (d a b : BitVec 6)
    (h : ∀ u cl o y, nextAgenda (k u cl o y) = some u.control.1) : nextAgenda (barOp d a b s k) = some s.control.1 :=
  nextAgenda_gate _ _ _ _ (by simp [h])

theorem completes_vqpk (d : BitVec 5) (q : BitVec 2) (p : BitVec 3) (s : State) : Completes (.vqpk d q p) s :=
  completes_of_gate (fun s => by rw [shape, Nat.mod_eq_of_lt q.isLt]; rfl) (by simp)

theorem completes_qtry (d a : BitVec 6) (c : BitVec 3) (s : State) : Completes (.qtry d a c) s := by
  refine completes_of_gate (fun _ => rfl) ?_
  have taken := (s.readX a.toNat).2.control_qTake (qSite (s.readX a.toNat).1) (qIx (s.readX a.toNat).1) (s.readX a.toNat).2.cur
  rw [State.control_readX] at taken
  dsimp only
  split
  · simp
  · split
    all_goals
      rename_i answer
      rw [answer] at taken
      simp [taken]

theorem completes_barOp {i : Instr} {k : State → Nat → Nat → W64 → Out} (d a b : BitVec 6)
    (e : ∀ s, exec i s = barOp d a b s k) (sh : shape i = { cls := .sync, srcs := [.x a.toNat, .x b.toNat], dsts := [.x d.toNat] })
    (h : ∀ u cl o y, nextControl (k u cl o y) = some u.control) (s : State) : Completes i s := by
  refine completes_of_gate (fun s => (e s).trans (by rw [sh]; rfl)) ?_
  simp [h]

theorem completes_barv (d a b : BitVec 6) (s : State) : Completes (.barv d a b) s := by
  have e : ∀ s, execBarv d a b s = barOp d a b s _ := fun _ => rfl
  refine completes_barOp (i := .barv d a b) d a b e rfl (fun u cl o y => ?_) s
  rcases hst : Bar.status ((u.cl cl).bar o) (u.cl cl).liveCount (u.cl cl).gone (fld y 0 32) with _ | _ | _ | st
  all_goals simp [hst]

theorem completes_of_takesEffect {i : Instr} (h : takesEffect i = true) (s : State) : Completes i s := by
  cases i
  case nop => exact ⟨fun _ => rfl, rfl⟩
  case ext => exact ⟨fun _ => rfl, rfl⟩
  case vqpk d q p => exact completes_vqpk d q p s
  case qtry d a c => exact completes_qtry d a c s
  case barv d a b => exact completes_barv d a b s
  case tlerr =>
    refine completes_of_gate (fun _ => rfl) ?_
    split <;> simp
  case pref | oclaim | orelease | wrstat | qcancel =>
    refine completes_of_gate (fun _ => rfl) ?_
    dsimp only
    (repeat' split) <;> simp
  all_goals cases h
  all_goals
    refine completes_of_gate (fun _ => rfl) ?_
    simp

theorem nextAgenda_andThen_of {s : State} {c : Option Stop} {k : State → Out} (h : nextAgenda (k s) = some s.control.1) :
    nextAgenda (andThen c s k) = some s.control.1 := by
  simp [h]

theorem nextAgenda_execRet (s : State) : nextAgenda (execRet s) = some s.control.1 := by
  refine nextAgenda_gate _ _ _ _ ?_
  split
  · simp
  · rename_i popped
    simp [State.control_popRet popped]
  · rename_i popped
    simp [State.control_popRet popped]

theorem nextAgenda_execOload (t : BitVec 3) (x y : BitVec 6) (s : State) : nextAgenda (execOload t x y s) = some s.control.1 := by
  refine nextAgenda_engGate _ _ ?_
  dsimp only
  rw [nextAgenda_andThen]
  split
  · split
    · simp
    · rename_i used
      simp [State.control_useRec used]
  · simp

theorem nextAgenda_execOfill (t : BitVec 3) (x y : BitVec 6) (s : State) : nextAgenda (execOfill t x y s) = some s.control.1 := by
  refine nextAgenda_engGate _ _ ?_
  dsimp only
  rw [nextAgenda_andThen]
  split
  · split
    · simp
    · split
      · simp
      · rename_i used
        simp [State.control_useRec used]
  · simp

theorem nextAgenda_execWrset (t : BitVec 3) (x : BitVec 4) (y : BitVec 6) (s : State) :
    nextAgenda (execWrset t x y s) = some s.control.1 := by
  refine nextAgenda_engGate _ _ ?_
  dsimp only
  refine (nextAgenda_andThen_of ?_).trans (by simp)
  split
  · simp
  · rename_i used
    simp [State.control_useRec used]

theorem nextAgenda_execWrfree (t : BitVec 3) (x : BitVec 6) (s : State) : nextAgenda (execWrfree t x s) = some s.control.1 := by
  refine nextAgenda_engGate _ _ ((nextAgenda_ringCmd ?_).trans ?_)
  · simp
  · simp

theorem nextAgenda_execWrflush (t : BitVec 3) (x : BitVec 6) (s : State) : nextAgenda (execWrflush t x s) = some s.control.1 := by
  refine nextAgenda_engGate _ _ ((nextAgenda_ringCmd ?_).trans ?_)
  · simp
  · simp

theorem nextAgenda_execWrbind (q : BitVec 2) (y : BitVec 6) (s : State) : nextAgenda (execWrbind q y s) = some s.control.1 := by
  refine nextAgenda_engGate _ _ ?_
  dsimp only
  refine (nextAgenda_andThen_of ?_).trans (by simp)
  (repeat' split) <;> simp

theorem nextAgenda_execWnew (t : BitVec 3) (x y : BitVec 6) (s : State) : nextAgenda (execWnew t x y s) = some s.control.1 := by
  refine nextAgenda_engGate _ _ ?_
  dsimp only
  split
  · simp
  · rename_i used
    exact nextAgenda_winCmd (by simp [State.control_useRec used]) (by simp) (by simp)

theorem nextAgenda_execWfree (t : BitVec 3) (x : BitVec 6) (s : State) : nextAgenda (execWfree t x s) = some s.control.1 := by
  refine nextAgenda_engGate _ _ ?_
  dsimp only
  exact nextAgenda_winCmd (by simp) (by simp) (by simp)

theorem nextAgenda_execWfence (t : BitVec 3) (x y : BitVec 6) (s : State) : nextAgenda (execWfence t x y s) = some s.control.1 := by
  refine nextAgenda_engGate _ _ ?_
  dsimp only
  exact nextAgenda_winCmd (by simp) (by simp) (by simp)

theorem nextAgenda_execWpost (t : BitVec 3) (x y : BitVec 6) (s : State) : nextAgenda (execWpost t x y s) = some s.control.1 := by
  refine nextAgenda_engGate _ _ ?_
  dsimp only
  refine nextAgenda_winCmd (by simp) (fun v op => ?_) (by simp)
  split <;> simp

theorem nextAgenda_execWstart (t : BitVec 3) (x y : BitVec 6) (s : State) : nextAgenda (execWstart t x y s) = some s.control.1 := by
  refine nextAgenda_engGate _ _ ?_
  dsimp only
  refine nextAgenda_winCmd (by simp) (fun v op => ?_) (by simp)
  split <;> simp

theorem nextAgenda_execWcompl (t : BitVec 3) (x : BitVec 6) (s : State) : nextAgenda (execWcompl t x s) = some s.control.1 := by
  refine nextAgenda_engGate _ _ ?_
  dsimp only
  refine nextAgenda_winCmd (by simp) (fun v op => ?_) (by simp)
  split <;> simp

theorem nextAgenda_execWwait (t : BitVec 3) (x : BitVec 6) (s : State) : nextAgenda (execWwait t x s) = some s.control.1 := by
  refine nextAgenda_engGate _ _ ?_
  dsimp only
  exact nextAgenda_winCmd (by simp) (by simp) (by simp)

theorem nextAgenda_execWlock (t : BitVec 3) (x y : BitVec 6) (s : State) : nextAgenda (execWlock t x y s) = some s.control.1 := by
  refine nextAgenda_engGate _ _ ?_
  dsimp only
  refine nextAgenda_winCmd (by simp) (fun v op => ?_) (by simp)
  split <;> simp

theorem nextAgenda_execWunlock (t : BitVec 3) (x y : BitVec 6) (s : State) : nextAgenda (execWunlock t x y s) = some s.control.1 := by
  refine nextAgenda_engGate _ _ ?_
  dsimp only
  refine nextAgenda_winCmd (by simp) (fun v op => ?_) (by simp)
  (repeat' split) <;> simp

theorem nextAgenda_execWflush (t : BitVec 3) (x y : BitVec 6) (s : State) : nextAgenda (execWflush t x y s) = some s.control.1 := by
  refine nextAgenda_engGate _ _ ?_
  dsimp only
  exact nextAgenda_winCmd (by simp) (by simp) (by simp)

theorem nextAgenda_execCcancel (t : BitVec 3) (x : BitVec 6) (s : State) : nextAgenda (execCcancel t x s) = some s.control.1 := by
  refine nextAgenda_engGate _ _ ?_
  dsimp only
  refine nextAgenda_winCmd (by simp) (fun v op => ?_) (by simp)
  (repeat' split) <;> simp

theorem nextAgenda_execQpop (d a : BitVec 6) (c : BitVec 3) (s : State) : nextAgenda (execQpop d a c s) = some s.control.1 := by
  refine nextAgenda_gate _ _ _ _ ?_
  generalize hu : (s.readX a.toNat).2 = u
  have read : u.control = s.control := by rw [← hu, State.control_readX]
  dsimp only
  rw [hu]
  split
  · split <;> simp [read]
  · have taken := u.control_qTake (qSite (s.readX a.toNat).1) (qIx (s.readX a.toNat).1) u.cur
    split
    · simp [read]
    · split
      · simp [read]
      · split
        all_goals
          rename_i answer
          rw [answer] at taken
          simp [taken, read]

theorem nextAgenda_execCsrr (d : BitVec 6) (n : BitVec 12) (s : State) : nextAgenda (execCsrr d n s) = some s.control.1 := by
  unfold execCsrr
  split
  · simp
  · exact nextAgenda_gate _ _ _ _ (by simp)

theorem nextAgenda_execCsrw (d : BitVec 6) (n : BitVec 12) (s : State) : nextAgenda (execCsrw d n s) = some s.control.1 := by
  unfold execCsrw
  split
  · simp
  · exact nextAgenda_gate _ _ _ _ (by simp)

theorem nextAgenda_execSegenter (a : BitVec 6) (s : State) : nextAgenda (execSegenter a s) = some s.control.1 := by
  refine nextAgenda_gate _ _ _ _ ?_
  dsimp only
  split
  · simp
  · simp
  · split
    · simp
    · rename_i put
      simp [State.control_putConsts put]

theorem nextAgenda_execBarw (d a b : BitVec 6) (s : State) : nextAgenda (execBarw d a b s) = some s.control.1 := by
  refine nextAgenda_barOp d a b fun u cl o y => ?_
  rcases hst : Bar.status ((u.cl cl).bar o) (u.cl cl).liveCount (u.cl cl).gone (fld y 0 32) with _ | st
  all_goals simp [hst]

theorem nextAgenda_execKslotInstall (d a b : BitVec 6) (s : State) : nextAgenda (execKslotInstall d a b s) = some s.control.1 := by
  refine nextAgenda_kslotOp fun u op k y => ?_
  generalize State.unwrap = unwrap
  extract_lets ws
  clear_value ws
  (repeat' split) <;> simp

theorem nextAgenda_execKslotRotate (d a b : BitVec 6) (s : State) : nextAgenda (execKslotRotate d a b s) = some s.control.1 := by
  refine nextAgenda_kslotOp fun u op k y => ?_
  generalize State.unwrap = unwrap
  extract_lets ws slot cls
  clear_value ws slot cls
  (repeat' split) <;> simp

/-- An engine command answers a next state whatever the state, and leaves the agenda. -/
theorem nextAgenda_exec_engine {i : Instr} (hc : (shape i).cls = .eng) (hte : takesEffect i = false) (s : State) :
    nextAgenda (exec i s) = some s.control.1 := by
  cases i
  case mstF32 t k y => exact (nextAgenda_mst _ _ t k y s : nextAgenda (execMstF32 t k y s) = _)
  case mstBf16 t k y => exact (nextAgenda_mst _ _ t k y s : nextAgenda (execMstBf16 t k y s) = _)
  case mstKb t k y => exact (nextAgenda_mst _ _ t k y s : nextAgenda (execMstKb t k y s) = _)
  case oload t x y => exact nextAgenda_execOload t x y s
  case ofill t x y => exact nextAgenda_execOfill t x y s
  case wrset t x y => exact nextAgenda_execWrset t x y s
  case wrfree t x => exact nextAgenda_execWrfree t x s
  case wrflush t x => exact nextAgenda_execWrflush t x s
  case wrbind q y => exact nextAgenda_execWrbind q y s
  case wnew t x y => exact nextAgenda_execWnew t x y s
  case wfree t x => exact nextAgenda_execWfree t x s
  case wfence t x y => exact nextAgenda_execWfence t x y s
  case wpost t x y => exact nextAgenda_execWpost t x y s
  case wstart t x y => exact nextAgenda_execWstart t x y s
  case wcompl t x => exact nextAgenda_execWcompl t x s
  case wwait t x => exact nextAgenda_execWwait t x s
  case wlock t x y => exact nextAgenda_execWlock t x y s
  case wunlock t x y => exact nextAgenda_execWunlock t x y s
  case wflush t x y => exact nextAgenda_execWflush t x y s
  case get t x y => exact (nextAgenda_remote _ _ _ t x y s : nextAgenda (execGet t x y s) = _)
  case put t x y => exact (nextAgenda_remote _ _ _ t x y s : nextAgenda (execPut t x y s) = _)
  case putm t x y => exact (nextAgenda_remote _ _ _ t x y s : nextAgenda (execPutm t x y s) = _)
  case accAddf t x y => exact (nextAgenda_remote _ _ _ t x y s : nextAgenda (execAccAddf t x y s) = _)
  case accAdds t x y => exact (nextAgenda_remote _ _ _ t x y s : nextAgenda (execAccAdds t x y s) = _)
  case accFx t x y => exact (nextAgenda_remote _ _ _ t x y s : nextAgenda (execAccFx t x y s) = _)
  case accMaxf t x y => exact (nextAgenda_remote _ _ _ t x y s : nextAgenda (execAccMaxf t x y s) = _)
  case accMinf t x y => exact (nextAgenda_remote _ _ _ t x y s : nextAgenda (execAccMinf t x y s) = _)
  case getacc t x y => exact (nextAgenda_remote _ _ _ t x y s : nextAgenda (execGetacc t x y s) = _)
  case rcas t x y => exact (nextAgenda_remote _ _ _ t x y s : nextAgenda (execRcas t x y s) = _)
  case getro t x y => exact (nextAgenda_remote _ _ _ t x y s : nextAgenda (execGetro t x y s) = _)
  case dispatch t x => exact (nextAgenda_sortCmd _ t x s : nextAgenda (execDispatch t x s) = _)
  case combine t x => exact (nextAgenda_sortCmd _ t x s : nextAgenda (execCombine t x s) = _)
  case coll t x => exact (nextAgenda_sortCmd _ t x s : nextAgenda (execColl t x s) = _)
  case ccancel t x => exact nextAgenda_execCcancel t x s
  case wradv | wrout =>
    refine agenda_of_gate (fun _ => rfl) ?_
    dsimp only
    (repeat' split) <;> simp
  all_goals cases hc
  all_goals cases hte
  all_goals
    refine agenda_of_gate (fun _ => rfl) ?_
    simp

/-- A slot of the system class answers a next state whatever the state, and leaves the agenda. -/
theorem nextAgenda_exec_system {i : Instr} (hc : (shape i).cls = .sys) (hte : takesEffect i = false) (s : State) :
    nextAgenda (exec i s) = some s.control.1 := by
  cases i
  case csrr d n => exact nextAgenda_execCsrr d n s
  case csrw d n => exact nextAgenda_execCsrw d n s
  case segenter a => exact nextAgenda_execSegenter a s
  case segsealSeal a b => exact (nextAgenda_segseal _ a b s : nextAgenda (execSegsealSeal a b s) = _)
  case segsealPatch a b => exact (nextAgenda_segseal _ a b s : nextAgenda (execSegsealPatch a b s) = _)
  case kslotInstall d a b => exact nextAgenda_execKslotInstall d a b s
  case kslotRotate d a b => exact nextAgenda_execKslotRotate d a b s
  case kslotQuery | kslotBind | scrub =>
    refine agenda_of_gate (fun _ => rfl) ?_
    dsimp only
    (repeat' split) <;> simp
  all_goals cases hc
  all_goals cases hte
  all_goals
    refine agenda_of_gate (fun _ => rfl) ?_
    simp

/-- A slot of the synchronisation class answers a next state whatever the state, and leaves the agenda. -/
theorem nextAgenda_exec_sync {i : Instr} (hc : (shape i).cls = .sync) (hte : takesEffect i = false) (s : State) :
    nextAgenda (exec i s) = some s.control.1 := by
  cases i
  case barw d a b => exact nextAgenda_execBarw d a b s
  case qpop d a c => exact nextAgenda_execQpop d a c s
  case trun | tcond | hpop =>
    refine agenda_of_gate (fun _ => rfl) ?_
    dsimp only
    (repeat' split) <;> simp
  all_goals cases hc
  all_goals cases hte
  all_goals
    refine agenda_of_gate (fun _ => rfl) ?_
    simp

/-- A scalar, vector or matrix slot answers a next state whatever the state, and leaves the agenda. -/
theorem nextAgenda_exec_core {i : Instr} (hc : [Cls.alu, .lsc, .ct, .vec, .mma].contains (shape i).cls = true)
    (hte : takesEffect i = false) (s : State) : nextAgenda (exec i s) = some s.control.1 := by
  cases i
  case ret => exact nextAgenda_execRet s
  case st | jr | callr | bru | vld | vst | vgth32 | vgth16 | vsct32 | vsct16 | vsctaddF32 | vsctaddS32 =>
    refine agenda_of_gate (fun _ => rfl) ?_
    dsimp only
    (repeat' split) <;> simp
  all_goals cases hc
  all_goals cases hte
  all_goals
    refine agenda_of_gate (fun _ => rfl) ?_
    simp

/-- A slot of the encoding answers a next state whatever the state, and leaves the agenda. -/
theorem nextAgenda_exec_slot {i : Instr} (h : (encode i).isSome = true) (s : State) : nextAgenda (exec i s) = some s.control.1 := by
  rcases hte : takesEffect i with _ | _
  swap
  · exact (completes_of_takesEffect hte s).2
  rcases hc : (shape i).cls with _ | _ | _ | _ | _ | _ | _ | _ | _ | _ | _
  case eng => exact nextAgenda_exec_engine hc hte s
  case sys => exact nextAgenda_exec_system hc hte s
  case sync => exact nextAgenda_exec_sync hc hte s
  case alu | lsc | ct | vec | mma => exact nextAgenda_exec_core (by rw [hc]; rfl) hte s
  -- every slot of the remaining classes takes effect, or is no slot
  all_goals
    cases i
    all_goals cases h
    all_goals cases hte
    all_goals cases hc

end Sys2Proof.Machine
end

section
/-! SUPPORT. What decodes is an instruction of the encoding; a bundle, a turn and an agent's step go on (O53, O55). -/
namespace Sys2Proof.Machine

/-- What a decoding gives, where it gives a slot, has a word. -/
def Encodes (o : Except Illegal Instr) : Prop := ∀ i, o = .ok i → (encode i).isSome = true

@[simp] theorem encodes_ok (i : Instr) : Encodes (.ok i) ↔ (encode i).isSome = true := by simp [Encodes]
@[simp] theorem encodes_error (e : Illegal) : Encodes (.error e) := by simp [Encodes]

@[simp] theorem encodes_guardDec (c : Bool) (e : Illegal) (o : Except Illegal Instr) :
    Encodes (guardDec c e o) ↔ (c = true → Encodes o) := by
  cases c <;> simp [guardDec]

theorem encodes_decodeBody (w : Nat) : Encodes (decodeBody w) := by
  unfold decodeBody
  split
  all_goals simp only [decMisc, decAlu, decShift, decMulDiv, decBitField, decCmp, decCLogic, decSel, decAddi, decAndi, decOri, decXori,
    decShiftImm, decCmpImm, decMovi, decAdr, decLd, decSt, decCache, decLdx, decBr, decCall, decCtrl, decRpt, decFp32,
    decFp64, decFcmp, decFcvt, decVarithF32, decVarithBf16, decVarithS32, decVlogic, decVspecial, decVcmp, decVpred,
    decVreduce, decVperm, decVcvt, decVkb, decVxfer, decVld, decVst, decVgather, decQops, decMcfg, decMma, decMrd,
    decOps, decRing, decWin, decRma, decSort, decAmo, decSync, decTl, decSys2, decTask, decHeap, decSystem, decExt,
    encodes_error]
  all_goals (repeat' split)
  all_goals simp only [encodes_ok, encodes_error, encodes_guardDec]
  all_goals (intros; rfl)

/-- A word that decodes in a slot names an instruction of the encoding. -/
theorem encodes_decodeSlot (k w : Nat) : Encodes (decodeSlot k w) := by
  unfold decodeSlot
  split
  · simp
  · exact encodes_decodeBody w

/-- The slots of a bundle that decodes are instructions of the encoding. -/
theorem encode_of_decodeAll {ws : List Nat} {k : Nat} {ss : List Slot} (h : decodeAll k ws = .ok ss) :
    ∀ x ∈ ss, (encode x.i).isSome = true := by
  induction ws generalizing k ss with
  | nil => cases h; simp
  | cons w ws ih =>
    unfold decodeAll at h
    split at h
    · cases h
    · rename_i i decoded
      split at h
      · cases h
      · split at h
        · cases h
        · rename_i rest decodedRest
          cases h
          simp only [List.mem_cons, forall_eq_or_imp]
          exact ⟨encodes_decodeSlot k w i decoded, ih decodedRest⟩

theorem encode_of_checkBundle {ws : List Nat} {ss : List Slot} (h : checkBundle ws = .ok ss) : ∀ x ∈ ss, (encode x.i).isSome = true := by
  unfold checkBundle at h
  split at h
  · cases h
  · rename_i decoded
    split at h
    · cases h
    · cases h
      exact encode_of_decodeAll decoded

/-- The row that an operand selects is a slot, as the row its word names is. -/
theorem encode_resolve {i : Instr} (s : State) (h : (encode i).isSome = true) : (encode (s.resolve i)).isSome = true := by
  unfold State.resolve
  split
  · split <;> rfl
  · dsimp only
    split <;> rfl
  · exact h

/-! The slots of a bundle. -/

theorem nextAgenda_runSlots (on : List Slot) {ss : List Slot} (hs : ∀ x ∈ ss, (encode x.i).isSome = true) (s : State) :
    nextAgenda (runSlots on s ss) = some s.control.1 := by
  induction ss generalizing s with
  | nil => simp [runSlots]
  | cons x r ih =>
    have rest := ih fun y hy => hs y (List.mem_cons_of_mem x hy)
    unfold runSlots
    split
    · rfl
    · split
      · exact rest _
      · extract_lets i0 s0
        have stepped := nextAgenda_exec_slot (encode_resolve s0 (hs x List.mem_cons_self)) s0
        split
        · rename_i e; rw [e] at stepped; cases stepped
        · rename_i e; rw [e] at stepped; cases stepped
        · rename_i s1 e
          rw [e] at stepped
          have popped : (s0.popAll (shape x.i).srcs).control.1 = s0.control.1 := by rw [State.control_popAll]
          have waited : nextAgenda (runSlots on { s0.popAll (shape x.i).srcs with issue := { s0.issue with ext := none } } r) =
              some s.control.1 := (rest _).trans (congrArg some popped)
          split
          · refine (rest _).trans ?_
            split
            · rfl
            · exact stepped
          · split
            · exact stepped
            · split
              · rename_i e2
                split
                · exact stepped
                · exact (congrArg nextAgenda e2).symm.trans waited
              · exact waited

theorem nextAgenda_runLast {ss : List Slot} (hs : ∀ x ∈ ss, (encode x.i).isSome = true) (s : State) :
    nextAgenda (runLast s ss) = some s.control.1 := by
  induction ss generalizing s with
  | nil => simp [runLast]
  | cons x r ih =>
    have rest := ih fun y hy => hs y (List.mem_cons_of_mem x hy)
    unfold runLast
    split
    · have stepped := nextAgenda_exec_slot (hs x List.mem_cons_self) { s with issue := { s.issue with slot := x.ix } }
      split
      · rename_i e
        rw [e] at stepped
        rw [rest]
        exact stepped
      · exact stepped
    · exact rest s

/-! A bundle, and the turn of a context. -/

@[simp] theorem nextAgenda_earlyTrap (s : State) (t : Trap) : nextAgenda (s.earlyTrap t) = some s.control.1 := by
  unfold State.earlyTrap
  dsimp only
  split <;> simp

@[simp] theorem nextAgenda_fetchStep (s : State) : nextAgenda s.fetchStep = some s.control.1 := by
  unfold State.fetchStep
  dsimp only
  split
  · simp
  · rename_i u read
    have kept : u.control = s.control := by
      split at read
      · exact State.control_readText read
      · rcases fetched : s.fetchBlock s.cur (s.me.pc.toNat / 256) with _ | ⟨p, v⟩
        · rw [fetched] at read; cases read
        · rw [fetched] at read
          cases read
          exact State.control_fetchBlock fetched
    simp [kept]

theorem nextAgenda_closeBundle (s : State) {on : List Slot} (hs : ∀ x ∈ on, (encode x.i).isSome = true) (ws : List Nat) (next : W64) :
    nextAgenda (s.closeBundle on ws next) = some s.control.1 := by
  unfold State.closeBundle
  extract_lets fresh s1 c1 c2 ct q s2 s3 s4
  have kept : s4.control = s.control := by simp [s4, s3, s2, s1, ct, c2, c1]
  have ended := nextAgenda_runLast hs s4
  rw [kept] at ended
  split
  · rename_i e
    rw [e] at ended
    exact ended
  · exact ended

theorem liveSlots_sub {c : Ctx} {ss : List Slot} : ∀ x ∈ liveSlots c ss, x ∈ ss := by
  intro x hx
  unfold liveSlots at hx
  dsimp only at hx
  split at hx
  · exact List.mem_of_mem_filter (List.mem_of_mem_filter hx)
  · exact List.mem_of_mem_filter hx

theorem nextAgenda_issueSlots (s : State) (ws : List Nat) {ss : List Slot} (hs : ∀ x ∈ ss, (encode x.i).isSome = true) :
    nextAgenda (s.issueSlots ws ss) = some s.control.1 := by
  unfold State.issueSlots
  extract_lets u c on next i0 s0
  have live : ∀ x ∈ on, (encode x.i).isSome = true := fun x hx => hs x (liveSlots_sub x hx)
  have kept : i0.control.1 = s.control.1 := by simp [i0, u]
  have ready : s0.control.1 = s.control.1 := kept
  have ran := nextAgenda_runSlots on hs s0
  rw [ready] at ran
  split
  · simp [u]
  · split
    · simp [u]
    · split
      · rename_i e; rw [e] at ran; cases ran
      · rename_i e; rw [e] at ran; cases ran
      · rename_i s1 e
        rw [e, nextAgenda_next] at ran
        split
        · simp [u]
        · simp [u]
        · rw [nextAgenda_closeBundle s1 live]
          exact ran

@[simp] theorem nextAgenda_issueBundle (s : State) : nextAgenda s.issueBundle = some s.control.1 := by
  unfold State.issueBundle
  dsimp only
  split
  · simp
  · split
    · simp
    · split
      · simp
      · split
        · simp
        · split
          · simp
          · split
            · simp
            · rename_i checked
              exact nextAgenda_issueSlots s _ (encode_of_checkBundle checked)

@[simp] theorem nextAgenda_skipBundle (s : State) (l : LoopBuf) : nextAgenda (s.skipBundle l) = some s.control.1 := by
  unfold State.skipBundle
  dsimp only
  (repeat' split) <;> simp

@[simp] theorem nextAgenda_issueTurn (s : State) : nextAgenda s.issueTurn = some s.control.1 := by
  have issued := nextAgenda_issueBundle s.unyield
  unfold State.issueTurn
  split
  · rename_i t e
    rw [e, State.control_unyield] at issued
    exact congrArg some (State.agenda_chosen (Option.some.inj issued))
  · rw [issued, State.control_unyield]

@[simp] theorem nextAgenda_preemptionStop (g : Nat) (s : State) : nextAgenda (execContextPreemptionStop g s) = some s.control.1 := by
  unfold execContextPreemptionStop
  split <;> simp

/-- The turn of a running context has a next state, and leaves the agenda. -/
theorem nextAgenda_advanceCtx (s : State) : nextAgenda s.advanceCtx = some s.control.1 := by
  unfold State.advanceCtx
  dsimp only
  (repeat' split) <;> simp

theorem spdm_next (ok : HostPort → Bool) (port : Nat) (s : State) (k : State → HostPort → State) : ∃ t, spdm ok port s k = .next t := by
  unfold spdm
  dsimp only
  (repeat' split) <;> exact ⟨_, rfl⟩

theorem ideKm_next (port i st : Nat) (s : State) (f : Nat → Option Nat) : ∃ t, ideKm port i st s f = .next t := by
  unfold ideKm
  exact spdm_next _ _ _ _

/-- A step of an agent has a next state, whatever the state. -/
theorem exec_agent_next {i : Instr} (h : encode i = none) (s : State) : ∃ t, exec i s = .next t := by
  cases i
  case getVersion | getCapabilities | negotiateAlgorithms | getDigests | getCertificate | challenge | getMeasurements |
      keyExchange | finish | endSession | ideKmQuery =>
    dsimp only [exec, execGetVersion, execGetCapabilities, execNegotiateAlgorithms, execGetDigests, execGetCertificate, execChallenge,
      execGetMeasurements, execKeyExchange, execFinish, execEndSession, execIdeKmQuery]
    exact spdm_next _ _ _ _
  case ideKmKeyProg | ideKmKSetGo | ideKmKSetStop =>
    dsimp only [exec, execIdeKmKeyProg, execIdeKmKSetGo, execIdeKmKSetStop]
    exact ideKm_next _ _ _ _ _
  case blockOpen | loadMemoryError | contextExitCompletion | engineCommandStart | mmaRepetitionAccept | mmaCompletion |
      oloadCompletion | ofillCompletion | mstCompletion | drainRowDelivery | pgmapCompletion | ringRowLanding |
      ringMulticastRow | recvRegistration | ringCreditReturn | ringRowWriteAccept | fabricPacketHop | mailbagArrival |
      remoteRequestArrival | orderedPacketRelease | remoteResponseArrival | translationRequest | translationReply |
      tokenInvalidation | tokenInvalidationAck | windowCollectiveNotice | fenceCloseNotice | postNotice | completeNotice |
      lockRequest | lockRelease | headAnnouncement | collectiveChunk | dispatchCountExchange | cancelArrival |
      iczerGroupArrival | iczerIdleFill | iczerRekey | iczerCounterExhausted | iczerLinkRetrain | joinReport | joinTimeout |
      l1MissFill | pigeonholeBankAccess | patrolRead | granuleMove | retirementComplete | keyRotationGranule |
      keyRotationComplete | scrubUnit | scrubComplete | letterEnqueue | schedulingDecision | letterAging |
      completionWriteLetter | completionWaitPoll | gangStart | instanceCompletion | contextPreemptionStop | contextSave |
      teamResumption | taskfaultDelivery | pbcancelWrite | hostRegisterWrite | hostUnimplementedAccess | bar4Read | bar4Write
      | unallocatedEncoding | joinPartFailure =>
    dsimp only [exec, execBlockOpen, execLoadMemoryError, execContextExitCompletion, execEngineCommandStart, execMmaRepetitionAccept,
      execMmaCompletion, execOloadCompletion, execOfillCompletion, execMstCompletion, execDrainRowDelivery,
      execPgmapCompletion, execRingRowLanding, execRingMulticastRow, execRecvRegistration, execRingCreditReturn,
      execRingRowWriteAccept, execFabricPacketHop, execMailbagArrival, execRemoteRequestArrival, execOrderedPacketRelease,
      execRemoteResponseArrival, execTranslationRequest, execTranslationReply, execTokenInvalidation,
      execTokenInvalidationAck, execWindowCollectiveNotice, execFenceCloseNotice, execPostNotice, execCompleteNotice,
      execLockRequest, execLockRelease, execHeadAnnouncement, execCollectiveChunk, execDispatchCountExchange,
      execCancelArrival, execIczerGroupArrival, execIczerIdleFill, execIczerRekey, execIczerCounterExhausted,
      execIczerLinkRetrain, execJoinReport, execJoinTimeout, execL1MissFill, execPigeonholeBankAccess, execPatrolRead,
      execGranuleMove, execRetirementComplete, execKeyRotationGranule, execKeyRotationComplete, execScrubUnit,
      execScrubComplete, execLetterEnqueue, execSchedulingDecision, execLetterAging, execCompletionWriteLetter,
      execCompletionWaitPoll, execGangStart, execInstanceCompletion, execContextPreemptionStop, execContextSave,
      execTeamResumption, execTaskfaultDelivery, execPbcancelWrite, execHostRegisterWrite, execHostUnimplementedAccess,
      execBar4Read, execBar4Write, execUnallocatedEncoding, execJoinPartFailure]
    (repeat' split) <;> exact ⟨_, rfl⟩
  all_goals cases h
  all_goals exact ⟨_, rfl⟩

theorem encode_of_isAgentStep {i : Instr} (h : isAgentStep i = true) : encode i = none := by
  have := (Bool.and_eq_true _ _).mp h
  exact Option.isNone_iff_eq_none.mp this.2

/-- The next turn keeps an agenda whose entries are agents' steps: what the agents' turns put there is filtered to them (log 5). -/
theorem agendaOk_nextTurn {s : State} (h : s.agendaOk) : s.nextTurn.agendaOk := by
  unfold State.nextTurn
  split
  · exact h
  · exact fun i hi => (List.mem_filter.mp hi).2

/-- An agent's step at the head of the agenda goes on with the rest of it. -/
theorem agentStep_next {s : State} {i : Instr} {rest : List Instr} (hi : isAgentStep i = true) (hr : ∀ j ∈ rest, isAgentStep j = true) :
    ∃ t, s.agentStep i rest = .next t ∧ t.agendaOk := by
  obtain ⟨t, ht⟩ := exec_agent_next (encode_of_isAgentStep hi) { s with agenda := rest }
  refine ⟨{ t with agenda := rest }, ?_, hr⟩
  simp [State.agentStep, hi, ht]

/-- The turn of a running context goes on, the agenda empty as before it. -/
theorem advanceCtx_next {s : State} (h : s.agenda = []) : ∃ t, s.advanceCtx = .next t ∧ t.agenda = [] := by
  have kept := nextAgenda_advanceCtx s
  rcases e : s.advanceCtx with t | f | r
  · rw [e] at kept
    exact ⟨t, rfl, (Option.some.inj kept).trans h⟩
  · rw [e] at kept; cases kept
  · rw [e] at kept; cases kept

/-- Settles O53: the agents' steps by the meaning of each, the turn of a context by what its bundle's slots answer, each of which is decoded. -/
theorem neverStops : Obligations.NeverStops := by
  unfold Obligations.NeverStops step State.oneStep
  intro s ok
  split
  · rename_i i rest e
    rw [State.agendaOk, e, List.forall_mem_cons] at ok
    exact agentStep_next ok.1 ok.2
  · rename_i e
    split
    · obtain ⟨t, ht, empty⟩ := advanceCtx_next e
      rw [ht]
      exact ⟨_, rfl, agendaOk_nextTurn (by simp [State.agendaOk, empty])⟩
    · exact ⟨_, rfl, agendaOk_nextTurn ok⟩

/-- Settles O55: what the slots past their checks and the agents' steps answer. -/
theorem checkedSlotsComplete : Obligations.CheckedSlotsComplete := by
  refine ⟨fun s i takes ready issues => ?_, fun s i agent => exec_agent_next (encode_of_isAgentStep agent) s⟩
  have done := (completes_of_takesEffect takes s).1 ready
  rcases e : exec i s with t | f | r
  · rw [e] at done
    exact ⟨t, rfl, (State.verdict_of_control (Option.some.inj done)).trans issues⟩
  · rw [e] at done; cases done
  · rw [e] at done; cases done

end Sys2Proof.Machine
end

section
/-! SUPPORT. What a register instruction leaves unchanged (O58). -/
namespace Sys2Proof.Machine

/-! ## What popping the sources leaves -/

/-- The state but for the queue registers of the issuing context that a slot names among its sources, and its dirty bits. -/
def State.unpopped (srcs : List Reg) (s : State) : State × (Nat → Ctx) × (Nat → Option XQueue) × (Nat → Option VQueue) :=
  ({ s with ctxs := [] }, fun g => if g = s.cur then { s.me with qs := [], vqs := [], dirty := 0 } else s.ctx g,
    fun q => if Reg.x (48 + q) ∈ srcs then none else some (s.me.getQ q), fun q => if Reg.v (28 + q) ∈ srcs then none else some (s.me.getVQ q))

/-- A change of the issuing context is none of what popping leaves where its queues of no source and its other fields are the same. -/
theorem State.unpopped_setMe {srcs : List Reg} {s : State} {c : Ctx}
    (hc : ({ c with qs := [], vqs := [], dirty := 0 } : Ctx) = { s.me with qs := [], vqs := [], dirty := 0 })
    (hq : ∀ q, Reg.x (48 + q) ∉ srcs → c.getQ q = s.me.getQ q) (hv : ∀ q, Reg.v (28 + q) ∉ srcs → c.getVQ q = s.me.getVQ q) :
    (s.setMe c).unpopped srcs = s.unpopped srcs := by
  have cur : (s.setMe c).cur = s.cur := rfl
  unfold State.unpopped
  rw [State.me_setMe, cur]
  refine Prod.ext rfl (Prod.ext (funext fun g => ?_) (Prod.ext (funext fun q => ?_) (funext fun q => ?_)))
  · by_cases h : g = s.cur
    · simp only [if_pos h, hc]
    · simp only [if_neg h]
      exact State.ctx_setCtx_ne s _ _ c h
  · by_cases h : Reg.x (48 + q) ∈ srcs
    · simp only [if_pos h]
    · simp only [if_neg h, hq q h]
  · by_cases h : Reg.v (28 + q) ∈ srcs
    · simp only [if_pos h]
    · simp only [if_neg h, hv q h]

@[simp] theorem State.unpopped_readX {srcs : List Reg} {n : Nat} (s : State) (h : Reg.x n ∈ srcs) :
    (s.readX n).2.unpopped srcs = s.unpopped srcs := by
  unfold State.readX
  split
  · rfl
  · rename_i queue
    dsimp only
    split
    · rfl
    · refine State.unpopped_setMe rfl (fun q hq => mget_mset_ne _ _ _ _ _ ?_) fun q _ => rfl
      rintro rfl
      exact hq (by rwa [show 48 + (n - 48) = n by omega])

@[simp] theorem State.unpopped_readV {srcs : List Reg} {n : Nat} (s : State) (h : Reg.v n ∈ srcs) :
    (s.readV n).2.unpopped srcs = s.unpopped srcs := by
  unfold State.readV
  split
  · rfl
  · rename_i queue
    dsimp only
    split
    · rfl
    · refine State.unpopped_setMe rfl (fun q _ => rfl) fun q hq => mget_mset_ne _ _ _ _ _ ?_
      rintro rfl
      exact hq (by rwa [show 28 + (n - 28) = n by omega])

/-! ## What a register instruction leaves -/

/-- t is s but for results in flight to destinations, the queue registers among the sources, and the dirty bits. -/
def KeepsRegisters (srcs dsts : List Reg) (s t : State) : Prop :=
  t.mem = s.mem ∧ t.bad = s.bad ∧ t.clusters = s.clusters ∧ t.sites = s.sites ∧ t.net = s.net ∧ t.teams = s.teams ∧ t.pbs = s.pbs ∧
  t.issue = s.issue ∧ t.cur = s.cur ∧ (∀ g, g ≠ s.cur → t.ctx g = s.ctx g) ∧
  (∃ qs vqs dirty ps fs k, t.me = { s.me with
      qs := qs, vqs := vqs, dirty := dirty, pending := s.me.pending ++ ps, inflight := s.me.inflight ++ fs, nextId := k } ∧
    (∀ p ∈ ps, ∀ r, p.wr.reg = some r → r ∈ dsts) ∧ (∀ f ∈ fs, ∀ r ∈ f.dsts, r ∈ dsts)) ∧
  (∀ q, Reg.x (48 + q) ∉ srcs → t.me.getQ q = s.me.getQ q) ∧
  (∀ q, Reg.v (28 + q) ∉ srcs → t.me.getVQ q = s.me.getVQ q)

/-- The sources popped, only results come to be in flight. -/
theorem keepsRegisters_of_unpopped {srcs dsts : List Reg} {s u t : State} {ps : List Pend} {fs : List Inflight} {k : Nat}
    (popped : u.unpopped srcs = s.unpopped srcs) (same : ({ t with ctxs := [] } : State) = { u with ctxs := [] })
    (others : ∀ g, g ≠ u.cur → t.ctx g = u.ctx g)
    (mine : t.me = { u.me with pending := u.me.pending ++ ps, inflight := u.me.inflight ++ fs, nextId := k })
    (hp : ∀ p ∈ ps, ∀ r, p.wr.reg = some r → r ∈ dsts) (hf : ∀ f ∈ fs, ∀ r ∈ f.dsts, r ∈ dsts) : KeepsRegisters srcs dsts s t := by
  obtain ⟨hs, hc, hq, hv⟩ : _ ∧ _ ∧ _ ∧ _ := by simpa only [State.unpopped, Prod.mk.injEq] using popped
  have all := same.trans hs
  have all := same.trans hs
  have field {α : Type} (f : State → α) := congrArg f all
  have cur : u.cur = s.cur := by simpa only using congrArg State.cur hs
  have me : ({ u.me with qs := [], vqs := [], dirty := 0 } : Ctx) = { s.me with qs := [], vqs := [], dirty := 0 } := by
    simpa [cur] using congrFun hc s.cur
  have mineS : u.me = { s.me with qs := u.me.qs, vqs := u.me.vqs, dirty := u.me.dirty } :=
    congrArg (fun c : Ctx => { c with qs := u.me.qs, vqs := u.me.vqs, dirty := u.me.dirty }) me
  refine ⟨field State.mem, field State.bad, field State.clusters, field State.sites, field State.net, field State.teams, field State.pbs,
    field State.issue, field State.cur, fun g hg => ?others, ⟨u.me.qs, u.me.vqs, u.me.dirty, ps, fs, k, ?me, hp, hf⟩, fun q h => ?xq,
    fun q h => ?vq⟩
  case others =>
    rw [others g (cur ▸ hg)]
    simpa [cur, hg] using congrFun hc g
  case me =>
    rw [mine]
    exact congrArg (fun c : Ctx => { c with
      pending := c.pending ++ ps, inflight := c.inflight ++ fs, nextId := k }) mineS
  case xq =>
    rw [mine]
    have kept := congrFun hq q
    simp only [if_neg h, Option.some.injEq] at kept
    exact kept
  case vq =>
    rw [mine]
    have kept := congrFun hv q
    simp only [if_neg h, Option.some.injEq] at kept
    exact kept

theorem keepsRegisters_pend {srcs dsts : List Reg} {s u : State} (popped : u.unpopped srcs = s.unpopped srcs) {p : Pend}
    (hp : ∀ r, p.wr.reg = some r → r ∈ dsts) :
    KeepsRegisters srcs dsts s (u.setMe { u.me with pending := u.me.pending ++ [p] }) := by
  refine keepsRegisters_of_unpopped (ps := [p]) (fs := []) popped rfl (fun g hg => State.ctx_setCtx_ne _ _ _ _ hg)
    ((State.me_setMe _ _).trans (by rw [List.append_nil])) ?_ (by simp)
  simpa using hp

theorem keepsRegisters_fix {srcs dsts : List Reg} {s u : State} (popped : u.unpopped srcs = s.unpopped srcs) (L : Nat) (w : Wr)
    (fl : BitVec 5) (toV : Bool) (hw : ∀ r, w.reg = some r → r ∈ dsts) : KeepsRegisters srcs dsts s (u.fix L w fl toV) := by
  unfold State.fix
  extract_lets c w'
  have kept : ∀ r, w'.reg = some r → r ∈ dsts := by
    simp only [w']
    split
    case h_4 => exact hw
    all_goals exact fun r h => nomatch h
  split
  · exact keepsRegisters_of_unpopped (ps := []) (fs := []) (k := u.me.nextId) popped rfl (fun _ _ => rfl) (by simp) (by simp) (by simp)
  · exact keepsRegisters_pend popped kept

theorem keepsRegisters_inter {srcs dsts ds : List Reg} {s u : State} (popped : u.unpopped srcs = s.unpopped srcs) (val : Option (List Wr))
    (fl : BitVec 5) (hd : ∀ r ∈ ds, r ∈ dsts) : KeepsRegisters srcs dsts s (u.inter ds val fl) := by
  refine keepsRegisters_of_unpopped (ps := []) popped rfl (fun g hg => State.ctx_setCtx_ne _ _ _ _ hg)
    ((State.me_setMe _ _).trans (by rw [List.append_nil])) (by simp) ?_
  rintro f hf r hr
  obtain rfl := List.mem_singleton.mp hf
  exact hd r (List.mem_of_mem_filter hr)

theorem keepsRegisters_landV {srcs dsts : List Reg} {s t u : State} (popped : u.unpopped srcs = s.unpopped srcs) {L d : Nat} {p : W64}
    {old : V2048} {f : Nat → W32 × Flags} (hd : Reg.v d ∈ dsts) (h : u.landV L d p old f = .next t) : KeepsRegisters srcs dsts s t := by
  cases h
  exact keepsRegisters_fix popped L _ _ _ fun r hr => Option.some.inj hr ▸ hd

/-- Where the slot takes effect, it keeps what a register instruction keeps. -/
def Keeps (i : Instr) : Prop :=
  ∀ s t, s.issue.verdict = .ok → exec i s = .next t → t.issue.verdict = .ok → KeepsRegisters (shape i).srcs (shape i).dsts s t

theorem verdict_trapNow {s t : State} {tr : Trap} (h : s.trapNow tr = .next t) : t.issue.verdict ≠ .ok := by
  cases h
  exact Verdict.noConfusion

theorem verdict_hold {s t : State} {c : CState} (h : s.hold c = .next t) : t.issue.verdict ≠ .ok := by
  cases h
  exact Verdict.noConfusion

theorem gate_next {lvl : Nat} {srcs dsts : List Reg} {s t : State} {k : State → Out} {peek : Option Reg}
    (h : gate lvl srcs dsts s k peek = .next t) (ok : t.issue.verdict = .ok) : k s = .next t := by
  unfold gate at h
  split at h
  · exact absurd ok (verdict_trapNow h)
  · exact absurd ok (verdict_hold h)
  · exact h

theorem keeps_of_gate {i : Instr} {lvl : Nat} {srcs dsts : List Reg} {k : State → Out} {peek : Option Reg}
    (e : ∀ s, exec i s = gate lvl srcs dsts s k peek) (hs : (shape i).srcs = srcs) (hd : (shape i).dsts = dsts)
    (h : ∀ s t, k s = .next t → KeepsRegisters srcs dsts s t) : Keeps i := by
  intro s t _ run ok
  rw [hs, hd]
  exact h s t (gate_next ((e s).symm.trans run) ok)

/-- Settles O58: a register slot pops its sources and puts one result in flight, and every other slot has another major. -/
theorem registerFrame : Obligations.RegisterFrame := by
  intro s t i w hw major ok run ok'
  suffices kept : Keeps i from kept s t ok run ok'
  cases i
  case vaddF32 | vsubF32 | vmulF32 | vfmaF32 | vminF32 | vmaxF32 | vfmsF32 | vabsF32 | vaddBf16 | vsubBf16 | vmulBf16 | vfmaBf16 |
      vminBf16 | vmaxBf16 | vfmsBf16 | vabsBf16 | vaddS32 | vsubS32 | vmulS32 | vmacS32 | vminsS32 | vmaxsS32 | vminzS32 | vmaxzS32
      | vand | vor | vxor | vandn | vshl | vshr | vsar | vrcp | vrsq | vsqrt | vex2 | vlg2 | vdiv | vfloor | vround | vcvtF32S32 |
      vcvtS32F32 | vcvtBf16F32 | vcvtF32Bf16l | vcvtF32Bf16h | vcvtF16F32 | vcvtF32F16l | vcvtF32F16h | vkbunpack =>
    refine keeps_of_gate (fun _ => rfl) rfl rfl fun s t h => ?_
    dsimp only at h
    exact keepsRegisters_landV (by simp) (by simp) h
  case divs | divz | rems | remz | fdivF32 | fsqrtF32 | fdivF64 | fsqrtF64 =>
    refine keeps_of_gate (fun _ => rfl) rfl rfl fun s t h => ?_
    dsimp only at h
    cases h
    exact keepsRegisters_inter (by simp) _ _ (by simp)
  case add | sub | and | or | xor | andn | orn | abd | shl | shr | sar | rol | clz | ctz | popc | brev | mul | mulhs | mulhz | mulw
      | mins | maxs | minz | maxz | bfx | bfi | sext | zext | ceq | cne | clts | cles | cltz | clez | ctst | cand | cor | cxor |
      candn | cmov | sel | addi | andi | ori | xori | shli | shri | sari | roli | ceqi | cnei | cltsi | clesi | cltzi | clezi |
      cgtsi | cgtzi | faddF32 | fsubF32 | fmulF32 | fminF32 | fmaxF32 | ffmaF32 | faddF64 | fsubF64 | fmulF64 | fminF64 | fmaxF64 |
      ffmaF64 | feqF32 | fltF32 | fleF32 | funF32 | feqF64 | fltF64 | fleF64 | funF64 | fcvtF32S64 | fcvtF64S64 | fcvtS64F32 |
      fcvtS64F64 | fcvtF64F32 | fcvtF32F64 | fcvtF32Bf16 | fcvtBf16F32 | vsel | vceqF32 | vcltF32 | vcleF32 | vcunF32 | vceqS32 |
      vcltS32 | vcleS32 | vcltzS32 | pand | por | pxor | pandn | vrsumF32 | vrmaxF32 | vrminF32 | vrsumS32 | vscanF32 | vscanS32 |
      vtopk | vargmax | vbcast | vperm | vrot | vslide | vzip | vunzip | vcompress | vexpand | vkbpack | vkbscale =>
    refine keeps_of_gate (fun _ => rfl) rfl rfl fun s t h => ?_
    dsimp only at h
    cases h
    exact keepsRegisters_fix (by simp) _ _ _ _ (by simp [Wr.reg])
  case cget | movi | adr | pnot | pany | pall | pcnt =>
    refine keeps_of_gate (fun _ => rfl) rfl rfl fun s t h => ?_
    cases h
    exact keepsRegisters_fix rfl _ _ _ _ (by simp [Wr.reg])
  -- no other slot has one of these majors, and an agent's step has no word
  all_goals cases hw
  all_goals
    unfold bits at major
    omega

end Sys2Proof.Machine
end

section
/-! SUPPORT. A scalar load under way, and the cycle in which it is performed (O6). -/
namespace Sys2Proof.Machine

/-! ## A load under way -/

theorem wrap_toInt_add_mul (x y : W64) (n : Nat) : wrap 64 (x.toInt + y.toInt * n) = x + BitVec.ofNat 64 (y.toNat * n) := by
  have index : BitVec.ofInt 64 (y.toInt * n) = BitVec.ofNat 64 (y.toNat * n) := by
    rw [BitVec.ofInt_mul, BitVec.ofInt_toInt, BitVec.ofInt_natCast, BitVec.ofNat_mul, BitVec.ofNat_toNat, BitVec.setWidth_eq]
  rw [wrap, BitVec.ofInt_add, BitVec.ofInt_toInt, index]

/-- What a result that waits for one access adds to the issuing context. -/
theorem awaits_interAcc (s : State) (ds : List Reg) (acc : V2048) (blk : Bool) : Awaits s (s.interAcc ds acc 1 blk) ds :=
  ⟨_, congrArg Ctx.inflight (State.me_setMe _ _), rfl, rfl, rfl, rfl⟩

/-- Where what a program computes with is the same, and the access is posted by the same bundle of the same context, it is under way. -/
theorem underWay_post {s u : State} (mine : u.me.posted = s.me.posted) (cur : u.cur = s.cur) (issue : u.issue = s.issue)
    (seq : u.me.seq = s.me.seq) (cycle : u.myCl.cycle = s.myCl.cycle) (r : MemReq) : UnderWay s (u.post r) r := by
  obtain ⟨due, later, after, posted⟩ := u.post_spec r
  rw [posted]
  rw [cycle] at later
  rw [mine] at after
  refine ⟨due, later, after, (congrArg Ctx.posted (State.me_setMe u _)).trans ?_⟩
  rw [mine, cur, issue, seq]

/-- A slot's access is held where every miss buffer is busy. -/
theorem issueMem_full {s : State} {r : MemReq} (full : s.missFull s.clNo (s.lineFor s.clNo r) = true) (d : Option Nat) (k : State → State) :
    s.issueMem r d k = s.hold .block := by
  unfold State.issueMem
  dsimp only
  rw [if_pos full]

/-- A slot's access with a result goes on, D waiting for it. -/
theorem issueMem_load {s : State} {r : MemReq} (free : s.missFull s.clNo (s.lineFor s.clNo r) = false) (d : Nat) (k : State → State) :
    ∃ u blk, Reads s u ∧ s.issueMem r (some d) k = .next (k ((u.interAcc [.x d] 0 1 blk).post { r with id := s.nextInter, dst := d })) := by
  have asked := State.reads_askLine s s.clNo (s.lineFor s.clNo r) (keyOf r.pa)
  refine ⟨_, r.blocks ((s.askLine s.clNo (s.lineFor s.clNo r) (keyOf r.pa)).atBank r.pa || (s.lineFor s.clNo r).isSome), asked, ?_⟩
  unfold State.issueMem
  dsimp only
  rw [if_neg (by rw [free]; exact Bool.false_ne_true), State.nextInter, asked.me]
  rfl

/-- What a load leaves behind as it issues. -/
structure LoadIssued (s t : State) (r : MemReq) (d : Nat) : Prop where
  underWay : UnderWay s t r
  awaits : Awaits s t [.x d]
  pending : t.me.pending = s.me.pending
  mem : t.mem = s.mem
  issue : t.issue = s.issue
  cycle : t.myCl.cycle = s.myCl.cycle
  ccount : t.me.ccount = s.me.ccount
  seq : t.me.seq = s.me.seq

theorem Reads.loadIssued_post {s u : State} (h : Reads s u) (r : MemReq) (d : Nat) (blk : Bool) :
    LoadIssued s ((u.interAcc [.x d] 0 1 blk).post r) r d := by
  obtain ⟨due, -, -, posted⟩ := (u.interAcc [.x d] 0 1 blk).post_spec r
  have me : ((u.interAcc [.x d] 0 1 blk).post r).me = _ := (congrArg State.me posted).trans (State.me_setMe _ _)
  have waiting : (u.interAcc [.x d] 0 1 blk).me = _ := State.me_setMe _ _
  obtain ⟨f, waits⟩ := awaits_interAcc u [.x d] 0 blk
  rw [waiting, h.me] at me waits
  refine ⟨?_, ⟨f, ?_⟩, ?_, ?_, ?_, ?_, ?_, ?_⟩
  · exact underWay_post (u := u.interAcc [.x d] 0 1 blk) (by rw [waiting, ← h.me])
      h.cur h.issue (by rw [waiting, ← h.me]) h.myCycle r
  · rw [me]
    simpa only [State.nextInter, h.me] using waits
  · rw [me]
  · rw [posted]
    exact h.mem
  · rw [posted]
    exact h.issue
  · rw [posted]
    exact h.myCycle
  · rw [me]
  · rw [me]

/-- A result on its way changes only what is pending. -/
theorem State.fix_leaves (s : State) (L : Nat) (w : Wr) (fl : BitVec 5) (toV : Bool) :
    (s.fix L w fl toV).mem = s.mem ∧ (s.fix L w fl toV).me.posted = s.me.posted ∧ (s.fix L w fl toV).me.inflight = s.me.inflight := by
  refine ⟨?_, ?_⟩
  · unfold State.fix
    extract_lets
    split <;> rfl
  · rcases s.me_fix_cases L w fl toV with ⟨same, -⟩ | ⟨_, _, added⟩
    · rw [same]
      exact ⟨rfl, rfl⟩
    · rw [added]
      exact ⟨rfl, rfl⟩

/-- What a result adds to what is pending is decided by the bundle, the counts and what is pending before it. -/
theorem State.fix_pending {s t : State} (pending : t.me.pending = s.me.pending) (issue : t.issue = s.issue)
    (cycle : t.myCl.cycle = s.myCl.cycle) (ccount : t.me.ccount = s.me.ccount) (seq : t.me.seq = s.me.seq) (L : Nat) (w : Wr)
    (fl : BitVec 5) (toV : Bool) : (t.fix L w fl toV).me.pending = (s.fix L w fl toV).me.pending := by
  unfold State.fix
  extract_lets c w' c'
  split
  · exact pending
  · simp only [State.me_setMe, c, c', pending, issue, cycle, ccount, seq]

/-- A load that also steps its base register. -/
theorem LoadIssued.bump {s t : State} {r : MemReq} {d : Nat} (h : LoadIssued s t r d) (u : BitVec 1) (b : Nat) (base : W64) (n : Int) :
    UnderWay s (t.bump u b base n) r ∧ Awaits s (t.bump u b base n) [.x d] ∧
      (t.bump u b base n).me.pending = (s.bump u b base n).me.pending ∧ (t.bump u b base n).mem = s.mem := by
  unfold State.bump
  by_cases step : u = 1#1
  · obtain ⟨mem, posted, inflight⟩ := t.fix_leaves 1 (.x (32 + b) (base + wrap 64 n)) 0 false
    rw [if_pos step, if_pos step, UnderWay, Awaits, posted, inflight, mem]
    exact ⟨h.underWay, h.awaits, State.fix_pending h.pending h.issue h.cycle h.ccount h.seq _ _ _ _, h.mem⟩
  · rw [if_neg step, if_neg step]
    exact ⟨h.underWay, h.awaits, h.pending, h.mem⟩

/-- A load that issues leaves s as its translation and its line leave it. -/
theorem loadTo_spec {s : State} {va : W64} {z pa d : Nat} (acc : s.access va (szBytes z) .read = .ok pa) (k : State → State) :
    let s' := s.noteTlb s.clNo (s.agentOf s.cur) false va.toNat
    (s'.missFull s'.clNo (s'.missing s'.clNo pa) = true → s.loadTo z va d k = s'.hold .block) ∧
    (s'.missFull s'.clNo (s'.missing s'.clNo pa) = false → ∃ t, s.loadTo z va d k = .next (k t) ∧
      LoadIssued s t { pa := pa, va := va, op := .load z, id := s.nextInter, dst := d } d) := by
  intro s'
  have noted : Reads s s' := State.reads_noteTlb _ _ _ _ _
  have loads : s.loadTo z va d k = s'.issueMem { pa := pa, va := va, op := .load z } (some d) k := by rw [State.loadTo, acc]
  refine ⟨fun full => loads.trans (issueMem_full (r := { pa := pa, va := va, op := .load z }) full _ _), fun free => ?_⟩
  obtain ⟨u, blk, asked, issued⟩ := issueMem_load (r := { pa := pa, va := va, op := .load z }) free d k
  refine ⟨_, loads.trans issued, ?_⟩
  rw [State.nextInter, noted.me]
  exact (noted.trans asked).loadIssued_post _ _ _

/-! ## An access performed -/

theorem perform1_load {s : State} {r : MemReq} {z : Nat} (op : r.op = .load z) (home : s.atBankOf (r.ctx / 4) r.pa = false)
    (hit : s.missing (r.ctx / 4) r.pa = none) : s.perform1 r = some (s.serve r) := by
  have line : s.lineFor (r.ctx / 4) r = none := by rw [State.lineFor, op, hit]
  unfold State.perform1
  dsimp only
  rw [home, line]
  rfl

theorem perform1_bank {s : State} {r : MemReq} (bank : s.atBankOf (r.ctx / 4) r.pa = true) : s.perform1 r = some (s.sendPig r) := by
  unfold State.perform1
  dsimp only
  rw [bank]
  rfl

/-- The one access of a context, due and performed, is no longer posted. -/
theorem performDue_one {s t : State} {g : Nat} {r : MemReq} (posted : (s.ctx g).posted = [r]) (due : r.due ≤ (s.cl (g / 4)).cycle)
    (done : s.perform1 r = some t) : s.performDue g = t.setCtx g { t.ctx g with posted := [] } := by
  have some_ : s.performSome (fun r => decide (r.due ≤ (s.cl (g / 4)).cycle)) [] [r] = (t, []) := by
    simp [State.performSome, due, done]
  unfold State.performDue
  dsimp only
  rw [posted, some_]
  rfl

/-- Settles O6: a load by what its access and its line leave, an access performed by its place and the answer of the L1. -/
theorem loadResults : Obligations.LoadResults := by
  intro s z pa
  refine ⟨fun d r u o ready => ?ld, fun d a b x y s1 ready hread => ?ldx, fun r op home hit => ⟨fun v t load => ?read, fun t load => ?fails⟩,
    fun r bank => perform1_bank bank, fun g r t posted due done => performDue_one posted due done⟩
  case ld =>
    intro base n va s' acc
    obtain ⟨full, free⟩ := loadTo_spec (d := d.toNat) acc fun t => t.bump u r.toNat base n
    rw [exec_of_ready ready fun _ => rfl]
    refine ⟨full, fun room => ?_⟩
    obtain ⟨t, issued, loads⟩ := free room
    exact ⟨_, issued, loads.bump u _ _ _⟩
  case ldx =>
    cases hread
    intro va s' acc
    obtain ⟨full, free⟩ := loadTo_spec (d := d.toNat) acc id
    rw [exec_of_ready ready fun _ => rfl]
    simp only [← wrap_toInt_add_mul]
    refine ⟨full, fun room => ?_⟩
    obtain ⟨t, issued, loads⟩ := free room
    refine ⟨t, issued, ?_, ?_, loads.pending.trans (by simp), loads.mem.trans (by simp)⟩
    · simpa [State.nextInter] using loads.underWay
    · simpa [Awaits, State.nextInter] using loads.awaits
  case read =>
    rw [perform1_load op home hit]
    simp only [State.serve, op, load]
  case fails =>
    rw [perform1_load op home hit]
    simp only [State.serve, op, load]

end Sys2Proof.Machine
end

section
/-! SUPPORT. Vector accesses of the local store under way and performed (O18). -/
namespace Sys2Proof.Machine

/-! ## The accesses of one result -/

/-- Posting an access of the bundle adds it at the end, due later, and changes only the posted accesses of the context. -/
theorem State.post_adds (s : State) (r : MemReq) : ∃ due, s.myCl.cycle < due ∧ (s.post r).cur = s.cur ∧
    (s.post r).myCl.cycle = s.myCl.cycle ∧ (s.post r).mem = s.mem ∧ (s.post r).me.inflight = s.me.inflight ∧
    (s.post r).me.posted = s.me.posted ++
      [{ r with ctx := s.cur, bpc := s.issue.bpc, slot := s.issue.slot, due := due, seq := s.me.seq }] := by
  obtain ⟨due, later, -, posted⟩ := s.post_spec r
  have me : (s.post r).me = _ := (congrArg State.me posted).trans (State.me_setMe s _)
  refine ⟨due, later, ?_, ?_, ?_, ?_, ?_⟩
  · rw [posted]; rfl
  · rw [posted]; rfl
  · rw [posted]; rfl
  · rw [me]
  · rw [me]

/-- Accesses posted together stand in their order after those before them, each due later. -/
theorem State.postAll_adds (l : List MemReq) (s : State) : ∃ rs, (s.postAll l).me.posted = s.me.posted ++ rs ∧
    (s.postAll l).me.inflight = s.me.inflight ∧ (s.postAll l).mem = s.mem ∧
    rs.map (fun q => (q.pa, q.va, q.op, q.arg)) = l.map (fun q => (q.pa, q.va, q.op, q.arg)) ∧
    (∀ q ∈ rs, q.id ∈ l.map (·.id) ∧ q.ctx = s.cur ∧ s.myCl.cycle < q.due) := by
  induction l generalizing s with
  | nil => exact ⟨[], (List.append_nil _).symm, rfl, rfl, rfl, fun q h => by cases h⟩
  | cons r l ih =>
    obtain ⟨due, later, cur, cycle, mem, inflight, posted⟩ := s.post_adds r
    obtain ⟨rs, posteds, inflights, mems, same, each⟩ := ih (s.post r)
    refine ⟨{ r with ctx := s.cur, bpc := s.issue.bpc, slot := s.issue.slot, due := due, seq := s.me.seq } :: rs,
      ?_, inflights.trans inflight, mems.trans mem, by simp [same], ?_⟩
    · rw [show s.postAll (r :: l) = (s.post r).postAll l from rfl, posteds, posted, List.append_assoc]
      rfl
    · rw [cur, cycle] at each
      rw [List.forall_mem_cons]
      exact ⟨⟨List.mem_cons_self, rfl, later⟩, fun q h => ⟨List.mem_cons_of_mem _ (each q h).1, (each q h).2⟩⟩

theorem elemReqs_id (cl id reason : Nat) (es : List (W64 × MemOp × W64)) : ∀ q ∈ (elemReqs cl id reason es).map (·.id), q = id := by
  simp [elemReqs]

theorem elemReqs_parts (cl id reason : Nat) (es : List (W64 × MemOp × W64)) :
    (elemReqs cl id reason es).map (fun q => (q.pa, q.va, q.op, q.arg)) = es.map (fun e => (lsAt cl e.1.toNat, e.1, e.2.1, e.2.2)) :=
  List.ext_getElem (by simp [elemReqs]) fun n _ _ => by simp [elemReqs]

/-- A result made of n accesses: it waits for the last, and is complete at once where it has none. -/
theorem State.interAcc_adds (s : State) (v n : Nat) : ∃ f, (s.interAcc [.v v] (s.oldV v) n).me.inflight = s.me.inflight ++ [f] ∧
    (s.interAcc [.v v] (s.oldV v) n).me.posted = s.me.posted ∧ f.id = s.nextInter ∧ f.dsts = [.v v] ∧ f.acc = s.oldV v ∧
    f.left = n ∧ f.failed = none ∧ (f.val = none ↔ n ≠ 0) := by
  have me : (s.interAcc [.v v] (s.oldV v) n).me = _ := State.me_setMe _ _
  rw [me]
  refine ⟨_, rfl, rfl, ?_⟩
  split <;> simp_all [Reg.isFixed, State.nextInter]

theorem State.vecRead_adds (s : State) (v reason : Nat) (es : List (W64 × MemOp × W64)) :
    ∃ rs f, (s.vecRead v reason es).me.posted = s.me.posted ++ rs ∧ (s.vecRead v reason es).me.inflight = s.me.inflight ++ [f] ∧
      rs.map (fun q => (q.pa, q.va, q.op, q.arg)) = es.map (fun e => (lsAt s.clNo e.1.toNat, e.1, e.2.1, e.2.2)) ∧
      (∀ q ∈ rs, q.id = s.nextInter ∧ q.ctx = s.cur ∧ s.myCl.cycle < q.due) ∧ f.id = s.nextInter ∧ f.dsts = [.v v] ∧
      f.acc = s.oldV v ∧ f.left = es.length ∧ f.failed = none ∧ (f.val = none ↔ es ≠ []) ∧ (s.vecRead v reason es).mem = s.mem := by
  obtain ⟨f, waits, before, id, dsts, acc, left, failed, val⟩ := s.interAcc_adds v es.length
  obtain ⟨rs, posted, inflight, mem, same, each⟩ :=
    State.postAll_adds (elemReqs s.clNo s.nextInter reason es) (s.interAcc [.v v] (s.oldV v) es.length)
  refine ⟨rs, f, posted.trans (by rw [before]), inflight.trans waits, same.trans (elemReqs_parts _ _ _ _),
    fun q h => ⟨elemReqs_id _ _ _ _ _ (each q h).1, (each q h).2⟩, id, dsts, acc, left, failed, val.trans ?_, mem⟩
  rw [Ne, List.length_eq_zero_iff]

/-! ## An access of a vector instruction performed -/

section
variable {s : State} {r : MemReq}

theorem serve_lane {n b : Nat} (op : r.op = .lane n b) (good : (s.readAt (r.ctx / 4) r.pa n).badAt r.pa n = false) :
    s.serve r = (s.readAt (r.ctx / 4) r.pa n).takePart r
      (some fun x => setBits x b n ((s.readAt (r.ctx / 4) r.pa n).load r.pa n)) := by
  simp [State.serve, op, good]

theorem serve_lane_bad {n b : Nat} (op : r.op = .lane n b) (bad : (s.readAt (r.ctx / 4) r.pa n).badAt r.pa n = true) :
    s.serve r = ((s.readAt (r.ctx / 4) r.pa n).logPart r n).takePart r none := by
  simp [State.serve, op, bad]

theorem serve_bcst (op : r.op = .bcst) (good : (s.readAt (r.ctx / 4) r.pa 4).badAt r.pa 4 = false) :
    s.serve r = (s.readAt (r.ctx / 4) r.pa 4).takePart r
      (some fun x => lanes r.arg x fun _ => BitVec.ofNat 32 ((s.readAt (r.ctx / 4) r.pa 4).load r.pa 4)) := by
  simp [State.serve, op, good]

theorem serve_addEl {float : Bool} (op : r.op = .addEl float) (good : (s.readAt (r.ctx / 4) r.pa 4).badAt r.pa 4 = false) :
    let x := (s.readAt (r.ctx / 4) r.pa 4).load r.pa 4
    let sum := if float then fAdd f32 .rne x (fld r.arg 0 32) else ((x + fld r.arg 0 32) % 2 ^ 32, 0)
    let w := (s.readAt (r.ctx / 4) r.pa 4).perform r.pa 4 sum.1
    s.serve r = (w.setCtx r.ctx ((w.ctx r.ctx).orFlags sum.2 true)).takePart r (some id) := by
  simp only [State.serve, op, State.addElem, good]
  rfl

variable {f : Inflight} (found : (s.ctx r.ctx).inflight.find? (fun f => f.id == r.id) = some f)
include found

/-- An access performed that is not the result's last. -/
theorem takePart_more (g : V2048 → V2048) (more : 1 < f.left) :
    s.takePart r (some g) = s.setCtx r.ctx { s.ctx r.ctx with
      inflight := (s.ctx r.ctx).inflight.map fun h => if h.id = r.id then { f with left := f.left - 1, acc := g f.acc } else h } := by
  have left : f.left - 1 ≠ 0 := by omega
  simp [State.takePart, found, Inflight.take, left]

/-- The last access of a result of which none failed. -/
theorem takePart_last (g : V2048 → V2048) (last : f.left = 1) (failed : f.failed = none) :
    s.takePart r (some g) = s.setCtx r.ctx { s.ctx r.ctx with
      inflight := (s.ctx r.ctx).inflight.map fun h => if h.id = r.id then
        { f with left := 0, acc := g f.acc, val := some ({ f with acc := g f.acc }).whole } else h } := by
  simp [State.takePart, found, Inflight.take, last, failed, Inflight.whole]

/-- The last access of a result fails, and no other did. -/
theorem takePart_fails (last : f.left = 1) (failed : f.failed = none) : s.takePart r none = (s.dropInter r.ctx r.id).memErr r := by
  simp [State.takePart, found, Inflight.take, last, failed]

end

/-! ## A lane and its bits -/

theorem getLsbD_lane (x : V2048) {j k : Nat} (hk : k < 32) : (lane x j).getLsbD k = x.getLsbD (32 * j + k) := by
  rw [lane, BitVec.getLsbD_ofNat, Nat.testBit_div_two_pow, BitVec.testBit_toNat, Nat.add_comm, decide_eq_true hk, Bool.true_and]

/-- The bits of a field put into a vector are the value's, and the others the vector's. -/
theorem getLsbD_setBits (x : V2048) (b n v : Nat) {k : Nat} (hk : k < 2048) :
    (setBits x b n v).getLsbD k = if b ≤ k ∧ k < b + 8 * n then v.testBit (k - b) else x.getLsbD k := by
  have within : (k - b < 2048) := by omega
  by_cases low : k < b
  · have out : ¬ (b ≤ k ∧ k < b + 8 * n) := by omega
    simp [setBits, hk, low, out]
  · rw [if_congr (show b ≤ k ∧ k < b + 8 * n ↔ k - b < 8 * n by omega) rfl rfl]
    simp only [setBits, BitVec.getLsbD_or, BitVec.getLsbD_and, BitVec.getLsbD_not, BitVec.getLsbD_shiftLeft, BitVec.getLsbD_ofNat,
      Nat.testBit_two_pow_sub_one, hk, low, within]
    split
    case isTrue inside => simp [inside]
    case isFalse out => simp [out]

/-- A 32-bit element put into a vector: its lane holds it, and every other lane what it held. -/
theorem lane_setBits (x : V2048) (v : Nat) {i j : Nat} (hj : j < 64) :
    lane (setBits x (32 * i) 4 v) j = if j = i then BitVec.ofNat 32 v else lane x j := by
  refine BitVec.eq_of_getLsbD_eq fun k hk => ?_
  rw [getLsbD_lane _ hk, getLsbD_setBits x _ _ _ (by omega)]
  split
  case isTrue inside =>
    have same : j = i := by omega
    rw [if_pos same, BitVec.getLsbD_ofNat, decide_eq_true hk, Bool.true_and, same, Nat.add_sub_cancel_left]
  case isFalse out =>
    have other : j ≠ i := by omega
    rw [if_neg other, getLsbD_lane _ hk]

/-! ## The instructions -/

/-- What a vector load does past its checks: with mode 2 one access serves every active lane (R162). -/
theorem exec_vld {s : State} {d : BitVec 5} {r : BitVec 4} {u : BitVec 1} {p : BitVec 3} {m : BitVec 2} {o : BitVec 6} {acc : VAcc}
    (ready : Ready (.vld d r u p m o) s) (ok : s.vAcc false r u (s.me.getP p.toNat) m (s.imm o) = .ok acc)
    (pass : s.vecCheck 4 acc.badStride (acc.lanes.map acc.at_) = none) :
    exec (.vld d r u p m o) s = if acc.wait then s.hold .block else
      .next ((s.vecRead d.toNat 2 (if m = 2#2 then ((acc.lanes.map acc.at_).head?.map fun va => (va, MemOp.bcst, s.me.getP p.toNat)).toList
        else acc.lanes.map fun i => (acc.at_ i, .lane 4 (32 * i), 0))).vBump u r acc.base') := by
  rw [exec_of_ready ready fun _ => rfl]
  simp only [ok, pass]

theorem exec_vst {s s1 : State} {x : V2048} {d : BitVec 5} {r : BitVec 4} {u : BitVec 1} {p : BitVec 3} {m : BitVec 2} {o : BitVec 6}
    {acc : VAcc} (ready : Ready (.vst d r u p m o) s) (hread : s.readV d.toNat = (x, s1))
    (ok : s1.vAcc true r u (s1.me.getP p.toNat) m (s1.imm o) = .ok acc)
    (pass : s1.vecCheck 4 acc.badStride (acc.lanes.map acc.at_) = none) : exec (.vst d r u p m o) s =
      .next ((s1.vecWrite (acc.lanes.map fun i => (acc.at_ i, .store 4, (lane x i).setWidth 64))).vBump u r acc.base') := by
  rw [exec_of_ready ready fun _ => rfl]
  simp only [hread, ok, pass]

/-- What a gather does past its shared checks (R165). -/
theorem gather_of_pass {half : Bool} {d b : BitVec 5} {a : BitVec 4} {p : BitVec 3} {s t : State} {y : V2048}
    (ready : s.issueCheck 0 [.x (32 + a.toNat), .v b.toNat, .p p.toNat] [.v d.toNat] = none) (hread : s.readV b.toNat = (y, t))
    (pass : t.vecCheck (if half then 2 else 4) false ((elems half (s.areg a.toNat) y (s.me.getP p.toNat)).map (·.2.2)) = none) :
    gather half d a b p s = .next (t.vecRead d.toNat 3 ((elems half (s.areg a.toNat) y (s.me.getP p.toNat)).map
      fun e => (e.2.2, .lane (if half then 2 else 4) (32 * e.1 + 16 * e.2.1), 0))) := by
  have areg : t.areg a.toNat = s.areg a.toNat := by rw [← readV_areg s b.toNat, hread]
  rw [gather, gate_pass _ ready]
  simp only [hread, areg, getP_of_readV hread, pass]

section
variable {d b : BitVec 5} {a : BitVec 4} {p : BitVec 3} {s t : State} {x y : V2048}
  (ready : s.issueCheck 0 [.v d.toNat, .x (32 + a.toNat), .v b.toNat, .p p.toNat] [] = none) (hread : s.read2V d b = (x, y, t))
include ready hread

/-- What a scatter does past its shared checks (R166). -/
theorem scatter_of_pass {half : Bool}
    (pass : t.vecCheck (if half then 2 else 4) false ((elems half (s.areg a.toNat) y (s.me.getP p.toNat)).map (·.2.2)) = none) :
    scatter half d a b p s = .next (t.vecWrite ((elems half (s.areg a.toNat) y (s.me.getP p.toNat)).map
      fun e => (e.2.2, .store (if half then 2 else 4), (lane x e.1).setWidth 64 >>> (16 * e.2.1)))) := by
  cases hread
  rw [scatter, gate_pass _ ready]
  simp only [readV_areg, readV_getP, pass]

/-- What a scatter-add does past its shared checks (R167). -/
theorem scatterAdd_of_pass {float : Bool} (pass : t.vecCheck 4 false ((elems false (s.areg a.toNat) y (s.me.getP p.toNat)).map (·.2.2)) = none) :
    scatterAdd float d a b p s = .next ((t.interAcc [] 0 (elems false (s.areg a.toNat) y (s.me.getP p.toNat)).length).postAll
      (elemReqs t.clNo t.nextInter 4 ((elems false (s.areg a.toNat) y (s.me.getP p.toNat)).map
        fun e => (e.2.2, .addEl float, (lane x e.1).setWidth 64)))) := by
  cases hread
  rw [scatterAdd, gate_pass _ ready]
  simp only [readV_areg, readV_getP, pass]

end

/-- Settles O18: each instruction past its checks, what a vector read adds, each operation performed, and the lane an element lands in. -/
theorem vectorMemoryResults : Obligations.VectorMemoryResults := by
  refine ⟨fun s s1 x d r u p m o => ⟨fun acc ready ok pass => ?vld, fun acc ready hread ok pass => exec_vst ready hread ok pass,
      fun b y t hread => ?gather, fun b y t hread => ?scatter, fun b y t hread => ?scatterAdd⟩,
    fun s v reason es => s.vecRead_adds v reason es,
    fun s r => ⟨fun n b op => ⟨fun good => serve_lane op good, fun bad => serve_lane_bad op bad⟩, fun op good => serve_bcst op good,
      fun float op good => serve_addEl op good, fun f found failed =>
        ⟨fun g more => takePart_more found g more, fun g last => takePart_last found g last failed, fun last => takePart_fails found last failed⟩⟩,
    fun x v i j _ hj => lane_setBits x v hj⟩
  case vld =>
    rw [exec_vld ready ok pass]
    refine ⟨fun wait => if_pos wait, fun go mode => ?_, fun go mode none_ => ?_, fun i is go mode some_ => ?_⟩
    · simp only [go, mode, if_false, Bool.false_eq_true]
    · simp only [go, mode, none_, if_true, if_false, Bool.false_eq_true, List.map_nil, List.head?_nil, Option.map_none, Option.toList_none]
    · simp only [go, mode, some_, if_true, if_false, Bool.false_eq_true, List.map_cons, List.head?_cons, Option.map_some, Option.toList_some]
  case gather =>
    rw [List.forall_mem_cons, List.forall_mem_singleton]
    exact ⟨fun ready pass => (gather_of_pass (half := false) ready hread pass : execVgth32 d r b p s = _),
      fun ready pass => (gather_of_pass (half := true) ready hread pass : execVgth16 d r b p s = _)⟩
  case scatter =>
    rw [List.forall_mem_cons, List.forall_mem_singleton]
    exact ⟨fun ready pass => (scatter_of_pass (half := false) ready hread pass : execVsct32 d r b p s = _),
      fun ready pass => (scatter_of_pass (half := true) ready hread pass : execVsct16 d r b p s = _)⟩
  case scatterAdd =>
    rw [List.forall_mem_cons, List.forall_mem_singleton]
    exact ⟨fun ready pass => (scatterAdd_of_pass (float := true) ready hread pass : execVsctaddF32 d r b p s = _),
      fun ready pass => (scatterAdd_of_pass (float := false) ready hread pass : execVsctaddS32 d r b p s = _)⟩

end Sys2Proof.Machine
end

section
/-! SUPPORT. What a trap and eret leave (O56). -/
namespace Sys2Proof.Machine

/-! ## Which cluster of a site is its monitor -/

/-- The monitor cluster of each site. -/
def State.monitors (s : State) (site : Nat) : Nat := (s.site site).moncl

theorem State.isMon_of_monitors {s t : State} (h : t.monitors = s.monitors) (cl : Nat) : t.isMon cl = s.isMon cl := by
  have same : (t.site (siteOf cl)).moncl = (s.site (siteOf cl)).moncl := congrFun h (siteOf cl)
  rw [State.isMon, same, State.isMon]

/-- Where the sites are the same, so are their monitors. -/
theorem State.monitors_of_sites {s t : State} (h : t.sites = s.sites) : t.monitors = s.monitors := by
  funext m
  rw [State.monitors, State.site, h, State.monitors, State.site]

theorem State.monitors_setSite {s : State} {n : Nat} {x : Site} (h : x.moncl = (s.site n).moncl) : (s.setSite n x).monitors = s.monitors := by
  funext m
  by_cases here : m = n
  · rw [here, State.monitors, State.site_setSite, h, State.monitors]
  · rw [State.monitors, State.site_setSite_ne _ _ _ _ here, State.monitors]

@[simp] theorem State.monitors_ite (p : Prop) [Decidable p] (s t : State) :
    (if p then s else t).monitors = if p then s.monitors else t.monitors := apply_ite State.monitors p s t

@[simp] theorem foldl_monitors {α : Type} (f : State → α → State) (hf : ∀ s a, (f s a).monitors = s.monitors) (l : List α) (s : State) :
    (l.foldl f s).monitors = s.monitors := foldl_keeps (fun t => t.monitors = s.monitors) f (fun t a h => (hf t a).trans h) l rfl

@[simp] theorem State.monitors_teams (s : State) (teams : Map Team) : ({ s with teams := teams } : State).monitors = s.monitors :=
  State.monitors_of_sites (by rfl)

@[simp] theorem State.monitors_setCtx (s : State) (g : Nat) (c : Ctx) : (s.setCtx g c).monitors = s.monitors := by rfl
@[simp] theorem State.monitors_setCl (s : State) (n : Nat) (c : Cluster) : (s.setCl n c).monitors = s.monitors := by rfl

@[simp] theorem State.monitors_logEntry (s : State) (site cls : Nat) (cl : Option Nat) (code src addr detail : Nat) :
    (s.logEntry site cls cl code src addr detail).monitors = s.monitors := State.monitors_setSite (by rfl)

@[simp] theorem State.monitors_logErr (s : State) (cl pa code : Nat) : (s.logErr cl pa code).monitors = s.monitors := by
  simp [State.logErr]

@[simp] theorem State.monitors_countEvent (s : State) (cl pa : Nat) : (s.countEvent cl pa).monitors = s.monitors := by
  simp [State.countEvent]

@[simp] theorem State.monitors_healFor (s : State) (pa n : Nat) (who : Option Nat) : (s.healFor pa n who).monitors = s.monitors := by
  have each (s : State) (w : Nat) (whole : Bool) : (if whole then s else s.logErr (s.reporter w who) w).monitors = s.monitors := by simp
  unfold State.healFor State.healWith
  split
  · rfl
  · exact foldl_monitors _ (fun s w => each s w _) _ s

@[simp] theorem State.monitors_unitPut (s : State) (pa mask v : Nat) : (s.unitPut pa mask v).monitors = s.monitors := by
  have sites : (s.unitPut pa mask v).sites = s.sites := by simp only [State.unitPut]
  exact State.monitors_of_sites sites

@[simp] theorem State.monitors_unitsPut (s : State) (pa n mask v : Nat) : (s.unitsPut pa n mask v).monitors = s.monitors := by
  simp [State.unitsPut]

@[simp] theorem State.monitors_store (s : State) (pa n v : Nat) (who : Option Nat) : (s.store pa n v who).monitors = s.monitors := by
  have healed := s.monitors_healFor pa n who
  unfold State.store
  dsimp only
  split
  · exact healed
  · rw [State.monitors_unitsPut, healed]

@[simp] theorem State.monitors_readySet (s : State) (cl k : Nat) : (s.readySet cl k).monitors = s.monitors := by simp [State.readySet]
@[simp] theorem State.monitors_activate (s : State) (cl x : Nat) : (s.activate cl x).monitors = s.monitors := by simp [State.activate]
@[simp] theorem State.monitors_noteEnc (s : State) (pa : Nat) : (s.noteEnc pa).monitors = s.monitors := by simp [State.noteEnc]
@[simp] theorem State.monitors_wakeLs (s : State) (cl x n : Nat) : (s.wakeLs cl x n).monitors = s.monitors := by simp [State.wakeLs]
@[simp] theorem State.monitors_wake (s : State) (pa n : Nat) : (s.wake pa n).monitors = s.monitors := by simp [State.wake]

@[simp] theorem State.monitors_drainWq (s : State) (cl ch : Nat) (gone : WqEnt → Bool) : (s.drainWq cl ch gone).monitors = s.monitors := by
  rw [State.drainWq, foldl_monitors _ fun s e => by rfl, State.monitors_setCl]

@[simp] theorem State.monitors_putWq (s : State) (cl ch r : Nat) (f : WqEnt → WqEnt) : (s.putWq cl ch r f).monitors = s.monitors := by
  unfold State.putWq
  dsimp only
  rw [State.monitors_setCl]
  split
  · split
    · exact State.monitors_drainWq _ _ _ _
    · rfl
  · rfl

@[simp] theorem State.monitors_enqueue (s : State) (pa n m : Nat) : (s.enqueue pa n m).monitors = s.monitors := by simp [State.enqueue]

@[simp] theorem State.monitors_perform (s : State) (pa n v : Nat) (who : Option Nat) : (s.perform pa n v who).monitors = s.monitors := by
  simp [State.perform]

@[simp] theorem State.monitors_setQueue (s : State) (site q : Nat) (w : WorkQ) : (s.setQueue site q w).monitors = s.monitors :=
  State.monitors_setSite (by rfl)

@[simp] theorem State.monitors_setHeap (s : State) (site h : Nat) (w : Heap) : (s.setHeap site h w).monitors = s.monitors :=
  State.monitors_setSite (by rfl)

@[simp] theorem State.monitors_taskFaultTo (s : State) (k : CurTask) (t : Trap) (pc : W64) (g frec owner team : Nat) :
    (s.taskFaultTo k t pc g frec owner team).monitors = s.monitors := by
  unfold State.taskFaultTo
  extract_lets z tf give tm
  have performed : z.monitors = s.monitors := State.monitors_perform ..
  split
  · rw [State.monitors_teams, performed]
  · rw [State.monitors_setCtx, performed]

@[simp] theorem State.monitors_freezeTask (s : State) (g : Nat) (t : Trap) (pc : W64) : (s.freezeTask g t pc).monitors = s.monitors := by
  unfold State.freezeTask
  split
  · rfl
  · split
    · rfl
    · split
      · dsimp only
        split <;> simp
      · dsimp only
        split <;> simp

theorem State.freezeTask_none {s : State} {g : Nat} (h : (s.ctx g).task = none) (t : Trap) (pc : W64) : s.freezeTask g t pc = s := by
  rw [State.freezeTask, h]

/-! ## The writes that are due land -/

theorem Ctx.landDue_ccount (c : Ctx) : c.landDue.ccount = c.ccount := by
  unfold Ctx.landDue
  split
  · rfl
  · exact (Ctx.foldl_landOne _ _).2.1

theorem Ctx.landDue_early {c : Ctx} (early : ∀ p ∈ c.pending, c.ccount < p.due) : c.landDue = c := by
  have none_ : c.dueNow = [] := List.filter_eq_nil_iff.mpr fun p h => by simpa using early p h
  rw [Ctx.landDue, none_, List.foldl_nil, ite_self]

/-! ## The context a trap leaves -/

/-- What the shadow buffer takes up changes nothing but it and the writes in flight (R104). -/
theorem Ctx.toShadow_eq (c : Ctx) : ∃ sh pend tr, c.toShadow = { c.landDue with shadow := sh, pending := pend, trapShadow := tr } ∧
    (c.landDue.shadow = [] → sh = c.landDue.pending.map c.landDue.shadowOf ∧ pend = [] ∧ tr = !c.landDue.pending.isEmpty) ∧
    (c.landDue.shadow ≠ [] → sh = c.landDue.shadow ∧ pend = c.landDue.pending ∧ tr = false) := by
  unfold Ctx.toShadow
  extract_lets d sh
  by_cases empty : d.shadow = []
  · refine ⟨sh, [], !sh.isEmpty, by simp [empty], fun _ => ⟨rfl, rfl, congrArg (!·) List.isEmpty_map⟩, fun h => absurd empty h⟩
  · exact ⟨d.shadow, d.pending, false, by simp [empty], fun h => absurd h empty, fun _ => ⟨rfl, rfl, rfl⟩⟩

theorem State.ctx_trapEntry (s : State) (g : Nat) (t : Trap) (pc : W64) (w : Nat) :
    let c := ((s.freezeTask g t pc).ctx g).toShadow
    (s.trapEntry g t pc w).ctx g = { c with
      trapCause := t.cause, trapPc := pc, trapAddr := t.addr, trapInfo := t.info, trapWrem := w
      ppriv := c.priv, priv := if s.isMon (g / 4) then 2 else 1
      lbuf := c.lbuf.map fun l => { l with suspended := true }
      sqr := { c.sqr with susp := c.sqr.susp || c.sqr.step != 0 }
      waitLeft := none, settle := true, cstate := .fetch
      pc := c.trapVec
      live := if c.trapVec = 0 then .exiting else c.live
      exitTrap := if c.trapVec = 0 then some t else c.exitTrap } := by
  intro c
  rw [State.trapEntry, State.ctx_setCtx, State.trapLevel, State.isMon_of_monitors (s.monitors_freezeTask g t pc)]

/-- What eret does with the shadow buffer (R90, R105). -/
theorem Ctx.replay_eq (c : Ctx) : ∃ sh pend tr, c.replay = { c with shadow := sh, pending := pend, trapShadow := tr } ∧
    (c.trapShadow = true → sh = [] ∧ tr = false ∧ pend = (c.shadow.map fun e =>
      { wr := if e.noVal then .flags else e.wr, due := c.ccount + e.k, seq := 0, fl := e.fl, toV := e.toV }) ++ c.pending) ∧
    (c.trapShadow = false → sh = c.shadow ∧ pend = c.pending) := by
  by_cases shadowed : c.trapShadow = true
  · exact ⟨_, _, _, if_pos shadowed, fun _ => ⟨rfl, rfl, rfl⟩, fun h => absurd shadowed (by simp [h])⟩
  · exact ⟨c.shadow, c.pending, c.trapShadow, if_neg shadowed, fun h => absurd h shadowed, fun _ => ⟨rfl, rfl⟩⟩

/-- Settles O56: a trap's context by what it froze, landed and took up into the shadow buffer, eret's by what it replays. -/
theorem trapEntryRule : Obligations.TrapEntryRule := by
  refine ⟨fun s g t pc w => ?entry, fun c => ?ret⟩
  case entry =>
    intro z c
    refine ⟨Ctx.landDue_early, Ctx.landDue_ccount _, ?_⟩
    intro u
    obtain ⟨sh, pend, tr, shadowed, empty, held⟩ := (z.ctx g).toShadow_eq
    have entered : u = _ := s.ctx_trapEntry g t pc w
    rw [shadowed] at entered
    refine ⟨fun h => State.freezeTask_none h t pc, ?_⟩
    rw [entered]
    refine ⟨rfl, rfl, rfl, rfl, rfl, rfl, rfl, rfl, rfl, rfl, fun h => ⟨if_pos h, if_pos h⟩, fun h => ⟨if_neg h, if_neg h⟩, ?_, ?_, ?_,
      rfl, rfl, rfl, rfl, rfl, rfl, rfl, rfl, rfl, rfl, fun h other => State.ctx_setCtx_ne _ _ _ _ other⟩
    · intro h
      obtain ⟨rfl, rfl, rfl⟩ := empty h
      refine ⟨rfl, List.length_map _, rfl, fun k p at_ => ⟨(z.ctx g).landDue.shadowOf p, ?_, rfl, rfl, rfl, rfl⟩⟩
      exact (List.getElem?_map ..).trans (congrArg _ at_)
    · intro h
      obtain ⟨rfl, rfl, rfl⟩ := held h
      exact ⟨rfl, rfl, rfl⟩
    · intro l h
      obtain ⟨old, -, rfl⟩ := Option.map_eq_some_iff.mp h
      rfl
  case ret =>
    obtain ⟨sh, pend, tr, replays, shadowed, empty⟩ := c.replay_eq
    rw [Ctx.eret, replays]
    refine ⟨rfl, rfl, rfl, ?_, rfl, fun h => ?_, empty, rfl, rfl, rfl, rfl, rfl⟩
    · intro l h
      obtain ⟨old, -, rfl⟩ := Option.map_eq_some_iff.mp h
      rfl
    · exact shadowed h

end Sys2Proof.Machine
end

section
/-! SUPPORT. Gangs, joins and contexts that start, stop, exit and are saved (O44). -/
namespace Sys2Proof.Machine

/-! ## A context that stops for a pre-emption -/

theorem Ctx.landOne_pc (c : Ctx) (p : Pend) : (c.landOne p).pc = c.pc :=
  (Ctx.orFlags_keeps Ctx.pc _ _ _ fun _ _ => rfl).trans (Ctx.land_keeps _ _ _ fun _ _ _ _ _ _ _ => rfl)

theorem Ctx.toShadow_pc (c : Ctx) : c.toShadow.pc = c.pc := by
  have landed : c.landDue.pc = c.pc := by
    unfold Ctx.landDue
    split
    · rfl
    · exact Unmoved.foldl ⟨fun _ _ => rfl, fun p _ d => d.landOne_pc p⟩ c
  unfold Ctx.toShadow
  dsimp only
  split <;> exact landed

/-- The formats that land change their cluster alone, and what of the context waits to. -/
theorem State.landFmts_keeps (s : State) (g : Nat) : (s.landFmts g).mem = s.mem ∧ ((s.landFmts g).ctx g).pc = (s.ctx g).pc := by
  unfold State.landFmts
  dsimp only
  split
  · exact ⟨rfl, rfl⟩
  · refine foldl_keeps (fun t => t.mem = s.mem ∧ (t.ctx g).pc = (s.ctx g).pc) (fun t f => t.landFmt (g / 4) f) (fun t f h => h) _
      ⟨rfl, ?_⟩
    rw [State.ctx_setCtx]

/-- A context that is to stop does so with its bundle unissued (R107). -/
theorem exec_contextPreemptionStop_due {s : State} {g : Nat} (due : s.stopDue g = true) :
    ∃ t, exec (.contextPreemptionStop g) s = .next t ∧ (t.ctx g).live = .stopped ∧ (t.ctx g).cstate = .preempted ∧
      (t.ctx g).pc = ((s.withdraw g).ctx g).pc ∧ (t.ctx g).waiting = false ∧ t.mem = s.mem := by
  obtain ⟨mem, pc⟩ := (s.withdraw g).landFmts_keeps g
  have stops : exec (.contextPreemptionStop g) s = _ := if_pos due
  refine ⟨_, stops, ?_⟩
  rw [State.ctx_setCtx]
  exact ⟨rfl, rfl, (Ctx.toShadow_pc _).trans pc, rfl, mem⟩

/-! ## A context that exits -/

/-- The context's streams are gone and its results have landed. -/
def State.exitLands (s : State) (g : Nat) : State := (s.dropStreams g).landAll g

theorem exec_contextExitCompletion_not {s : State} {g : Nat} (h : (s.ctx g).live ≠ .exiting) :
    exec (.contextExitCompletion g) s = .next s := if_pos h

section
variable {s : State} {g : Nat} (exiting : (s.ctx g).live = .exiting)
include exiting

/-- A context that exits, past the check that it does. -/
theorem exec_contextExitCompletion_exiting : exec (.contextExitCompletion g) s =
    if !((s.exitLands g).ctx g).settled then .next (s.exitLands g)
    else if !((((s.exitLands g).freeRings g).ctx g).rings.isEmpty) then .next ((s.exitLands g).freeRings g)
    else
      let t := ((((((s.exitLands g).freeRings g).releaseOwned g).endEpochs g).endTask g).noteExit g)
      .next (t.setCtx g { t.ctx g with
        live := .off, rstack := [], lbuf := none, shadow := [], trapShadow := false, tlErrs := [], taskFaults := [], memErrs := []
        fence := none, waiting := false, sqr := {} }) := if_neg (not_not_intro exiting)

theorem exec_contextExitCompletion_unsettled (waits : ((s.exitLands g).ctx g).settled = false) :
    exec (.contextExitCompletion g) s = .next (s.exitLands g) := by
  rw [exec_contextExitCompletion_exiting exiting, waits]
  rfl

variable (settled : ((s.exitLands g).ctx g).settled = true)
include settled

theorem exec_contextExitCompletion_rings (held : (((s.exitLands g).freeRings g).ctx g).rings ≠ []) :
    exec (.contextExitCompletion g) s = .next ((s.exitLands g).freeRings g) := by
  rw [exec_contextExitCompletion_exiting exiting, settled, if_neg (by simp), if_pos (by simpa using held)]

theorem exec_contextExitCompletion_off (freed : (((s.exitLands g).freeRings g).ctx g).rings = []) :
    ∃ t, exec (.contextExitCompletion g) s = .next t ∧
      (t.ctx g).live = .off ∧ (t.ctx g).rstack = [] ∧ (t.ctx g).lbuf = none ∧ (t.ctx g).shadow = [] := by
  rw [exec_contextExitCompletion_exiting exiting, settled, if_neg (by simp), if_neg (by simp [freed])]
  refine ⟨_, rfl, ?_⟩
  rw [State.ctx_setCtx]
  exact ⟨rfl, rfl, rfl, rfl⟩

end

/-! ## Teams -/

/-- The results of a stopped team's contexts that are known land before they are saved. -/
def State.stopResults (s : State) (x : Team) : State :=
  ((ctxsOf x.clusters).filter fun g => (s.ctx g).live == .stopped).foldl (fun s g =>
    let u := (s.ctx g).tlErrs.foldl (fun s e => s.tryTlErr g e.1) s
    u.setCtx g (u.ctx g).settleKnown) s

/-- The clusters of a stopped team that cannot be saved. -/
def State.saveFails (s : State) (x : Team) : List Nat :=
  x.clusters.filter fun cl => !(s.clSaveOk cl x.slot && (ctxsOf [cl]).all (s.ckptOk x.slot))

section
variable {s : State} {n : Nat} {x : Team} (team : s.team n = some x)
include team

/-- A gang that is placed and whose clusters cannot be prepared. -/
theorem exec_gangStart_fails {l : Letter} {z : State} {e : StartFail} (placed : x.phase = .placed)
    (letter : s.letter x.pb x.letter = some l) (prepared : s.prepareAll n x l x.clusters.zipIdx = (z, some e)) :
    exec (.gangStart n) s = .next (z.abandon n x e) := by
  show execGangStart n s = _
  rw [execGangStart, team]
  dsimp only
  rw [if_neg (not_not_intro placed), letter]
  dsimp only
  rw [prepared]

/-- A gang that is placed and whose clusters are prepared: a JOIN part waits for the others. -/
theorem exec_gangStart_prepared {l : Letter} {z : State} (placed : x.phase = .placed)
    (letter : s.letter x.pb x.letter = some l) (prepared : s.prepareAll n x l x.clusters.zipIdx = (z, none)) :
    exec (.gangStart n) s =
      .next (if l.kind = 3 then z.joinIfHeard n { x with phase := .joining, heard := l.pidx :: x.heard } l else z.startAll n x) := by
  show execGangStart n s = _
  rw [execGangStart, team]
  dsimp only
  rw [if_neg (not_not_intro placed), letter]
  dsimp only
  rw [prepared]

/-- A team that is done ends its launch, once; before that nothing changes. -/
theorem exec_instanceCompletion : exec (.instanceCompletion n) s =
    if (x.phase ≠ .running ∧ x.phase ≠ .stopping) ∨ !s.teamOver x ∨ (x.started ∧ x.finished.contains x.asLetter.pidx) then .next s
    else
      let y := { x with finished := x.asLetter.pidx :: x.finished }
      let z := if y.lastPart then s.freeTeam n x else s.setTeam n y
      .next ((z.mapLetter x.pb x.letter fun l => l.endOne x.trap x.failed).tryRetire x.pb x.letter) := by
  show execInstanceCompletion n s = _
  rw [execInstanceCompletion, team]

theorem exec_teamResumption (may : s.mayResume x = true) (first : ∀ e ∈ s.teams, s.mayResume e.2 = true → x.savedAt ≤ e.2.savedAt) :
    exec (.teamResumption n) s = .next (s.resumeTeam n x) := by
  have none_ : (s.teams.any fun e => s.mayResume e.2 && decide (e.2.savedAt < x.savedAt)) = false := by
    rw [List.any_eq_false]
    intro e mem earlier
    rw [Bool.and_eq_true, decide_eq_true_eq] at earlier
    exact absurd (first e mem earlier.1) (Nat.not_le.mpr earlier.2)
  show execTeamResumption n s = _
  rw [execTeamResumption, team]
  dsimp only
  rw [if_pos ⟨may, by rw [none_]; rfl⟩]

/-- A team that stops is saved once it is quiet, unless its contexts are all OFF. -/
theorem exec_contextSave (stopping : x.phase = .stopping) : exec (.contextSave n) s =
    if !(s.stopResults x).teamQuiet x ∨ (ctxsOf x.clusters).all (fun g => ((s.stopResults x).ctx g).live == .off) then .next (s.stopResults x)
    else .next (if ((s.stopResults x).saveFails x).isEmpty then (s.stopResults x).saveTeam n x
      else (s.stopResults x).failSave n x ((s.stopResults x).saveFails x)) := by
  show execContextSave n s = _
  rw [execContextSave, team]
  exact if_neg (not_not_intro stopping)

theorem exec_contextSave_quiet (stopping : x.phase = .stopping) (quiet : (s.stopResults x).teamQuiet x = true)
    (on : ∃ g ∈ ctxsOf x.clusters, ((s.stopResults x).ctx g).live ≠ .off) :
    exec (.contextSave n) s = .next (if ((s.stopResults x).saveFails x).isEmpty then (s.stopResults x).saveTeam n x
      else (s.stopResults x).failSave n x ((s.stopResults x).saveFails x)) := by
  rw [exec_contextSave team stopping]
  exact if_neg (by simpa [quiet] using on)

theorem exec_contextSave_busy (stopping : x.phase = .stopping) (busy : (s.stopResults x).teamQuiet x = false) :
    exec (.contextSave n) s = .next (s.stopResults x) := by
  rw [exec_contextSave team stopping]
  exact if_pos (Or.inl (by rw [busy]; rfl))

/-! ## The parts of a JOIN -/

section
variable {part : Nat} (join : x.asLetter.kind = 3) (other : part < x.asLetter.npanel) (notMe : part ≠ x.asLetter.pidx)
include join other notMe

/-- A part of a JOIN hears another: before it has started, that the other is there, and after, that the other has finished. -/
theorem exec_joinReport : exec (.joinReport n part) s =
    if x.started then
      let y : Team := { x with finished := if x.finished.contains part then x.finished else part :: x.finished }
      .next (if y.lastPart ∧ y.finished.contains x.asLetter.pidx then s.freeTeam n y else s.setTeam n y)
    else if (x.phase ≠ .placed ∧ x.phase ≠ .joining) ∨ x.heard.contains part then .next s
    else
      let y : Team := { x with heard := part :: x.heard }
      .next (if y.phase = .joining then s.joinIfHeard n y x.asLetter else s.setTeam n y) := by
  show execJoinReport n part s = _
  rw [execJoinReport, team]
  exact if_neg (by rintro (h | h | h); exacts [h join, Nat.not_le.mpr other h, notMe h])

theorem exec_joinReport_waiting (waiting : x.started = false) (phase : x.phase = .placed ∨ x.phase = .joining) (new : part ∉ x.heard) :
    let y : Team := { x with heard := part :: x.heard }
    exec (.joinReport n part) s = .next (if x.phase = .joining ∧ (List.range x.asLetter.npanel).all y.heard.contains = true
      then s.joined n y x.asLetter else s.setTeam n y) := by
  intro y
  rw [exec_joinReport team join other notMe, if_neg (by rw [waiting]; exact Bool.false_ne_true),
    if_neg (by rintro (⟨h, k⟩ | h); exacts [phase.elim h k, new (by simpa using h)]), ite_and]
  rfl

theorem exec_joinReport_started (started : x.started = true) :
    let y : Team := { x with finished := if x.finished.contains part then x.finished else part :: x.finished }
    exec (.joinReport n part) s =
      .next (if y.lastPart = true ∧ x.asLetter.pidx ∈ y.finished then s.freeTeam n y else s.setTeam n y) := by
  intro y
  rw [exec_joinReport team join other notMe, if_pos started]
  simp only [List.contains_iff_mem, y]

end

/-- A part of a JOIN whose time is up. -/
theorem exec_joinTimeout : exec (.joinTimeout n) s =
    if x.asLetter.kind = 3 ∧ (x.phase = .placed ∨ x.phase = .joining) ∧
        x.joinAt + x.asLetter.tmo * 2 ^ 20 ≤ (s.cl (x.clusters.headD 0)).cycle then .next (s.abandon n x .refused)
    else .next s := by
  show execJoinTimeout n s = _
  rw [execJoinTimeout, team]

theorem exec_joinPartFailure_joining (join : fld (x.words.getD 0 0) 0 4 = 3) (joining : x.phase = .joining) :
    exec (.joinPartFailure n) s = .next (s.abandon n x .refused) := by
  show execJoinPartFailure n s = _
  rw [execJoinPartFailure, team]
  dsimp only
  rw [if_neg (not_not_intro join), if_pos joining]

theorem exec_joinPartFailure_running (join : fld (x.words.getD 0 0) 0 4 = 3) (running : x.phase = .running) :
    exec (.joinPartFailure n) s =
      .next ((ctxsOf x.clusters).foldl (fun s g => s.killCtx g) (s.setTeam n { x with failed := true })) := by
  show execJoinPartFailure n s = _
  rw [execJoinPartFailure, team]
  dsimp only
  rw [if_neg (not_not_intro join), if_neg (by rw [running]; decide), if_pos running]

end

/-- Settles O44: each step by its phase, and a context that stops or exits by what it has left. -/
theorem instanceStepResults : Obligations.InstanceStepResults := by
  refine ⟨fun s n x team => ⟨fun l placed letter => ?gang, fun phase done fresh => ?ends, fun running notYet => ?runs,
    fun may first => exec_teamResumption team may first, fun stopping => ⟨fun quiet on => exec_contextSave_quiet team stopping quiet on,
      fun busy => exec_contextSave_busy team stopping busy⟩, ?join,
    fun join joining => exec_joinPartFailure_joining team join joining, fun join running => exec_joinPartFailure_running team join running⟩,
    fun s g => ⟨fun due => exec_contextPreemptionStop_due due, fun not_ => ?goes, fun exiting =>
      ⟨fun settled freed => exec_contextExitCompletion_off exiting settled freed,
        fun settled held => exec_contextExitCompletion_rings exiting settled held,
        fun waits => exec_contextExitCompletion_unsettled exiting waits⟩, fun h => exec_contextExitCompletion_not h⟩⟩
  case gang =>
    intro r
    refine ⟨fun e why => exec_gangStart_fails team placed letter (Prod.ext rfl why), fun ok kind => ?_, fun ok kind => ?_⟩
    · rw [exec_gangStart_prepared team placed letter (Prod.ext rfl ok), if_neg kind]
    · rw [exec_gangStart_prepared team placed letter (Prod.ext rfl ok), if_pos kind, State.joinIfHeard]
  case ends =>
    rw [exec_instanceCompletion team]
    refine if_neg ?_
    rintro (⟨h, k⟩ | h | ⟨h, k⟩)
    · exact phase.elim h k
    · simp [done] at h
    · rcases fresh with not_ | not_
      · simp [not_] at h
      · exact not_ (by simpa using k)
  case runs =>
    rw [exec_instanceCompletion team]
    refine if_pos (Or.inr ?_)
    rcases notYet with not_ | ⟨h, k⟩
    · exact Or.inl (by rw [not_]; rfl)
    · exact Or.inr ⟨h, by simpa using k⟩
  case join =>
    intro l
    refine ⟨fun part kind other notMe => ⟨fun waiting phase new => exec_joinReport_waiting team kind other notMe waiting phase new,
      fun started => exec_joinReport_started team kind other notMe started⟩, fun kind phase => ⟨fun due => ?_, fun early => ?_⟩⟩
    · rw [exec_joinTimeout team, if_pos ⟨kind, phase, due⟩]
    · rw [exec_joinTimeout team, if_neg fun h => absurd h.2.2 (Nat.not_le.mpr early)]
  case goes => exact if_neg (by rw [not_]; exact Bool.false_ne_true)

end Sys2Proof.Machine
end

section
/-! SUPPORT. The operand forms of the scalar register instructions (O1, O3, O4): what each form gives its destination, and the values that
the model computes in words of 64 bits. -/
namespace Sys2Proof.Machine

/-! ## Wrapped sums and products of words -/

theorem wrap_toInt_add (x : W64) (i : Int) : wrap 64 (x.toInt + i) = x + wrap 64 i := by
  rw [wrap, BitVec.ofInt_add, BitVec.ofInt_toInt, wrap]
theorem wrap_toInt (y : W64) : wrap 64 y.toInt = y := BitVec.ofInt_toInt
theorem wrap_toInt_sub (x y : W64) : wrap 64 (x.toInt - y.toInt) = x - y := by
  rw [wrap, Int.sub_eq_add_neg, BitVec.ofInt_add, BitVec.ofInt_neg, BitVec.ofInt_toInt, BitVec.ofInt_toInt, BitVec.sub_eq_add_neg]
theorem wrap_toInt_mul (x y : W64) : wrap 64 (x.toInt * y.toInt) = x * y := by
  rw [wrap, BitVec.ofInt_mul, BitVec.ofInt_toInt, BitVec.ofInt_toInt]

/-- Settles O1: past its checks each slot pops its sources in order and answers its value; wrapped sums, differences and products are those
of words. -/
theorem integerResults : Obligations.IntegerResults := by
  intro s s' x y d a b hread
  refine ⟨fun r hr ready => ?fixed, fun r hr ready => ?division, fun ready => ?bfi, fun c ready => ?sel⟩
  case fixed =>
    cases hread
    simp only [List.mem_cons, List.not_mem_nil, or_false] at hr
    rcases hr with rfl | rfl | rfl | rfl | rfl | rfl | rfl | rfl | rfl | rfl | rfl | rfl | rfl | rfl | rfl | rfl | rfl | rfl | rfl |
      rfl | rfl | rfl | rfl
    all_goals rw [exec_of_ready ready fun _ => rfl]
    case inl => simp only [wrap_toInt_add, wrap_toInt]
    case inr.inl => simp only [wrap_toInt_sub]
    case inr.inr.inr.inr.inr.inr.inr.inr.inr.inr.inr.inr.inl => simp only [wrap_toInt_mul]
    all_goals rfl
  case division =>
    simp only [List.mem_cons, List.not_mem_nil, or_false] at hr
    rcases hr with rfl | rfl | rfl | rfl
    all_goals exact binI_of_pass _ hread ready
  case bfi =>
    cases hread
    rw [exec_of_ready ready fun _ => rfl]
  case sel =>
    cases hread
    rw [exec_of_ready ready fun _ => rfl]
    simp only [readX_getC]

/-- Settles O3: past its checks each slot answers the value of its one source, or one that it samples. -/
theorem immediateResults : Obligations.ImmediateResults := by
  intro s s' x d a hread
  refine ⟨fun r hr ready => ?one, fun i r hr ready => ?imm, fun k r hr ready => ?shift, fun i ready => exec_of_ready ready fun _ => rfl,
    fun i ready => exec_of_ready ready fun _ => rfl, fun ready => exec_of_ready ready fun _ => rfl,
    fun n ready => exec_of_ready ready fun _ => rfl, fun c ready => exec_of_ready ready fun _ => rfl⟩
  case one =>
    simp only [List.mem_cons, List.not_mem_nil, or_false] at hr
    rcases hr with rfl | rfl | rfl | rfl
    all_goals rw [exec_of_ready ready fun _ => rfl, hread]
  case imm =>
    simp only [List.mem_cons, List.not_mem_nil, or_false] at hr
    rcases hr with rfl | rfl | rfl | rfl
    all_goals
      rw [exec_of_ready ready fun _ => rfl]
      simp only [hread, wrap_toInt_add]
  case shift =>
    simp only [List.mem_cons, List.not_mem_nil, or_false] at hr
    rcases hr with rfl | rfl | rfl | rfl
    all_goals rw [exec_of_ready ready fun _ => rfl, hread]

/-- Settles O4: past its checks each slot answers its test of what it reads; that two words differ is that they are not equal. -/
theorem compareResults : Obligations.CompareResults := by
  intro s s1 s2 x x' y c a b hread hread2
  have imm {w : Nat} (i : BitVec w) : s1.imm i = s.imm i := by rw [← readX_imm s a.toNat, hread]
  refine ⟨fun r hr ready => ?regs, fun i r hr ready => ?imm, fun p q r hr ready => ?logic, fun ready => ?cmov⟩
  case regs =>
    cases hread2
    simp only [List.mem_cons, List.not_mem_nil, or_false] at hr
    rcases hr with rfl | rfl | rfl | rfl | rfl | rfl | rfl
    all_goals rw [exec_of_ready ready fun _ => rfl]
    case inr.inl | inr.inr.inr.inr.inr.inr => simp only [decide_not]; rfl
    all_goals rfl
  case imm =>
    simp only [List.mem_cons, List.not_mem_nil, or_false] at hr
    rcases hr with rfl | rfl | rfl | rfl | rfl | rfl | rfl | rfl
    all_goals
      rw [exec_of_ready ready fun _ => rfl, hread]
      simp only [imm]
    case inr.inl => simp only [decide_not]; rfl
    all_goals rfl
  case logic =>
    simp only [List.mem_cons, List.not_mem_nil, or_false] at hr
    rcases hr with rfl | rfl | rfl | rfl
    all_goals rw [exec_of_ready ready fun _ => rfl]
  case cmov =>
    rw [exec_of_ready ready fun _ => rfl, hread, decide_not]
    rfl

end Sys2Proof.Machine
end

section
/-! SUPPORT. Scalar floating point (O5). -/
namespace Sys2Proof.Machine

/-- Settles O5: past its checks each slot rounds its operands as FCTL.RM says, which its pops leave. -/
theorem scalarFpResults : Obligations.ScalarFpResults := by
  intro s s1 s2 x x' y d a b hread hread2
  obtain ⟨u, first, second⟩ := read2_eq hread2
  obtain ⟨rfl, rfl⟩ := Prod.mk.inj (first.symm.trans hread)
  have rm1 : u.rm = s.rm := by rw [← readX_rm s a.toNat, first]
  have rm2 : s2.rm = s.rm := by rw [← rm1, ← readX_rm u b.toNat, second]
  refine ⟨fun r hr ready => ?two, fun r hr ready => ?fma, fun r hr ready => ?div, fun r hr ready => ?sqrt, fun c r hr ready => ?cmp,
    fun r hr ready => ?cvt, fun r hr ready => ?toInt⟩
  all_goals simp only [List.mem_cons, List.not_mem_nil, or_false] at hr
  case' two => rcases hr with rfl | rfl | rfl | rfl | rfl | rfl | rfl | rfl | rfl | rfl
  case' fma => rcases hr with rfl | rfl
  case' div => rcases hr with rfl | rfl
  case' sqrt => rcases hr with rfl | rfl
  case' cmp => rcases hr with rfl | rfl | rfl | rfl | rfl | rfl | rfl | rfl
  case' cvt => rcases hr with rfl | rfl | rfl | rfl | rfl | rfl
  case' toInt => rcases hr with rfl | rfl
  all_goals
    rw [exec_of_ready ready fun _ => rfl]
    simp only [first, second, rm1, rm2]
    rfl

end Sys2Proof.Machine
end

section
/-! SUPPORT. Control transfers (O10): what the check of a register target finds, and what each transfer does past its checks. -/
namespace Sys2Proof.Machine

/-! ## Register targets (R134) -/

theorem targetTrap_misaligned {x : W64} (h : x.toNat % 4 ≠ 0) : targetTrap x = some (alignTrap x 4) :=
  if_pos (by unfold fld bits; omega)

theorem targetTrap_high {x : W64} (aligned : x.toNat % 4 = 0) (high : 2 ^ 48 ≤ x.toNat) : targetTrap x = some (xlateTrap x 1 3) := by
  rw [targetTrap, if_neg (by unfold fld bits; omega), if_pos ((highBits_iff x).mpr high)]

theorem targetTrap_low {x : W64} (aligned : x.toNat % 4 = 0) (low : x.toNat < 2 ^ 48) : targetTrap x = none := by
  rw [targetTrap, if_neg (by unfold fld bits; omega), if_neg fun high => Nat.not_le.mpr low ((highBits_iff x).mp high)]

theorem callTo_pushed {s t : State} (push : s.pushRet (.addr s.issue.next) = .ok t) (a : W64) : s.callTo a = .next (t.transfer a) := by
  rw [State.callTo, push]

/-! ## The slots with a register target -/

/-- A register target tested: a trap, or the transfer to it. -/
def State.toTarget (s : State) (x : W64) (go : Out) : Out := match targetTrap x with
  | some t => s.trapNow t
  | none => go

theorem toTarget_trap {s : State} {x : W64} {t : Trap} (h : targetTrap x = some t) (go : Out) : s.toTarget x go = s.trapNow t := by
  rw [State.toTarget, h]

theorem toTarget_go {s : State} {x : W64} (h : targetTrap x = none) (go : Out) : s.toTarget x go = go := by rw [State.toTarget, h]

section
variable {s s' : State} {x : W64} {a : BitVec 6} (hread : s.readX a.toNat = (x, s'))
include hread

theorem exec_jr (ready : Ready (.jr a) s) : exec (.jr a) s = s'.toTarget x (.next (s'.transfer x)) := by
  rw [exec_of_ready ready fun _ => rfl, hread]
  rfl

theorem exec_callr (ready : Ready (.callr a) s) : exec (.callr a) s = s'.toTarget x (s'.callTo x) := by
  rw [exec_of_ready ready fun _ => rfl, hread]
  rfl

/-- A register target that is no target stops jr and callr alike. -/
theorem exec_target_trap {i : Instr} {t : Trap} (hi : i ∈ [Instr.jr a, .callr a]) (ready : Ready i s) (h : targetTrap x = some t) :
    exec i s = s'.trapNow t := by
  simp only [List.mem_cons, List.not_mem_nil, or_false] at hi
  rcases hi with rfl | rfl
  · rw [exec_jr hread ready, toTarget_trap h]
  · rw [exec_callr hread ready, toTarget_trap h]

/-- bru tests the active lanes' bits (R135). -/
theorem exec_bru {p q : BitVec 3} (ready : Ready (.bru p a q) s) : exec (.bru p a q) s =
    if s.me.getP p.toNat = 0 ∨ s.me.getP q.toNat &&& s.me.getP p.toNat = 0 then .next s'
    else if s.me.getP q.toNat &&& s.me.getP p.toNat = s.me.getP p.toNat then s'.toTarget x (.next (s'.transfer x))
    else s'.trapNow { cause := 0x0A, addr := s.me.getP q.toNat &&& s.me.getP p.toNat } := by
  rw [exec_of_ready ready fun _ => rfl, hread]
  rfl

/-- With a bit of an active lane set, some lane is active, and bru tests whether every active lane's is. -/
theorem exec_bru_taken {p q : BitVec 3} (ready : Ready (.bru p a q) s) (some_ : s.me.getP q.toNat &&& s.me.getP p.toNat ≠ 0) :
    exec (.bru p a q) s =
      if s.me.getP q.toNat &&& s.me.getP p.toNat = s.me.getP p.toNat then s'.toTarget x (.next (s'.transfer x))
      else s'.trapNow { cause := 0x0A, addr := s.me.getP q.toNat &&& s.me.getP p.toNat } := by
  have active : s.me.getP p.toNat ≠ 0 := fun h => some_ (by rw [h]; exact BitVec.and_zero)
  rw [exec_bru hread ready, if_neg (not_or.mpr ⟨active, some_⟩)]

end

/-- Settles O10: each transfer past its checks, a register target by what its check finds. -/
theorem transferResults : Obligations.TransferResults := by
  intro s s' x a hread
  refine ⟨fun i ready => exec_of_ready ready fun _ => rfl, fun i t ready push => ?call, fun e t ready pop => ?ret, fun t ready pop => ?mark,
    fun ready aligned low => ?jr, fun ready aligned low t push => ?callr, fun i hi ready => ⟨fun off => ?_, fun aligned high => ?_⟩,
    fun p q ready => ?bru⟩
  case call =>
    rw [exec_of_ready ready fun _ => rfl]
    exact callTo_pushed push _
  case ret => rw [exec_of_ready ready fun _ => rfl, pop]
  case mark => rw [exec_of_ready ready fun _ => rfl, pop]
  case jr => rw [exec_jr hread ready, toTarget_go (targetTrap_low aligned low)]
  case callr =>
    rw [exec_callr hread ready, toTarget_go (targetTrap_low aligned low)]
    exact callTo_pushed push x
  · exact exec_target_trap hread hi ready (targetTrap_misaligned off)
  · exact exec_target_trap hread hi ready (targetTrap_high aligned high)
  case bru =>
    intro act t
    refine ⟨fun none_ => ?_, fun some_ all aligned low => ?_, fun some_ all off => ?_, fun some_ all aligned high => ?_, fun some_ part => ?_⟩
    · rw [exec_bru hread ready, if_pos (.inr none_)]
    · rw [exec_bru_taken hread ready some_, if_pos all, toTarget_go (targetTrap_low aligned low)]
    · rw [exec_bru_taken hread ready some_, if_pos all, toTarget_trap (targetTrap_misaligned off)]
    · rw [exec_bru_taken hread ready some_, if_pos all, toTarget_trap (targetTrap_high aligned high)]
    · rw [exec_bru_taken hread ready some_, if_neg part]

end Sys2Proof.Machine
end

section
/-! SUPPORT. A scalar store as it issues, and performed (O7). -/
namespace Sys2Proof.Machine

/-! ## What a source's pop leaves of the contexts -/

/-- A scalar source's pop changes only the queue registers and the dirty bits of the issuing context. -/
theorem readX_me (s : State) (n : Nat) : ∃ qs dirty, (s.readX n).2.me = { s.me with qs := qs, dirty := dirty } := by
  rcases readX_state s n with same | ⟨qs, dirty, popped⟩
  · exact ⟨s.me.qs, s.me.dirty, by rw [same]⟩
  · exact ⟨qs, dirty, by rw [popped, State.me_setMe]⟩

theorem readX_ctx_ne (s : State) (n : Nat) {g : Nat} (h : g ≠ s.cur) : (s.readX n).2.ctx g = s.ctx g := by
  rcases readX_state s n with same | ⟨_, _, popped⟩
  · rw [same]
  · rw [popped]
    exact State.ctx_setCtx_ne _ _ _ _ h

/-! ## A store under way -/

/-- A result on its way changes no other context, and of its own only what is pending. -/
theorem State.fix_me (s : State) (L : Nat) (w : Wr) (fl : BitVec 5) (toV : Bool) :
    (s.fix L w fl toV).me = { s.me with pending := (s.fix L w fl toV).me.pending } ∧
      ∀ g, g ≠ s.cur → (s.fix L w fl toV).ctx g = s.ctx g := by
  refine ⟨?_, fun g other => ?_⟩
  · rcases s.me_fix_cases L w fl toV with ⟨same, -⟩ | ⟨_, _, added⟩
    · rw [same]
    · rw [added]
  · unfold State.fix
    extract_lets
    split
    · rfl
    · exact State.ctx_setCtx_ne _ _ _ _ other

theorem State.bump_me (s : State) (u : BitVec 1) (r : Nat) (base : W64) (n : Int) :
    (s.bump u r base n).me = { s.me with pending := (s.bump u r base n).me.pending } ∧ (s.bump u r base n).mem = s.mem ∧
      ∀ g, g ≠ s.cur → (s.bump u r base n).ctx g = s.ctx g := by
  unfold State.bump
  split
  · obtain ⟨me, others⟩ := s.fix_me 1 (.x (32 + r) (base + wrap 64 n)) 0 false
    exact ⟨me, (s.fix_leaves _ _ _ _).1, others⟩
  · exact ⟨rfl, rfl, fun _ _ => rfl⟩

/-- What the step of a base register adds to what is pending is decided by the bundle, the counts and what is pending before it. -/
theorem State.bump_pending {s t : State} (pending : t.me.pending = s.me.pending) (issue : t.issue = s.issue)
    (cycle : t.myCl.cycle = s.myCl.cycle) (ccount : t.me.ccount = s.me.ccount) (seq : t.me.seq = s.me.seq) (u : BitVec 1) (r : Nat)
    (base : W64) (n : Int) : (t.bump u r base n).me.pending = (s.bump u r base n).me.pending := by
  unfold State.bump
  split
  · exact State.fix_pending pending issue cycle ccount seq _ _ _ _
  · exact pending

/-- A slot's access without a result goes on. -/
theorem issueMem_store {s : State} {r : MemReq} (free : s.missFull s.clNo (s.lineFor s.clNo r) = false) (k : State → State) :
    ∃ u, Reads s u ∧ s.issueMem r none k = .next (k (u.post { r with id := s.nextInter, dst := 0 })) := by
  have asked := State.reads_askLine s s.clNo (s.lineFor s.clNo r) (keyOf r.pa)
  refine ⟨_, asked, ?_⟩
  unfold State.issueMem
  dsimp only
  rw [if_neg (by rw [free]; exact Bool.false_ne_true), State.nextInter, asked.me]
  rfl

/-- What a store leaves behind as it issues, s standing for the state before its slot and s1 for that in which its source is read. -/
structure StoreIssued (s s1 t : State) (r : MemReq) (pending : List Pend) : Prop where
  underWay : UnderWay s1 t r
  mem : t.mem = s.mem
  me : ∃ qs dirty ps, t.me = { s.me with qs := qs, dirty := dirty, posted := ps, pending := pending }
  others : ∀ g, g ≠ s.cur → t.ctx g = s.ctx g

/-- A store that is posted with its source read, and then steps its base register. -/
theorem storeIssued_post {s u : State} {n : Nat} (h : Reads (s.readX n).2 u) (r : MemReq) (b : BitVec 1) (a : Nat) (base : W64) (i : Int) :
    StoreIssued s (s.readX n).2 ((u.post r).bump b a base i) r (s.bump b a base i).me.pending := by
  obtain ⟨qs, dirty, popped⟩ := readX_me s n
  obtain ⟨due, -, -, posted⟩ := u.post_spec r
  have me : (u.post r).me = _ := (congrArg State.me posted).trans (State.me_setMe _ _)
  rw [h.me, popped] at me
  obtain ⟨stepped, mem, others⟩ := (u.post r).bump_me b a base i
  have cur : (u.post r).cur = s.cur := by
    rw [posted]
    exact h.cur.trans (readX_cur s n)
  have pending : ((u.post r).bump b a base i).me.pending = (s.bump b a base i).me.pending := by
    refine State.bump_pending (by rw [me]) ?_ ?_ (by rw [me]) (by rw [me]) _ _ _ _
    · rw [posted]
      exact h.issue.trans (readX_issue s n)
    · rw [posted]
      exact h.myCycle.trans (by rw [readX_myCl])
  refine ⟨?_, ?_, ⟨qs, dirty, (u.post r).me.posted, ?_⟩, fun g other => ?_⟩
  · obtain ⟨due', later, after, under⟩ := underWay_post (u := u) (by rw [h.me]) h.cur h.issue (by rw [h.me]) h.myCycle r
    exact ⟨due', later, after, by rw [stepped]; exact under⟩
  · rw [mem, posted]
    exact h.mem.trans (readX_mem s n)
  · rw [stepped, pending, me]
  · rw [others g (by rwa [cur]), posted, ← readX_ctx_ne s n other]
    refine (State.ctx_setCtx_ne _ _ _ _ (by rwa [h.cur, readX_cur])).trans ?_
    unfold State.ctx
    rw [h.ctxs]

/-- A scalar store whose address passes its checks: held where its line finds every miss buffer busy, else under way. -/
theorem exec_st_spec {s s1 : State} {x : W64} {d : BitVec 6} {r : BitVec 4} {u : BitVec 1} {z : BitVec 3} {o : BitVec 7} {pa : Nat}
    (ready : Ready (.st d r u z o) s) (hread : s.readX d.toNat = (x, s1)) :
    let base := s.areg r.toNat
    let n := s.imm o * szBytes z.toNat
    let va := fmAddr u base n
    let s' := s1.noteTlb s.clNo (s.agentOf s.cur) false va.toNat
    s1.access va (szBytes z.toNat) .write = .ok pa →
      (s'.missFull s'.clNo (s'.missing s'.clNo pa) = true → exec (.st d r u z o) s = s'.hold .block) ∧
      (s'.missFull s'.clNo (s'.missing s'.clNo pa) = false → ∃ t, exec (.st d r u z o) s = .next t ∧
        StoreIssued s s1 t { pa := pa, va := va, op := .store (szBytes z.toNat), arg := x, id := s.nextInter }
          (s.bump u r.toNat base n).me.pending) := by
  obtain rfl : (s.readX d.toNat).1 = x := congrArg Prod.fst hread
  obtain rfl : (s.readX d.toNat).2 = s1 := congrArg Prod.snd hread
  intro base n va s' acc
  have noted : Reads (s.readX d.toNat).2 s' := State.reads_noteTlb _ _ _ _ _
  let q : MemReq := { pa := pa, va := va, op := .store (szBytes z.toNat), arg := (s.readX d.toNat).1 }
  have issues : exec (.st d r u z o) s = s'.issueMem q none fun t => t.bump u r.toNat base n := by
    rw [exec_of_ready ready fun _ => rfl]
    simp only [readX_areg, readX_imm]
    rw [acc]
    simp only [readX_clNo, readX_agentOf, readX_cur]
    rfl
  refine ⟨fun full => issues.trans (issueMem_full (r := q) full _ _), fun free => ?_⟩
  obtain ⟨v, asked, goes⟩ := issueMem_store (r := q) free fun t => t.bump u r.toNat base n
  have id : s'.nextInter = s.nextInter := by rw [State.nextInter, noted.me, readX_nextId, State.nextInter]
  rw [id] at goes
  exact ⟨_, issues.trans goes, storeIssued_post (noted.trans asked) _ _ _ _ _⟩

/-! ## A store performed -/

theorem perform1_store {s : State} {r : MemReq} {n : Nat} (op : r.op = .store n) (home : s.atBankOf (r.ctx / 4) r.pa = false)
    (hit : s.missing (r.ctx / 4) r.pa = none) : s.perform1 r = some (s.serve r) := by
  have line : s.lineFor (r.ctx / 4) r = none := by rw [State.lineFor, op, hit]
  unfold State.perform1
  dsimp only
  rw [home, line]
  rfl

theorem serve_store {s : State} {r : MemReq} {n : Nat} (op : r.op = .store n) :
    s.serve r = s.storeVia (r.ctx / 4) r.pa n r.arg.toNat := by rw [State.serve, op]

/-- Settles O7: a store by what its slot leaves, one performed by what the L1 or the home makes of it. -/
theorem storeResults : Obligations.StoreResults := by
  refine ⟨fun s s1 x d r u z o pa ready hread => ?issues, fun s r n op home hit => ?performed⟩
  case issues =>
    intro base n va s' acc
    obtain ⟨full, free⟩ := exec_st_spec ready hread acc
    refine ⟨full, fun room => ?_⟩
    obtain ⟨t, goes, issued⟩ := free room
    obtain ⟨qs, dirty, ps, me⟩ := issued.me
    exact ⟨t, goes, issued.underWay, by rw [me], by rw [me], issued.mem⟩
  case performed => rw [perform1_store op home hit, serve_store op]

end Sys2Proof.Machine
end

section
/-! SUPPORT. Cache maintenance and fences (O9): what a cycle of a context leaves of it, what a met fence says of each access, and what the
cache operations discard and ask for. -/
namespace Sys2Proof.Machine

/-! ## What a cycle of a context leaves of it -/

/-- A context but for its register files, flags and results, its state and its count: what a cycle in which it issues nothing leaves. -/
def Ctx.unlanded (c : Ctx) : Ctx := { c with
  cstate := .fetch, xs := [], vs := [], ps := [], cs := 0, qs := [], vqs := [], dirty := 0, fctl := 0, vflags := 0, pending := [],
  inflight := [], fmts := [], ccount := 0 }

@[simp] theorem Ctx.unlanded_land (c : Ctx) (w : Wr) : (c.land w).unlanded = c.unlanded :=
  Ctx.land_keeps Ctx.unlanded c w fun _ _ _ _ _ _ _ => rfl

@[simp] theorem Ctx.unlanded_orFlags (c : Ctx) (fl : BitVec 5) (toV : Bool) : (c.orFlags fl toV).unlanded = c.unlanded := by
  cases toV <;> rfl

@[simp] theorem Ctx.unlanded_landOne (c : Ctx) (p : Pend) : (c.landOne p).unlanded = c.unlanded :=
  (Ctx.unlanded_orFlags _ _ _).trans (Ctx.unlanded_land _ _)

/-- A fold of landings leaves what each of them leaves. -/
theorem Ctx.unlanded_foldl {α : Type} {f : Ctx → α → Ctx} (h : ∀ c a, (f c a).unlanded = c.unlanded) (l : List α) (c : Ctx) :
    (l.foldl f c).unlanded = c.unlanded := by
  induction l generalizing c with
  | nil => rfl
  | cons a l ih => exact (ih _).trans (h c a)

@[simp] theorem Ctx.unlanded_landInflight (c : Ctx) (f : Inflight) : (c.landInflight f).unlanded = c.unlanded := by
  unfold Ctx.landInflight
  split
  · rfl
  · exact (Ctx.unlanded_orFlags _ _ _).trans (Ctx.unlanded_foldl Ctx.unlanded_land _ _)

@[simp] theorem Ctx.unlanded_tryLand (c : Ctx) (f : Inflight) : (c.tryLand f).unlanded = c.unlanded := by
  unfold Ctx.tryLand
  split
  · exact Ctx.unlanded_landInflight c f
  · rfl

theorem Ctx.unlanded_landFixed (ps : List Pend) (c : Ctx) : (c.landFixed ps).unlanded = c.unlanded := by
  induction ps generalizing c with
  | nil => rfl
  | cons p ps ih => exact (ih _).trans ((Ctx.unlanded_landOne _ _).trans (Ctx.unlanded_foldl Ctx.unlanded_tryLand _ _))

theorem Ctx.unlanded_landAll (c : Ctx) : c.landAll.unlanded = c.unlanded :=
  (Ctx.unlanded_foldl Ctx.unlanded_tryLand _ _).trans (Ctx.unlanded_landFixed _ _)

@[simp] theorem Ctx.unlanded_tick (c : Ctx) (now : Nat) : (c.tick now).unlanded = c.unlanded := by
  unfold Ctx.tick
  extract_lets d
  split
  · rfl
  · exact Ctx.unlanded_landAll d

/-- The formats that land are taken off their context, and change else only its cluster. -/
theorem State.landFmts_spec (s : State) (g : Nat) :
    (s.landFmts g).ctx g = { s.ctx g with fmts := [] } ∧ (s.landFmts g).cur = s.cur ∧ (s.landFmts g).mem = s.mem := by
  unfold State.landFmts
  dsimp only
  split
  case isTrue none_ =>
    rw [List.isEmpty_iff] at none_
    exact ⟨by rw [← none_], rfl, rfl⟩
  case isFalse =>
    exact foldl_keeps (fun t => t.ctx g = { s.ctx g with fmts := [] } ∧ t.cur = s.cur ∧ t.mem = s.mem) (fun t f => t.landFmt (g / 4) f)
      (fun t f h => h) _
      ⟨State.ctx_setCtx _ _ _, rfl, rfl⟩

/-- A cycle that the issuing context spends leaves memory, and of the context all but what lands and the state it is in. -/
theorem State.spend_spec (s : State) (st : CState) : (s.spend st).me.unlanded = s.me.unlanded ∧ (s.spend st).mem = s.mem := by
  obtain ⟨me, cur, mem⟩ := s.landFmts_spec s.cur
  have mine : (s.landFmts s.cur).me = { s.me with fmts := [] } := by rw [State.me, cur, me, State.me]
  refine ⟨?_, mem⟩
  rw [State.spend, State.me_setMe, Ctx.unlanded_tick, mine]
  rfl

/-! ## A fence that is not met, and one that is -/

/-- A context whose fence is not met, with nothing due before its bundle, spends its turn in BLOCK. -/
theorem advanceCtx_fence {s : State} {sc : Nat} (fence : s.me.fence = some sc) (alive : s.me.killed = false)
    (state : s.me.cstate ≠ .compensate) (stop : s.stopDue s.cur = false) (mem : s.me.memErrs = []) (task : s.me.taskFaults = [])
    (settle : s.me.settle = false) (waits : s.fenceDone s.cur sc = false) : s.advanceCtx = .next ((s.setMe s.me).spend .block) := by
  have same : s.me.endCompensate s.myCl.cycle = s.me := if_neg fun h => state h.1
  have ctx (g : Nat) : (s.setMe s.me).ctx g = s.ctx g := by
    by_cases h : g = s.cur
    · rw [h]
      exact State.ctx_setCtx _ _ _
    · exact State.ctx_setCtx_ne _ _ _ _ h
  have stop' : (s.setMe s.me).stopDue s.cur = false := by
    rw [← stop]
    simp only [State.stopDue, State.atStop, ctx]
    rfl
  have noErr : (s.setMe s.me).dueMemErr s.cur = none := by
    rw [State.dueMemErr, ctx, show (s.ctx s.cur).memErrs = [] from mem]
    rfl
  have noFault : (s.setMe s.me).dueTaskFault s.cur = none := by
    rw [State.dueTaskFault, ctx, show (s.ctx s.cur).taskFaults = [] from task]
    rfl
  have waits' : (s.setMe s.me).fenceDone s.cur sc = false := by
    rw [← waits]
    simp only [State.fenceDone, State.pigPending, ctx]
    rfl
  unfold State.advanceCtx
  rw [alive, same]
  simp [state, stop', noErr, noFault, settle, fence, Option.filter_some, waits']

/-- What a fence that is met says of the accesses that its context has not performed. -/
theorem fenceDone_spec {s : State} {g sc : Nat} (done : s.fenceDone g sc = true) :
    (∀ r ∈ (s.ctx g).posted, s.atBankOf (g / 4) r.pa = true ∧ (sc = 0 ∨ r.seq = (s.ctx g).seq) ∧ (sc = 0 → r.op.loads = false)) ∧
    (∀ r ∈ (s.site (siteOf (g / 4))).pigQueue, r.ctx = g → (sc = 0 → r.op.loads = false) ∧ (sc ≠ 0 → r.seq = (s.ctx g).seq)) := by
  simp only [State.fenceDone, State.pigPending, Bool.and_eq_true, Bool.or_eq_true, List.all_eq_true, List.mem_filter, bne_iff_ne,
    beq_iff_eq, decide_eq_true_eq, Bool.not_eq_true', Bool.or_eq_false_iff, List.any_eq_false] at done
  obtain ⟨⟨posted, loads⟩, earlier⟩ := done
  refine ⟨fun r hr => ⟨(posted r hr).1, ?_, fun zero => (posted r hr).2.resolve_left fun h => h zero⟩,
    fun r hr mine => ⟨fun zero => ?_, fun far => ?_⟩⟩
  · refine earlier.imp id fun none_ => ?_
    by_contra other
    exact none_.1 r hr ⟨other, (posted r hr).1⟩
  · exact loads.resolve_left (fun h => h zero) r ⟨hr, mine⟩
  · by_contra other
    exact (earlier.resolve_left far).2 r hr ⟨mine, other⟩

/-! ## The cache operations -/

/-- A range form acts on the lines of its range once the context's stores are performed. -/
theorem rangeForm_of_pass {s s' : State} {x y : W64} {a b : BitVec 6} (f : State → Nat × Bool → State) (hread : s.read2 a b = (x, y, s'))
    (pass : s.issueCheck 0 [.x a.toNat, .x b.toNat] [] = none) : rangeForm f a b s =
      .next ((s'.drainL1.linesOf s'.drainL1.clNo (s'.drainL1.agentOf s'.drainL1.cur) x.toNat y.toNat).foldl f s'.drainL1) := by
  cases hread
  exact gate_pass _ pass

/-- The block of 256 bytes that holds some byte of the range of y bytes from x, cut at 2^48 (R130). -/
def isyncHits (x y : W64) (blk : Nat) : Bool :=
  decide (x.toNat < min (x.toNat + y.toNat) (2 ^ 48) ∧ blk * 256 < min (x.toNat + y.toNat) (2 ^ 48) ∧ x.toNat < blk * 256 + 256)

theorem isyncHits_empty (x : W64) (blk : Nat) : isyncHits x 0#64 blk = false := by
  rw [isyncHits, decide_eq_false_iff_not]
  intro ⟨nonempty, _⟩
  exact absurd (Nat.lt_of_lt_of_le nonempty (Nat.min_le_left _ _)) (Nat.lt_irrefl _)

theorem readX_fetchBuf (s : State) (n : Nat) : (s.readX n).2.me.fetchBuf = s.me.fetchBuf :=
  readX_keeps (fun s => s.me.fetchBuf) s n fun _ _ => by rw [State.me_setMe]

/-- isync leaves the blocks that its range does not meet. -/
theorem exec_isync {s s' : State} {x y : W64} {a b : BitVec 6} (hread : s.read2 a b = (x, y, s')) (ready : Ready (.isync a b) s) :
    ∃ t, exec (.isync a b) s = .next t ∧ t.mem = s.mem ∧
      t.myCl.icache = s.myCl.icache.filter (fun e => !isyncHits x y e.blk) ∧
      t.me.fetchBuf = s.me.fetchBuf.filter fun e => !isyncHits x y e.1 := by
  obtain ⟨u, first, second⟩ := read2_eq hread
  have kept : s'.mem = s.mem ∧ s'.myCl = s.myCl ∧ s'.me.fetchBuf = s.me.fetchBuf := by
    cases hread
    exact ⟨(readX_mem _ _).trans (readX_mem _ _), (readX_myCl _ _).trans (readX_myCl _ _),
      (readX_fetchBuf _ _).trans (readX_fetchBuf _ _)⟩
  obtain ⟨mem, myCl, fetchBuf⟩ := kept
  rw [exec_of_ready ready fun _ => rfl, first, ← mem, ← myCl, ← fetchBuf]
  simp only [second]
  exact ⟨_, rfl, rfl, congrArg Cluster.icache (State.myCl_setMyCl _ _), congrArg Ctx.fetchBuf (State.me_setMe _ _)⟩

/-- A line asked for takes a miss buffer where one is free. -/
theorem mem_l1Miss_askLine {s : State} {cl line : Nat} (key : Nat) (room : (s.cl cl).l1Miss.length < 16) :
    line ∈ ((s.askLine cl (some line) key).cl cl).l1Miss := by
  unfold State.askLine
  dsimp only
  split
  case isTrue held =>
    simpa [Nat.not_le.mpr room] using held
  case isFalse =>
    unfold State.wantLine
    dsimp only
    split <;> simp

@[simp] theorem readX_l1Line (s : State) (n cl pa : Nat) : (s.readX n).2.l1Line cl pa = s.l1Line cl pa := by
  unfold State.l1Line State.isMon
  rw [readX_site]

/-- A hint goes on, with at most a line asked for (R132). -/
theorem exec_pref {s : State} {a : BitVec 6} (ready : Ready (.pref a) s) :
    ∃ line key, exec (.pref a) s = .next ((s.readX a.toNat).2.askLine s.clNo line key) := by
  rw [exec_of_ready ready fun _ => rfl]
  dsimp only
  rw [readX_clNo]
  split
  · exact ⟨none, 0, rfl⟩
  · split
    · exact ⟨none, 0, rfl⟩
    · split
      · exact ⟨none, 0, rfl⟩
      · split
        · exact ⟨none, 0, rfl⟩
        · exact ⟨_, _, rfl⟩

/-- A hint for a line that the L1 caches and does not hold asks for it. -/
theorem exec_pref_asks {s : State} {a : BitVec 6} {pa line : Nat} (ready : Ready (.pref a) s)
    (above : lsTop ≤ (s.readX a.toNat).1.toNat)
    (home : (s.readX a.toNat).2.translate s.clNo (s.agentOf s.cur) false (s.userOf s.cur) (s.readX a.toNat).1 .read = .ok pa)
    (cached : s.l1Line s.clNo pa = some line) (absent : (s.myCl.l1Find line).isNone) :
    exec (.pref a) s = .next ((s.readX a.toNat).2.askLine s.clNo (some line) (keyOf pa)) := by
  have absent' : ¬ ((s.readX a.toNat).2.myCl.l1Find line).isSome = true := by
    rw [readX_myCl, Option.not_isSome_iff_eq_none]
    exact Option.isNone_iff_eq_none.mp absent
  rw [exec_of_ready ready fun _ => rfl]
  dsimp only
  rw [if_neg (Nat.not_lt.mpr above), readX_clNo, readX_cur, readX_agentOf, readX_userOf, home]
  dsimp only
  rw [readX_l1Line, cached]
  dsimp only
  rw [if_neg absent']

/-- Settles O9: a fence by the turn that it holds and by what a met one says of each access, the cache operations by what each does to the
lines or blocks of its range. -/
theorem cacheResults : Obligations.CacheResults := by
  refine ⟨fun s sc fence alive state stop mem task settle waits => ?held, fun s g sc done => fenceDone_spec done,
    fun s s' x y a b hread => ⟨fun ready => rangeForm_of_pass _ hread ready, fun ready => rangeForm_of_pass _ hread ready,
      fun ready => rangeForm_of_pass _ hread ready, fun ready => ?isync, fun ready => ?fence, fun ready => ?pref⟩⟩
  case held =>
    obtain ⟨kept, same⟩ := (s.setMe s.me).spend_spec .block
    rw [State.me_setMe] at kept
    exact ⟨advanceCtx_fence fence alive state stop mem task settle waits, (congrArg Ctx.fence kept).trans fence, (congrArg Ctx.pc kept :),
      (congrArg Ctx.seq kept :), same⟩
  case isync =>
    obtain ⟨t, goes, mem, icache, fetchBuf⟩ := exec_isync hread ready
    refine ⟨t, goes, mem, fun k hit => ⟨fun e he same => ?_, fun e he same => ?_⟩, fun empty => ?_⟩
    · rw [icache, List.mem_filter, same, isyncHits, decide_eq_true hit] at he
      exact absurd he.2 Bool.false_ne_true
    · rw [fetchBuf, Option.filter_eq_some_iff, same, isyncHits, decide_eq_true hit] at he
      exact absurd he.2 Bool.false_ne_true
    · rw [icache, fetchBuf, empty]
      cases s.me.fetchBuf <;> simp [isyncHits_empty]
  case fence =>
    rw [exec_of_ready ready fun _ => rfl]
    exact ⟨_, rfl, congrArg Ctx.fence (State.me_setMe _ _), rfl⟩
  case pref =>
    obtain rfl : (s.readX a.toNat).1 = x := by
      cases hread
      rfl
    obtain ⟨line, key, goes⟩ := exec_pref ready
    have asked := (s.readX a.toNat).2.reads_askLine s.clNo line key
    refine ⟨_, goes, asked.mem.trans (readX_mem _ _), asked.issue.trans (readX_issue _ _),
      fun pa line' above home cached absent room => ?_⟩
    have asks := exec_pref_asks ready above home cached absent
    rw [goes, Host.Outcome.next.injEq] at asks
    have mine : ((s.readX a.toNat).2.askLine s.clNo line key).clNo = s.clNo := asked.clNo.trans (readX_clNo _ _)
    rw [State.myCl, mine, asks]
    exact mem_l1Miss_askLine _ (by rw [readX_cl]; exact room)

end Sys2Proof.Machine
end

section
/-! SUPPORT. The words that fail and the monitor clusters, which no access changes where no word fails (O59). -/
namespace Sys2Proof.Machine

/-- The words of memory that fail, and the monitor cluster of each site. -/
def State.faults (s : State) : List Nat × (Nat → Nat) := (s.bad, s.monitors)

theorem State.bad_of_faults {s t : State} (h : t.faults = s.faults) : t.bad = s.bad := congrArg Prod.fst h
theorem State.isMon_of_faults {s t : State} (h : t.faults = s.faults) (cl : Nat) : t.isMon cl = s.isMon cl :=
  State.isMon_of_monitors (congrArg Prod.snd h) cl

@[simp] theorem State.faults_ite (p : Prop) [Decidable p] (s t : State) :
    (if p then s else t).faults = if p then s.faults else t.faults := apply_ite State.faults p s t

@[simp] theorem foldl_faults {α : Type} (f : State → α → State) (hf : ∀ s a, (f s a).faults = s.faults) (l : List α) (s : State) :
    (l.foldl f s).faults = s.faults := foldl_keeps (fun t => t.faults = s.faults) f (fun t a h => (hf t a).trans h) l rfl

@[simp] theorem State.faults_setCtx (s : State) (g : Nat) (c : Ctx) : (s.setCtx g c).faults = s.faults := by rfl
@[simp] theorem State.faults_setCl (s : State) (n : Nat) (c : Cluster) : (s.setCl n c).faults = s.faults := by rfl

@[simp] theorem State.faults_logEntry (s : State) (site cls : Nat) (cl : Option Nat) (code src addr detail : Nat) :
    (s.logEntry site cls cl code src addr detail).faults = s.faults := Prod.ext rfl (State.monitors_logEntry _ _ _ _ _ _ _ _)

@[simp] theorem State.faults_logErr (s : State) (cl pa code : Nat) : (s.logErr cl pa code).faults = s.faults := by simp [State.logErr]
@[simp] theorem State.faults_countEvent (s : State) (cl pa : Nat) : (s.countEvent cl pa).faults = s.faults := by
  simp [State.countEvent]
@[simp] theorem State.faults_correct (s : State) (cl pa n : Nat) : (s.correct cl pa n).faults = s.faults :=
  (foldl_faults _ (fun _ _ => State.faults_countEvent _ _ _) _ _).trans rfl

/-! ## What wakes and drains -/

@[simp] theorem State.faults_readySet (s : State) (cl k : Nat) : (s.readySet cl k).faults = s.faults := by simp [State.readySet]
@[simp] theorem State.faults_activate (s : State) (cl x : Nat) : (s.activate cl x).faults = s.faults := by simp [State.activate]
@[simp] theorem State.faults_noteEnc (s : State) (pa : Nat) : (s.noteEnc pa).faults = s.faults := by simp [State.noteEnc]
@[simp] theorem State.faults_wakeLs (s : State) (cl x n : Nat) : (s.wakeLs cl x n).faults = s.faults := by simp [State.wakeLs]
@[simp] theorem State.faults_wake (s : State) (pa n : Nat) : (s.wake pa n).faults = s.faults := by simp [State.wake]

@[simp] theorem State.faults_slcPass (s : State) (cl x n : Nat) : (s.slcPass cl x n).faults = s.faults := by simp [State.slcPass]
@[simp] theorem State.faults_drainWq (s : State) (cl ch : Nat) (gone : WqEnt → Bool) : (s.drainWq cl ch gone).faults = s.faults := by
  simp [State.drainWq]
@[simp] theorem State.faults_drainRead (s : State) (cl x n : Nat) : (s.drainRead cl x n).faults = s.faults := by simp [State.drainRead]
@[simp] theorem State.faults_readRed (s : State) (cl pa n : Nat) : (s.readRed cl pa n).faults = s.faults := by simp [State.readRed]
@[simp] theorem State.faults_readAt (s : State) (cl pa n : Nat) : (s.readAt cl pa n).faults = s.faults := by simp [State.readAt]

@[simp] theorem State.faults_putWq (s : State) (cl ch r : Nat) (f : WqEnt → WqEnt) : (s.putWq cl ch r f).faults = s.faults := by
  unfold State.putWq
  dsimp only
  rw [State.faults_setCl]
  split
  · split
    · exact State.faults_drainWq _ _ _ _
    · rfl
  · rfl
@[simp] theorem State.faults_enqueue (s : State) (pa n m : Nat) : (s.enqueue pa n m).faults = s.faults := by simp [State.enqueue]

/-! ## What is written -/

@[simp] theorem State.faults_unitPut (s : State) (pa mask v : Nat) : (s.unitPut pa mask v).faults = s.faults :=
  Prod.ext (by simp only [State.faults, State.unitPut]) (State.monitors_unitPut _ _ _ _)
@[simp] theorem State.faults_unitsPut (s : State) (pa n mask v : Nat) : (s.unitsPut pa n mask v).faults = s.faults := by
  simp [State.unitsPut]

@[simp] theorem State.faults_wantLine (s : State) (cl line key : Nat) : (s.wantLine cl line key).faults = s.faults := by
  simp [State.wantLine]
@[simp] theorem State.faults_l1Recent (s : State) (cl : Nat) (l : L1Line) : (s.l1Recent cl l).faults = s.faults := by
  simp [State.l1Recent]

section
variable {s : State} (sound : s.bad = [])
include sound

theorem State.badAt_of_sound (pa n : Nat) : s.badAt pa n = false := by rw [State.badAt, sound]; rfl

/-- Where no word fails, a plain write mends at most correctable errors. -/
theorem State.healWith_of_sound (pa n : Nat) (sel : Nat → Bool) (who : Option Nat) :
    (s.healWith pa n sel who).mem = s.mem ∧ (s.healWith pa n sel who).faults = s.faults := by
  unfold State.healWith
  dsimp only
  rw [sound]
  exact ⟨rfl, Prod.ext (by simp only [State.faults, List.filter_nil, List.foldl_nil, sound]) rfl⟩

theorem State.healFor_of_sound (pa n : Nat) (who : Option Nat) :
    (s.healFor pa n who).mem = s.mem ∧ (s.healFor pa n who).faults = s.faults := by
  unfold State.healFor
  split
  · exact ⟨rfl, rfl⟩
  · exact State.healWith_of_sound sound _ _ _ _

theorem State.faults_l1Drop (cl line : Nat) : (s.l1Drop cl line).faults = s.faults :=
  Prod.ext (by simp only [State.faults, State.l1Drop, State.setCl_bad, sound, List.filter_nil]) rfl

end

end Sys2Proof.Machine
end

section
/-! SUPPORT. The bytes that an access changes where no word of memory fails (O59): at its home, and through the L1. -/
namespace Sys2Proof.Machine

/-! ## A write at its home -/

theorem readByte_writeMask_out (m : List Host.Cell) (n : Nat) {a b : Nat} (mask v : Nat) (h : b < a ∨ a + n ≤ b) :
    readByte (writeMask m a mask n v) b = readByte m b := by
  induction n generalizing m a mask v with
  | zero => rfl
  | succ n ih =>
    rw [writeMask, ih _ _ _ (by omega)]
    split
    · exact readByte_writeByte_ne _ _ (by omega)
    · rfl

section
variable {s : State} (sound : s.bad = [])
include sound

theorem State.mem_store_plain {pa : Nat} (plain : keyOf pa = 0) (n v : Nat) (who : Option Nat) :
    (s.store pa n v who).mem = writeMem s.mem pa n v := by
  rw [State.store, if_pos plain]
  exact congrArg (writeMem · pa n v) (State.healFor_of_sound sound pa n who).1

/-- A write performed at a home that is not encrypted writes its bytes. -/
theorem State.mem_perform_plain {pa : Nat} (plain : keyOf pa = 0) (n v : Nat) (who : Option Nat) :
    (s.perform pa n v who).mem = writeMem s.mem pa n v := by
  have woken : (s.wake pa n).bad = [] := (State.bad_of_faults (s.faults_wake pa n)).trans sound
  rw [State.perform, State.mem_enqueue, State.mem_store_plain woken plain, State.mem_wake]

theorem State.mem_performRed_plain {pa : Nat} (plain : keyOf pa = 0) (n v : Nat) (who : Option Nat) :
    (s.performRed pa n v who).mem = writeMem s.mem pa n v := by
  have woken : (s.wake pa n).bad = [] := (State.bad_of_faults (s.faults_wake pa n)).trans sound
  rw [State.performRed, State.mem_enqueueRed, State.mem_store_plain woken plain, State.mem_wake]

end

/-- A write of a data unit changes bytes of its own alone. -/
theorem readByte_unitPut_out (s : State) (h mask v : Nat) {a : Nat} (out : a < bare h ∨ bare h + 64 ≤ a) :
    readByte (s.unitPut h mask v).mem a = readByte s.mem a := by
  unfold State.unitPut
  dsimp only
  generalize (s.cipher h (BitVec.ofNat 512 (mergeBytes mask 64 (s.unitText h) v))).toNat = text
  exact readByte_writeMem_out _ _ _ out

/-- A write of data units changes bytes of theirs alone. -/
theorem readByte_unitsPut_out (s : State) (pa n mask v : Nat) {a : Nat}
    (out : ∀ h ∈ unitHomes pa n, a < bare h ∨ bare h + 64 ≤ a) : readByte (s.unitsPut pa n mask v).mem a = readByte s.mem a := by
  unfold State.unitsPut
  refine List.foldlRecOn (motive := fun t : State => readByte t.mem a = readByte s.mem a) _ _ rfl fun t same h hh => ?_
  dsimp only
  split
  · exact same
  · exact (readByte_unitPut_out _ _ _ _ (out h hh)).trans same

/-- The two data units of a line. -/
theorem unitHomes_line {pa : Nat} (aligned : pa % 128 = 0) : unitHomes pa 128 = [pa, pa + 64] := by
  have first : pa / 64 * 64 = pa := by omega
  have count : (pa % 64 + 128 + 63) / 64 = 2 := by omega
  rw [unitHomes, count, first]
  rfl

/-- A write of some bytes of a line changes none outside the line's home. -/
theorem readByte_storeMask_line {s : State} (sound : s.bad = []) {pa a : Nat} (aligned : pa % 128 = 0) (mask v : Nat)
    (out : a < pa ∨ pa + 128 ≤ a) (outBare : a < bare pa ∨ bare pa + 128 ≤ a) :
    readByte (s.storeMask pa 128 mask v).mem a = readByte s.mem a := by
  have healed : (if (s.bad.isEmpty && s.soft.isEmpty) = true then s else s.healWith pa 128 fun i => bit mask i).mem = s.mem := by
    split
    · rfl
    · exact (State.healWith_of_sound sound _ _ _ _).1
  unfold State.storeMask
  dsimp only
  split
  · rw [readByte_writeMask_out _ _ _ _ out, healed]
  · rw [readByte_unitsPut_out, healed]
    rw [unitHomes_line aligned]
    unfold bare at outBare ⊢
    simp only [List.mem_cons, List.not_mem_nil, or_false]
    rintro h (rfl | rfl) <;> omega

/-! ## Lines of the L1 (R254) -/

theorem lineHome_aligned (s : State) (cl line key : Nat) : keyed (s.lineHome cl line) key % 128 = 0 := by
  unfold keyed State.lineHome pigAt sliceAt monBase
  split <;> omega

/-- A home that the L1 does not cache is not encrypted. -/
theorem keyOf_uncached {s : State} {cl pa : Nat} (h : s.l1Line cl pa = none) : keyOf pa = 0 := by
  unfold State.l1Line at h
  split at h
  · cases h
  · rename_i other
    exact if_neg other

theorem l1Line_congr {s t : State} (h : t.faults = s.faults) (cl pa : Nat) : t.l1Line cl pa = s.l1Line cl pa := by
  unfold State.l1Line
  rw [State.isMon_of_faults h]

theorem lineHome_congr {s t : State} (h : t.faults = s.faults) (cl line : Nat) : t.lineHome cl line = s.lineHome cl line := by
  unfold State.lineHome
  rw [State.isMon_of_faults h]

theorem l1Find_some {c : Cluster} {line : Nat} {l : L1Line} (h : c.l1Find line = some l) : l ∈ c.l1 ∧ l.line = line :=
  ⟨List.mem_of_find?_eq_some h, by simpa using List.find?_some h⟩

theorem l1Find_none {c : Cluster} {line : Nat} (h : c.l1Find line = none) {l : L1Line} (hl : l ∈ c.l1) : l.line ≠ line :=
  by simpa using List.find?_eq_none.mp h l hl

theorem l1Find_head {c : Cluster} {line : Nat} {l : L1Line} {ls : List L1Line} (h : c.l1 = l :: ls) (same : l.line = line) :
    c.l1Find line = some l := by
  rw [Cluster.l1Find, h, List.find?_cons, decide_eq_true same]

theorem l1_wantLine (s : State) (cl line key : Nat) : ((s.wantLine cl line key).cl cl).l1 = (s.cl cl).l1 := by
  unfold State.wantLine
  dsimp only
  split
  · rfl
  · rw [State.cl_setCl]

/-- A line that is held is not filled under another key. -/
theorem wantLine_held {s : State} {cl line : Nat} (h : ((s.cl cl).l1Find line).isSome = true) (key : Nat) : s.wantLine cl line key = s :=
  if_pos (.inl h)

/-- The byte at a lies outside the home of every dirty line, other than the line itself, of the line's set. -/
def State.clearOf (s : State) (cl line a : Nat) : Prop :=
  ∀ l ∈ (s.cl cl).l1, l.line ≠ line → l.line % 1024 = line % 1024 → l.dirty ≠ 0 →
  let h := keyed (s.lineHome cl l.line) l.key
  (a < h ∨ h + 128 ≤ a) ∧ (a < bare h ∨ bare h + 128 ≤ a)

/-- Where the set of the L1 and the homes of its lines are the same, so are the bytes outside them. -/
theorem State.clearOf.congr {s t : State} (same : t.faults = s.faults) {cl : Nat} (l1 : (t.cl cl).l1 = (s.cl cl).l1) {line a : Nat}
    (h : s.clearOf cl line a) : t.clearOf cl line a := by
  unfold State.clearOf
  rw [l1]
  intro l hl other set dirty
  rw [lineHome_congr same]
  exact h l hl other set dirty

/-- A dirty line is written back from a state that differs in what is awake, counted and logged. -/
theorem writeBack_dirty {s : State} {cl : Nat} {l : L1Line} (dirty : l.dirty ≠ 0) (parity : l.parity = false) :
    ∃ (t : State) (m : Nat), t.mem = s.mem ∧ t.faults = s.faults ∧
      s.writeBack cl l = (t.storeMask (keyed (s.lineHome cl l.line) l.key) 128 m l.data.toNat).enqueue
        (keyed (s.lineHome cl l.line) l.key) 128 m := by
  unfold State.writeBack
  rw [if_neg dirty, if_neg (by rw [parity]; exact Bool.false_ne_true)]
  refine ⟨_, _, ?_, ?_, rfl⟩
  · rw [State.mem_wake]
    split
    · exact foldl_mem _ (fun _ _ => State.mem_logErr _ _ _ _) _ _
    · rw [State.mem_correct]
      exact foldl_mem _ (fun _ _ => State.mem_logErr _ _ _ _) _ _
  · simp

/-- The least recent line of a full set evicted, which makes room for a line (R268). -/
def State.l1Room (s : State) (cl line : Nat) : State :=
  let inSet := (s.cl cl).l1.filter fun l => decide (l.line % 1024 = line % 1024)
  if inSet.length < 12 then s else
    match inSet.getLast? with
    | some v => s.l1Flush cl v.line
    | none => s

/-- A line is brought into the room made for it, at the head of the lines. -/
theorem l1Bring_eq (s : State) (cl line : Nat) : ∃ (pa : Nat) (c : Cluster) (l : L1Line) (ls : List L1Line), c.l1 = l :: ls ∧
    l.line = line ∧ l.parity = false ∧ s.l1Bring cl line = ((s.l1Room cl line).readAt cl pa 128).setCl cl c := by
  unfold State.l1Bring State.l1Room
  exact ⟨_, _, _, _, rfl, rfl, rfl, rfl⟩

section
variable {s : State} (sound : s.bad = [])
include sound

/-- A line written back changes bytes of its home alone. -/
theorem readByte_writeBack_out {cl a : Nat} {l : L1Line} (parity : l.parity = false)
    (out : l.dirty ≠ 0 → let h := keyed (s.lineHome cl l.line) l.key; (a < h ∨ h + 128 ≤ a) ∧ (a < bare h ∨ bare h + 128 ≤ a)) :
    readByte (s.writeBack cl l).mem a = readByte s.mem a := by
  by_cases clean : l.dirty = 0
  · rw [State.writeBack, if_pos clean]
  · obtain ⟨outside, outsideBare⟩ := out clean
    obtain ⟨t, m, mem, faults, written⟩ := writeBack_dirty (s := s) (cl := cl) clean parity
    have quiet : t.bad = [] := (State.bad_of_faults faults).trans sound
    rw [written, State.mem_enqueue, readByte_storeMask_line quiet (lineHome_aligned s cl l.line l.key) m _ outside outsideBare, mem]

theorem faults_storeMask (pa n mask v : Nat) : (s.storeMask pa n mask v).faults = s.faults := by
  have healed : (if (s.bad.isEmpty && s.soft.isEmpty) = true then s else s.healWith pa n fun i => bit mask i).faults = s.faults := by
    split
    · rfl
    · exact (State.healWith_of_sound sound _ _ _ _).2
  unfold State.storeMask
  dsimp only
  split
  · exact healed
  · rw [State.faults_unitsPut, healed]

theorem faults_writeBack (cl : Nat) {l : L1Line} (parity : l.parity = false) : (s.writeBack cl l).faults = s.faults := by
  by_cases clean : l.dirty = 0
  · rw [State.writeBack, if_pos clean]
  · obtain ⟨t, m, -, faults, written⟩ := writeBack_dirty (s := s) (cl := cl) clean parity
    rw [written, State.faults_enqueue, faults_storeMask ((State.bad_of_faults faults).trans sound), faults]

/-- A line of the L1 flushed: bytes outside its home stay. -/
theorem l1Flush_spec {cl line : Nat} (parity : ∀ l ∈ (s.cl cl).l1, l.parity = false) : (s.l1Flush cl line).faults = s.faults ∧
    ∀ other a, line ≠ other → line % 1024 = other % 1024 → s.clearOf cl other a →
      readByte (s.l1Flush cl line).mem a = readByte s.mem a := by
  unfold State.l1Flush
  split
  · exact ⟨rfl, fun _ _ _ _ _ => rfl⟩
  · rename_i l found
    obtain ⟨held, same⟩ := l1Find_some found
    have faults := faults_writeBack sound cl (parity l held)
    refine ⟨(State.faults_l1Drop ((State.bad_of_faults faults).trans sound) _ _).trans faults, fun other a ne set clear => ?_⟩
    rw [State.mem_l1Drop, readByte_writeBack_out sound (parity l held) fun dirty => clear l held (by rwa [same]) (by rwa [same]) dirty]

/-- Where room is made for a line, bytes of memory change only where a dirty line of its set is written back. -/
theorem l1Room_spec {cl line : Nat} (parity : ∀ l ∈ (s.cl cl).l1, l.parity = false) (absent : (s.cl cl).l1Find line = none) :
    (s.l1Room cl line).faults = s.faults ∧ ∀ a, s.clearOf cl line a → readByte (s.l1Room cl line).mem a = readByte s.mem a := by
  unfold State.l1Room
  dsimp only
  split
  · exact ⟨rfl, fun _ _ => rfl⟩
  · split
    · rename_i v last
      obtain ⟨held, sameSet⟩ := List.mem_filter.mp (List.mem_of_getLast? last)
      obtain ⟨faults, bytes⟩ := l1Flush_spec (line := v.line) sound parity
      exact ⟨faults, fun a clear => bytes line a (l1Find_none absent held) (of_decide_eq_true sameSet) clear⟩
    · exact ⟨rfl, fun _ _ => rfl⟩

/-- A line brought to the L1 heads its lines, and bytes of memory change only where a dirty line of its set is written back. -/
theorem l1Bring_spec {cl line : Nat} (parity : ∀ l ∈ (s.cl cl).l1, l.parity = false) (absent : (s.cl cl).l1Find line = none) :
    (s.l1Bring cl line).faults = s.faults ∧ (∀ a, s.clearOf cl line a → readByte (s.l1Bring cl line).mem a = readByte s.mem a) ∧
      ∃ l ls, ((s.l1Bring cl line).cl cl).l1 = l :: ls ∧ l.line = line ∧ l.parity = false := by
  obtain ⟨pa, c, l, ls, head, same, ok, brought⟩ := l1Bring_eq s cl line
  obtain ⟨faults, bytes⟩ := l1Room_spec (cl := cl) (line := line) sound parity absent
  rw [brought]
  refine ⟨?_, fun a clear => ?_, l, ls, ?_, same, ok⟩
  · rw [State.faults_setCl, State.faults_readAt, faults]
  · rw [State.setCl_mem, State.mem_readAt, bytes a clear]
  · rw [State.cl_setCl, head]

/-- The same of a line made most recent, or brought where it is not held. -/
theorem l1Fill_spec {cl line : Nat} (parity : ∀ l ∈ (s.cl cl).l1, l.parity = false) :
    (s.l1Fill cl line).faults = s.faults ∧ (∀ a, s.clearOf cl line a → readByte (s.l1Fill cl line).mem a = readByte s.mem a) ∧
      ∃ l ls, ((s.l1Fill cl line).cl cl).l1 = l :: ls ∧ l.line = line ∧ l.parity = false := by
  unfold State.l1Fill
  split
  · rename_i l found
    obtain ⟨held, same⟩ := l1Find_some found
    rw [parity l held, Bool.false_and, if_neg Bool.false_ne_true]
    exact ⟨State.faults_l1Recent _ _ _, fun _ _ => rfl, l, _, congrArg Cluster.l1 (State.cl_setCl _ _ _), same, parity l held⟩
  · rename_i absent
    exact l1Bring_spec sound parity absent

/-- An access through the L1 has its line at the head of the L1's lines. -/
theorem l1Fill_wantLine {cl line : Nat} (parity : ∀ l ∈ (s.cl cl).l1, l.parity = false) (key : Nat) :
    let t := (s.wantLine cl line key).l1Fill cl line
    t.faults = s.faults ∧ (∀ a, s.clearOf cl line a → readByte t.mem a = readByte s.mem a) ∧
      ∃ l ls, (t.cl cl).l1 = l :: ls ∧ l.line = line ∧ l.parity = false := by
  have wanted := s.faults_wantLine cl line key
  obtain ⟨faults, bytes, head⟩ := l1Fill_spec (s := s.wantLine cl line key) (cl := cl) (line := line)
    ((State.bad_of_faults wanted).trans sound) (by rw [l1_wantLine]; exact parity)
  refine ⟨faults.trans wanted, fun a clear => ?_, head⟩
  rw [bytes a (clear.congr wanted (l1_wantLine _ _ _ _)), State.mem_wantLine]

end

end Sys2Proof.Machine
end

section
/-! SUPPORT. Accesses performed where no word of memory fails (O59): what a load of a line just stored gives back, and which bytes of
memory each access leaves. -/
namespace Sys2Proof.Machine

/-! ## What an access answers its instruction changes no byte -/

@[simp] theorem State.mem_memErr (s : State) (r : MemReq) : (s.memErr r).mem = s.mem := rfl
@[simp] theorem State.mem_dropInter (s : State) (g id : Nat) : (s.dropInter g id).mem = s.mem := rfl
@[simp] theorem State.mem_answer (s : State) (g id : Nat) (ws : List Wr) (fl : BitVec 5) : (s.answer g id ws fl).mem = s.mem := rfl

@[simp] theorem State.mem_takePart (s : State) (r : MemReq) (put : Option (V2048 → V2048)) : (s.takePart r put).mem = s.mem := by
  unfold State.takePart
  dsimp only
  split
  · rfl
  · split
    · rfl
    · split <;> rfl

@[simp] theorem State.mem_logPart (s : State) (r : MemReq) (n : Nat) : (s.logPart r n).mem = s.mem := by
  unfold State.logPart
  dsimp only
  split
  · exact State.mem_logBad _ _ _ _ _
  · split
    · rfl
    · exact State.mem_logBad _ _ _ _ _

/-! ## A line's bytes -/

/-- A field set in a word is read back. -/
theorem bits_splice {w a n : Nat} (d hi v : Nat) (fits : a + n ≤ w) :
    bits (BitVec.ofNat w (d % 2 ^ a + v % 2 ^ n * 2 ^ a + hi * 2 ^ (a + n))).toNat a n = v % 2 ^ n := by
  obtain ⟨k, rfl⟩ := Nat.exists_eq_add_of_le fits
  have low : d % 2 ^ a < 2 ^ a := Nat.mod_lt _ (Nat.two_pow_pos _)
  have parts : d % 2 ^ a + v % 2 ^ n * 2 ^ a + hi * 2 ^ (a + n) = d % 2 ^ a + 2 ^ a * (v % 2 ^ n + 2 ^ n * hi) := by ring
  rw [bits, BitVec.toNat_ofNat, parts, Nat.add_assoc, Nat.pow_add, Nat.pow_add, Nat.mod_mul_right_div_self,
    Nat.add_mul_div_left _ _ (Nat.two_pow_pos _), Nat.div_eq_of_lt low, Nat.zero_add, Nat.mod_mul_right_mod, Nat.add_mul_mod_self_left, Nat.mod_mod]

/-- The bytes put into a line are read back. -/
theorem bits_put {l : L1Line} {o n : Nat} (v : Nat) (fits : o + n ≤ 128) :
    bits (l.put o n v).data.toNat (8 * o) (8 * n) = v % 2 ^ (8 * n) := by
  rw [L1Line.put, Nat.mul_add]
  exact bits_splice _ _ _ (by omega)

/-! ## The lines that an error corrected leaves -/

theorem l1_countEvent (s : State) (n pa cl : Nat) : ((s.countEvent n pa).cl cl).l1 = (s.cl cl).l1 := by
  unfold State.countEvent State.logEntry
  dsimp only
  rw [State.cl_setSite]
  by_cases same : cl = n
  · subst same
    rw [State.cl_setCl]
    split <;> rfl
  · rw [State.cl_setCl_ne _ _ _ _ same]

theorem l1_correct (s : State) (n pa len cl : Nat) : ((s.correct n pa len).cl cl).l1 = (s.cl cl).l1 :=
  foldl_keeps (fun t => (t.cl cl).l1 = (s.cl cl).l1) _ (fun t _ h => (l1_countEvent t _ _ cl).trans h) _ rfl

/-- A load from a home that the L1 does not cache changes no byte. -/
theorem mem_loadVia_uncached {s : State} {cl pa : Nat} (n : Nat) (home : s.l1Line cl pa = none) : (s.loadVia cl pa n).2.mem = s.mem := by
  unfold State.loadVia
  rw [home]
  dsimp only
  split
  · simp
  · simp

section
variable {s : State} (sound : s.bad = [])
include sound

/-- Where no word fails, a store heals nothing of its line. -/
theorem l1Heal_spec (cl line o n : Nat) : (s.l1Heal cl line o n).faults = s.faults ∧ ((s.l1Heal cl line o n).cl cl).l1 = (s.cl cl).l1 := by
  have corrected (t : State) (h : t.faults = s.faults) (w k : Nat) : t.badAt w k = false :=
    State.badAt_of_sound ((State.bad_of_faults h).trans sound) w k
  unfold State.l1Heal
  dsimp only
  split
  · rw [corrected s rfl, if_neg Bool.false_ne_true]
    exact ⟨rfl, rfl⟩
  · rw [corrected _ (State.faults_correct _ _ _ _), if_neg Bool.false_ne_true]
    exact ⟨State.faults_correct _ _ _ _, l1_correct _ _ _ _ _⟩

/-! ## Loads -/

/-- A load through the L1 changes only bytes of a dirty line of the same set, written back. -/
theorem readByte_loadVia {cl pa line : Nat} (n : Nat) (home : s.l1Line cl pa = some line) (parity : ∀ l ∈ (s.cl cl).l1, l.parity = false)
    {a : Nat} (clear : s.clearOf cl line a) : readByte (s.loadVia cl pa n).2.mem a = readByte s.mem a := by
  obtain ⟨-, bytes, -⟩ := l1Fill_wantLine sound (line := line) parity (keyOf pa)
  rw [← bytes a clear]
  unfold State.loadVia
  rw [home]
  dsimp only
  rw [State.badAt_of_sound sound, Bool.and_false, if_neg Bool.false_ne_true]
  split
  · rw [apply_ite Prod.snd, apply_ite State.mem, State.mem_logErr, ite_self]
    split
    · rfl
    · rw [State.mem_correct]
  · rfl

/-- A load of a line at the head of the L1's lines gives its bytes. -/
theorem loadVia_head {cl pa line : Nat} {l : L1Line} {ls : List L1Line} (n : Nat) (home : s.l1Line cl pa = some line)
    (head : (s.cl cl).l1 = l :: ls) (same : l.line = line) (parity : l.parity = false) :
    (s.loadVia cl pa n).1 = some (bits l.data.toNat (8 * (offOf pa % 128)) (8 * n)) := by
  have found := l1Find_head head same
  have wanted : s.wantLine cl line (keyOf pa) = s := wantLine_held (by rw [found]; rfl) _
  have filled : s.l1Fill cl line = s.l1Recent cl l := by
    rw [State.l1Fill, found]
    dsimp only
    rw [parity, Bool.false_and, if_neg Bool.false_ne_true]
  have again : ((s.l1Recent cl l).cl cl).l1Find line = some l := l1Find_head (congrArg Cluster.l1 (State.cl_setCl _ _ _)) same
  have quiet (t : State) (h : t.faults = s.faults) : t.l1Bad cl l (offOf pa % 128) n = false := by
    rw [State.l1Bad, parity, Bool.false_and, Bool.false_or, State.badAt_of_sound ((State.bad_of_faults h).trans sound)]
  unfold State.loadVia
  rw [home]
  dsimp only
  rw [found, Option.isNone_some, Bool.false_and, if_neg Bool.false_ne_true, wanted, filled, again]
  dsimp only
  rw [quiet _ (by simp), if_neg Bool.false_ne_true]

/-! ## Stores -/

/-- A store through the L1 has the line with its bytes put at the head of the L1's lines, and changes only bytes of a dirty line of the
same set, written back. -/
theorem storeVia_spec {cl pa line : Nat} (n v : Nat) (home : s.l1Line cl pa = some line) (parity : ∀ l ∈ (s.cl cl).l1, l.parity = false) :
    (s.storeVia cl pa n v).faults = s.faults ∧
      (∀ a, s.clearOf cl line a → readByte (s.storeVia cl pa n v).mem a = readByte s.mem a) ∧
      ∃ (l : L1Line) (ls : List L1Line), ((s.storeVia cl pa n v).cl cl).l1 = l.put (offOf pa % 128) n v :: ls ∧ l.line = line ∧
        l.parity = false := by
  obtain ⟨faults, bytes, l, ls, head, same, ok⟩ := l1Fill_wantLine sound (line := line) parity (keyOf pa)
  obtain ⟨healed, lines⟩ := l1Heal_spec ((State.bad_of_faults faults).trans sound) cl line (offOf pa % 128) n
  unfold State.storeVia
  rw [home]
  dsimp only
  rw [State.badAt_of_sound sound, Bool.and_false, if_neg Bool.false_ne_true]
  refine ⟨?_, fun a clear => ?_, l, ls.map fun m => if m.line = line then m.put (offOf pa % 128) n v else m, ?_, same, ok⟩
  · rw [State.faults_setCl, healed, faults]
  · rw [State.setCl_mem, State.mem_l1Heal, bytes a clear]
  · rw [State.cl_setCl]
    dsimp only
    rw [lines, head, List.map_cons, if_pos same]

/-- A store through the L1 is read back through it. -/
theorem loadVia_storeVia {cl pa line n : Nat} (v : Nat) (home : s.l1Line cl pa = some line)
    (parity : ∀ l ∈ (s.cl cl).l1, l.parity = false) (fits : offOf pa % 128 + n ≤ 128) :
    ((s.storeVia cl pa n v).loadVia cl pa n).1 = some (v % 2 ^ (8 * n)) := by
  obtain ⟨faults, -, l, ls, head, same, ok⟩ := storeVia_spec sound n v home parity
  rw [loadVia_head ((State.bad_of_faults faults).trans sound) n ((l1Line_congr faults cl pa).trans home) head same ok, bits_put v fits]

/-- A store to a home that the L1 does not cache writes its bytes. -/
theorem mem_storeVia_uncached {cl pa : Nat} (n v : Nat) (home : s.l1Line cl pa = none) :
    (s.storeVia cl pa n v).mem = writeMem s.mem pa n v := by
  unfold State.storeVia
  rw [home]
  exact State.mem_perform_plain sound (keyOf_uncached home) n v _

/-! ## Atomics and element updates -/

/-- An atomic at a home that the L1 does not cache writes bytes of its own. -/
theorem mem_amoAt_uncached {cl pa : Nat} (op : AmoOp) (b d : W64) (home : s.l1Line cl pa = none) :
    ∃ v, (s.amoAt cl pa op b d).2.mem = writeMem s.mem pa op.size v := by
  have read : (s.readRed cl pa op.size).bad = [] := (State.bad_of_faults (s.faults_readRed cl pa op.size)).trans sound
  unfold State.amoAt
  rw [home]
  dsimp only
  rw [State.badAt_of_sound read, if_neg Bool.false_ne_true]
  exact ⟨_, (State.mem_performRed_plain read (keyOf_uncached home) _ _ _).trans
    (congrArg (writeMem · pa op.size _) (s.mem_readRed cl pa op.size))⟩

/-- An element update writes bytes of its element. -/
theorem mem_addElem_plain {r : MemReq} (float : Bool) (plain : keyOf r.pa = 0) :
    ∃ v, (s.addElem r float).mem = writeMem s.mem r.pa 4 v := by
  have read : (s.readAt (r.ctx / 4) r.pa 4).bad = [] := (State.bad_of_faults (s.faults_readAt (r.ctx / 4) r.pa 4)).trans sound
  unfold State.addElem
  dsimp only
  rw [State.badAt_of_sound read, if_neg Bool.false_ne_true, State.mem_takePart]
  exact ⟨_, (State.mem_perform_plain read plain _ _ _).trans
    (congrArg (writeMem · r.pa 4 _) (s.mem_readAt (r.ctx / 4) r.pa 4))⟩

end

end Sys2Proof.Machine
end

section
/-! SUPPORT. What the storing instructions put under way as they issue, and their frame (O59). -/
namespace Sys2Proof.Machine

/-! ## Accesses posted -/

theorem readX_posted (s : State) (n : Nat) : (s.readX n).2.me.posted = s.me.posted :=
  readX_keeps (fun s => s.me.posted) s n fun _ _ => by rw [State.me_setMe]
theorem readV_posted (s : State) (n : Nat) : (s.readV n).2.me.posted = s.me.posted :=
  readV_keeps (fun s => s.me.posted) s n fun _ _ => by rw [State.me_setMe]

theorem interAcc_posted (s : State) (ds : List Reg) (acc : V2048) (n : Nat) (blk : Bool) :
    (s.interAcc ds acc n blk).me.posted = s.me.posted := by
  unfold State.interAcc
  dsimp only
  rw [State.me_setMe]

/-- The accesses of a vector write stand in their order after those before them. -/
theorem postAll_elems (u : State) (id reason : Nat) (es : List (W64 × MemOp × W64)) :
    (u.postAll (elemReqs u.clNo id reason es)).mem = u.mem ∧ ∃ rs,
      (u.postAll (elemReqs u.clNo id reason es)).me.posted = u.me.posted ++ rs ∧
      rs.map (fun q => (q.pa, q.op)) = es.map (fun e => (lsAt u.clNo e.1.toNat, e.2.1)) := by
  obtain ⟨rs, posted, -, mem, same, -⟩ := State.postAll_adds (elemReqs u.clNo id reason es) u
  refine ⟨mem, rs, posted, ?_⟩
  have parts := congrArg (List.map fun q : Nat × W64 × MemOp × W64 => (q.1, q.2.2.1)) (same.trans (elemReqs_parts _ _ _ _))
  simpa only [List.map_map, Function.comp_def] using parts

/-- The step of an address register adds no access. -/
theorem vBump_keeps (s : State) (u : BitVec 1) (r : BitVec 4) (v : W64) :
    (s.vBump u r v).mem = s.mem ∧ (s.vBump u r v).me.posted = s.me.posted := by
  unfold State.vBump
  split
  · exact ⟨(s.fix_leaves _ _ _ _).1, by rw [(s.fix_me _ _ _ _).1]⟩
  · exact ⟨rfl, rfl⟩

/-- A vector store that passes its checks. -/
theorem vst_posts {s s1 : State} {x : V2048} {d : BitVec 5} {r : BitVec 4} {u : BitVec 1} {p : BitVec 3} {m : BitVec 2} {o : BitVec 6}
    {acc : VAcc} (ready : Ready (.vst d r u p m o) s) (hread : s.readV d.toNat = (x, s1))
    (ok : s1.vAcc true r u (s1.me.getP p.toNat) m (s1.imm o) = .ok acc)
    (pass : s1.vecCheck 4 acc.badStride (acc.lanes.map acc.at_) = none) : ∃ t rs, exec (.vst d r u p m o) s = .next t ∧ t.mem = s.mem ∧
      t.me.posted = s.me.posted ++ rs ∧
      rs.map (fun q => (q.pa, q.op)) = acc.lanes.map (fun l => (lsAt s.clNo (acc.at_ l).toNat, .store 4)) := by
  have goes := exec_vst ready hread ok pass
  obtain rfl : (s.readV d.toNat).2 = s1 := congrArg Prod.snd hread
  obtain ⟨mem, rs, posted, parts⟩ := postAll_elems (s.readV d.toNat).2 0 0
    (acc.lanes.map fun i => (acc.at_ i, .store 4, (lane x i).setWidth 64))
  obtain ⟨stepMem, stepPosted⟩ := vBump_keeps
    ((s.readV d.toNat).2.vecWrite (acc.lanes.map fun i => (acc.at_ i, .store 4, (lane x i).setWidth 64))) u r acc.base'
  refine ⟨_, rs, goes, ?_, ?_, ?_⟩
  · rw [stepMem, State.vecWrite, mem, readV_mem]
  · rw [stepPosted, State.vecWrite, posted, readV_posted]
  · rw [parts, List.map_map, readV_clNo]
    rfl

section
variable {s t : State} {x y : V2048} {d b : BitVec 5} {a : BitVec 4} {p : BitVec 3} (hread : s.read2V d b = (x, y, t))
include hread

theorem read2V_keeps : t.mem = s.mem ∧ t.me.posted = s.me.posted ∧ t.clNo = s.clNo := by
  cases hread
  exact ⟨(readV_mem _ _).trans (readV_mem _ _), (readV_posted _ _).trans (readV_posted _ _), (readV_clNo _ _).trans (readV_clNo _ _)⟩

/-- A scatter that passes its checks. -/
theorem scatter_posts {half : Bool} (ready : s.issueCheck 0 [.v d.toNat, .x (32 + a.toNat), .v b.toNat, .p p.toNat] [] = none) :
    let es := elems half (s.areg a.toNat) y (s.me.getP p.toNat)
    t.vecCheck (if half then 2 else 4) false (es.map (·.2.2)) = none → ∃ t' rs, scatter half d a b p s = .next t' ∧ t'.mem = s.mem ∧
      t'.me.posted = s.me.posted ++ rs ∧
      rs.map (fun q => (q.pa, q.op)) = es.map (fun e => (lsAt s.clNo e.2.2.toNat, .store (if half then 2 else 4))) := by
  intro es pass
  obtain ⟨readMem, readPosted, readCl⟩ := read2V_keeps hread
  obtain ⟨mem, rs, posted, parts⟩ := postAll_elems t 0 0
    (es.map fun e => (e.2.2, .store (if half then 2 else 4), (lane x e.1).setWidth 64 >>> (16 * e.2.1)))
  refine ⟨_, rs, scatter_of_pass ready hread pass, mem.trans readMem, by rw [← readPosted]; exact posted, ?_⟩
  rw [parts, List.map_map, readCl]
  rfl

/-- A scatter-add that passes its checks. -/
theorem scatterAdd_posts {float : Bool} (ready : s.issueCheck 0 [.v d.toNat, .x (32 + a.toNat), .v b.toNat, .p p.toNat] [] = none) :
    let es := elems false (s.areg a.toNat) y (s.me.getP p.toNat)
    t.vecCheck 4 false (es.map (·.2.2)) = none → ∃ t' rs, scatterAdd float d a b p s = .next t' ∧ t'.mem = s.mem ∧
      t'.me.posted = s.me.posted ++ rs ∧
      rs.map (fun q => (q.pa, q.op)) = es.map (fun e => (lsAt s.clNo e.2.2.toNat, .addEl float)) := by
  intro es pass
  obtain ⟨readMem, readPosted, readCl⟩ := read2V_keeps hread
  obtain ⟨mem, rs, posted, parts⟩ := postAll_elems (t.interAcc [] 0 es.length) t.nextInter 4
    (es.map fun e => (e.2.2, .addEl float, (lane x e.1).setWidth 64))
  refine ⟨_, rs, scatterAdd_of_pass ready hread pass, mem.trans readMem, posted.trans (by rw [interAcc_posted, readPosted]), ?_⟩
  rw [parts, List.map_map, ← readCl]
  rfl

end

/-! ## Atomics -/

/-- An atomic that passes its checks. -/
theorem amoDo_posts {s : State} {op : AmoOp} {va : W64} {pa : Nat} (b d : W64) (dst : Nat) (acc : s.access va op.size .amo = .ok pa) :
    ∃ t q, amoDo op va b d dst s = .next t ∧ t.mem = s.mem ∧ t.me.posted = s.me.posted ++ [q] ∧ q.pa = pa ∧ q.op = .amo op := by
  have noted : Reads s (s.noteTlb s.clNo (s.agentOf s.cur) false va.toNat) := State.reads_noteTlb _ _ _ _ _
  let r : MemReq := { pa := pa, va := va, op := .amo op, arg := b, arg2 := d }
  have issues : amoDo op va b d dst s = (s.noteTlb s.clNo (s.agentOf s.cur) false va.toNat).issueMem r (some dst) id := by
    rw [amoDo, acc]
  obtain ⟨u, blk, asked, goes⟩ := issueMem_load (s := s.noteTlb s.clNo (s.agentOf s.cur) false va.toNat) (r := r) rfl dst id
  have same : Reads s u := noted.trans asked
  obtain ⟨due, -, -, -, mem, -, posted⟩ := (u.interAcc [.x dst] 0 1 blk).post_adds
    { r with id := (s.noteTlb s.clNo (s.agentOf s.cur) false va.toNat).nextInter, dst := dst }
  exact ⟨_, _, issues.trans goes, mem.trans same.mem, posted.trans (by rw [interAcc_posted, same.me]), rfl, rfl⟩

/-- An atomic past its shared checks and its sources. -/
theorem exec_amo_posts {s s1 : State} {i : Instr} {x y va b d : W64} {da aa ba : BitVec 6} {op : AmoOp} {pa : Nat}
    (hread : s.read2 aa ba = (x, y, s1)) (does : exec i s = amoDo op va b d da.toNat s1) (acc : s1.access va op.size .amo = .ok pa) :
    ∃ t q, exec i s = .next t ∧ t.mem = s.mem ∧ t.me.posted = s.me.posted ++ [q] ∧ q.pa = pa ∧ q.op = .amo op := by
  obtain ⟨t, q, goes, mem, posted, at_, is⟩ := amoDo_posts b d da.toNat acc
  cases hread
  exact ⟨t, q, does.trans goes, mem.trans ((readX_mem _ _).trans (readX_mem _ _)),
    posted.trans (by rw [readX_posted, readX_posted]), at_, is⟩

end Sys2Proof.Machine
end

section
/-! SUPPORT. The frame of the storing instructions and of their accesses (O59). -/
namespace Sys2Proof.Machine

/-! ## As they issue -/

/-- Each scatter and scatter-add that passes its checks has its elements' accesses under way. -/
theorem scatters_post {s s1 : State} {x y : V2048} {d b : BitVec 5} {r : BitVec 4} {p : BitVec 3} (hread : s.read2V d b = (x, y, s1)) :
    ∀ g ∈ ([(Instr.vsct32, false, 4, MemOp.store 4), (.vsct16, true, 2, .store 2), (.vsctaddF32, false, 4, .addEl true),
        (.vsctaddS32, false, 4, .addEl false)] : List ((BitVec 5 → BitVec 4 → BitVec 5 → BitVec 3 → Instr) × Bool × Nat × MemOp)),
      Ready (g.1 d r b p) s →
        let es := elems g.2.1 (s.areg r.toNat) y (s.me.getP p.toNat)
        s1.vecCheck g.2.2.1 false (es.map (·.2.2)) = none → ∃ t rs, exec (g.1 d r b p) s = .next t ∧ t.mem = s.mem ∧
          t.me.posted = s.me.posted ++ rs ∧ rs.map (fun q => (q.pa, q.op)) = es.map (fun e => (lsAt s.clNo e.2.2.toNat, g.2.2.2)) := by
  rw [List.forall_mem_cons, List.forall_mem_cons, List.forall_mem_cons, List.forall_mem_singleton]
  exact ⟨fun ready => scatter_posts (half := false) hread ready, fun ready => scatter_posts (half := true) hread ready,
    fun ready => scatterAdd_posts (float := true) hread ready, fun ready => scatterAdd_posts (float := false) hread ready⟩

/-- The atomics of a read address and operand, each with its operation and the address it acts on. -/
noncomputable def amoForms (x y : W64) : List ((BitVec 6 → BitVec 6 → BitVec 6 → Instr) × AmoOp × W64) :=
  [(Instr.aadd, .add, x), (.aand, .and, x), (.aor, .or, x), (.axchg, .xchg, x), (.amaxs, .maxs, x), (.amins, .mins, x),
        (.aaddf, .addf, x), (.afx, .fx, x), (.acas, .cas, x), (.ahist, .hist, x + BitVec.ofNat 64 (4 * fld y 0 32))]

section
variable {s s1 : State} {x y : W64} {d a b : BitVec 6} (hread : s.read2 a b = (x, y, s1))
include hread

theorem exec_amoForms {c : (BitVec 6 → BitVec 6 → BitVec 6 → Instr) × AmoOp × W64} (hc : c ∈ amoForms x y) (ready : Ready (c.1 d a b) s) :
    ∃ e f, exec (c.1 d a b) s = amoDo c.2.1 c.2.2 e f d.toNat s1 := by
  cases hread
  simp only [amoForms, List.mem_cons, List.not_mem_nil, or_false] at hc
  rcases hc with rfl | rfl | rfl | rfl | rfl | rfl | rfl | rfl | rfl | rfl
  all_goals exact ⟨_, _, exec_of_ready ready fun _ => rfl⟩

/-- An atomic that passes its checks has its access under way. -/
theorem amoForms_post {c : (BitVec 6 → BitVec 6 → BitVec 6 → Instr) × AmoOp × W64} (hc : c ∈ amoForms x y) (ready : Ready (c.1 d a b) s)
    {pa : Nat} (acc : s1.access c.2.2 c.2.1.size .amo = .ok pa) : ∃ t q, exec (c.1 d a b) s = .next t ∧ t.mem = s.mem ∧
      t.me.posted = s.me.posted ++ [q] ∧ q.pa = pa ∧ q.op = .amo c.2.1 := by
  obtain ⟨e, f, does⟩ := exec_amoForms hread hc ready
  exact exec_amo_posts hread does acc

end

/-! ## Performed -/

/-- Bytes of an aligned word lie in one line. -/
theorem fits_line {pa n : Nat} (hn : n ∈ [1, 2, 4, 8]) (aligned : pa % n = 0) : offOf pa % 128 + n ≤ 128 := by
  unfold offOf
  simp only [List.mem_cons, List.not_mem_nil, or_false] at hn
  rcases hn with rfl | rfl | rfl | rfl <;> omega

section
variable {s : State} {r : MemReq}

theorem mem_serve_load {w : Nat} (op : r.op = .load w) : (s.serve r).mem = (s.loadVia (r.ctx / 4) r.pa (szBytes w)).2.mem := by
  unfold State.serve
  rw [op]
  dsimp only
  split <;> (rename_i h; rw [h]; rfl)

theorem mem_serve_amo {op : AmoOp} (is : r.op = .amo op) : (s.serve r).mem = (s.amoAt (r.ctx / 4) r.pa op r.arg r.arg2).2.mem := by
  unfold State.serve
  rw [is]
  dsimp only
  split <;> (rename_i h; rw [h]; rfl)

theorem mem_serve_lane {n b : Nat} (op : r.op = .lane n b) : (s.serve r).mem = s.mem := by
  unfold State.serve
  rw [op]
  dsimp only
  split <;> simp

theorem mem_serve_bcst (op : r.op = .bcst) : (s.serve r).mem = s.mem := by
  unfold State.serve
  rw [op]
  dsimp only
  split <;> simp

end

section
variable {s : State} (sound : s.bad = []) {r : MemReq}
include sound

/-- An access of a home that the L1 does not cache changes no byte but those it stores to. -/
theorem serve_uncached (home : s.l1Line (r.ctx / 4) r.pa = none) :
    (∀ n, r.op = .store n → (s.memOk → (s.serve r).load r.pa n = r.arg.toNat % 2 ^ (8 * n)) ∧
      ∀ a, a < r.pa ∨ r.pa + n ≤ a → readByte (s.serve r).mem a = readByte s.mem a) ∧
    (∀ op, r.op = .amo op → ∀ a, a < r.pa ∨ r.pa + op.size ≤ a → readByte (s.serve r).mem a = readByte s.mem a) ∧
    (∀ w, r.op = .load w → (s.serve r).mem = s.mem) := by
  refine ⟨fun n op => ?store, fun f op a out => ?amo, fun w op => ?load⟩
  case store =>
    have mem : (s.serve r).mem = writeMem s.mem r.pa n r.arg.toNat := by rw [serve_store op, mem_storeVia_uncached sound n _ home]
    refine ⟨fun ok => ?_, fun a out => ?_⟩
    · rw [State.load, if_pos (keyOf_uncached home), mem, readMem_writeMem_same _ _ _ ok]
    · rw [mem, readByte_writeMem_out _ _ _ out]
  case amo =>
    obtain ⟨v, mem⟩ := mem_amoAt_uncached sound f r.arg r.arg2 home
    rw [mem_serve_amo op, mem, readByte_writeMem_out _ _ _ out]
  case load => rw [mem_serve_load op, mem_loadVia_uncached _ home]

/-- An element update changes no byte but its element's. -/
theorem readByte_serve_addEl {float : Bool} (op : r.op = .addEl float) (plain : keyOf r.pa = 0) {a : Nat} (out : a < r.pa ∨ r.pa + 4 ≤ a) :
    readByte (s.serve r).mem a = readByte s.mem a := by
  obtain ⟨v, mem⟩ := mem_addElem_plain sound float plain
  rw [State.serve, op]
  rw [mem, readByte_writeMem_out _ _ _ out]

/-- An access through the L1 changes no byte of memory but where a dirty line of the same set is written back. -/
theorem serve_cached {line : Nat} (home : s.l1Line (r.ctx / 4) r.pa = some line)
    (parity : ∀ l ∈ (s.cl (r.ctx / 4)).l1, l.parity = false) :
    (∀ w, r.op = .load w → ∀ a, s.clearOf (r.ctx / 4) line a → readByte (s.serve r).mem a = readByte s.mem a) ∧
    (∀ n, r.op = .store n → n ∈ [1, 2, 4, 8] → r.pa % n = 0 →
      ((s.serve r).loadVia (r.ctx / 4) r.pa n).1 = some (r.arg.toNat % 2 ^ (8 * n)) ∧
      ∀ a, s.clearOf (r.ctx / 4) line a → readByte (s.serve r).mem a = readByte s.mem a) := by
  refine ⟨fun w op a clear => ?load, fun n op size aligned => ?store⟩
  case load => rw [mem_serve_load op, readByte_loadVia sound _ home parity clear]
  case store =>
    rw [serve_store op]
    obtain ⟨-, bytes, -⟩ := storeVia_spec sound n r.arg.toNat home parity
    exact ⟨loadVia_storeVia sound _ home parity (fits_line size aligned), bytes⟩

end

/-- Settles O59: an instruction by the accesses it posts, an access by the bytes that its home or its line takes. -/
theorem storeFrame : Obligations.StoreFrame := by
  refine ⟨fun s => ⟨fun s1 x d r u z o pa ready hread => ?st, fun s1 x d r u p m o acc ready hread ok pass => vst_posts ready hread ok pass,
      fun s1 x y d b r p hread => scatters_post hread, fun s1 x y d a b pa hread c hc ready acc => amoForms_post hread hc ready acc⟩,
    fun s r sound => ?performed⟩
  case st =>
    intro n va s' acc free
    obtain ⟨-, issues⟩ := exec_st_spec ready hread acc
    obtain ⟨t, goes, issued⟩ := issues free
    exact ⟨t, goes, issued.underWay, issued.mem, issued.me, issued.others⟩
  case performed =>
    intro cl same
    exact ⟨serve_uncached sound, fun f op plain a out => readByte_serve_addEl sound op plain out, fun n b op => mem_serve_lane op,
      mem_serve_bcst, rfl, fun line home parity => serve_cached sound home parity⟩

end Sys2Proof.Machine
end

section
/-! SUPPORT. Vector arithmetic, predicates and permutes (O12, O13, O14, O16): what each operand form gives past its checks, and the lane
functions as the rules write them. -/
namespace Sys2Proof.Machine

/-! ## Operand forms -/

/-- The slot i is a vector slot with these operands, and does what the operand form o does. -/
structure HasForm (i : Instr) (srcs dsts : List Reg) (o : State → Out) : Prop where
  shape_eq : shape i = { cls := .vec, srcs := srcs, dsts := dsts }
  exec_eq : ∀ s, exec i s = o s

theorem HasForm.exec_ready {i : Instr} {srcs dsts : List Reg} {o : State → Out} {s : State} {out : Out} (form : HasForm i srcs dsts o)
    (of_pass : s.issueCheck 0 srcs dsts = none → o s = out) (ready : Ready i s) : exec i s = out := by
  rw [Ready, form.shape_eq] at ready
  rw [form.exec_eq, of_pass ready]

section
variable {s s1 s2 : State} {x x' y : V2048} {d a b : BitVec 5} {p : BitVec 3} {L : Nat}

/-- Reading two vector sources leaves every predicate. -/
theorem getP_of_read2V (hread : s.read2V a b = (x, y, s2)) (q : Nat) : s2.me.getP q = s.me.getP q := by
  cases hread
  rw [readV_getP, readV_getP]

theorem vuna_of_pass (f : W32 → W32 × Flags) (hread : s.readV a.toNat = (x', s1))
    (pass : s.issueCheck 0 [.v a.toNat, .p p.toNat] [.v d.toNat] = none) :
    vuna L f d a p s = .next (s1.fix L (.v d.toNat (lanes (s.me.getP p.toNat) (s.oldV d.toNat) fun i => (f (lane x' i)).1))
      (laneFlags (s.me.getP p.toNat) fun i => (f (lane x' i)).2) true) := by
  rw [vuna, gate_pass _ pass, hread, ← getP_of_readV hread]
  rfl

variable (hread : s.read2V a b = (x, y, s2))
include hread

theorem vbin_of_pass (f : W32 → W32 → W32 × Flags)
    (pass : s.issueCheck 0 [.v a.toNat, .v b.toNat, .p p.toNat] [.v d.toNat] = none) :
    vbin L f d a b p s =
      .next (s2.fix L (.v d.toNat (lanes (s.me.getP p.toNat) (s.oldV d.toNat) fun i => (f (lane x i) (lane y i)).1))
        (laneFlags (s.me.getP p.toNat) fun i => (f (lane x i) (lane y i)).2) true) := by
  rw [vbin, gate_pass _ pass, ← getP_of_read2V hread]
  cases hread
  rfl

/-- The third source is what the destination held before the others are read (R143). -/
theorem vtri_of_pass (f : W32 → W32 → W32 → W32 × Flags)
    (pass : s.issueCheck 0 [.v d.toNat, .v a.toNat, .v b.toNat, .p p.toNat] [.v d.toNat] = none) :
    let h (i : Nat) := f (lane (s.oldV d.toNat) i) (lane x i) (lane y i)
    vtri L f d a b p s = .next (s2.fix L (.v d.toNat (lanes (s.me.getP p.toNat) (s.oldV d.toNat) fun i => (h i).1))
      (laneFlags (s.me.getP p.toNat) fun i => (h i).2) true) := by
  rw [vtri, gate_pass _ pass, ← getP_of_read2V hread]
  cases hread
  rfl

theorem vcmp_of_pass (f : W32 → W32 → Bool × Flags) {d : BitVec 3}
    (pass : s.issueCheck 0 [.v a.toNat, .v b.toNat, .p p.toNat] [.p d.toNat] = none) :
    vcmp f d a b p s = .next (s2.fix 2 (.p d.toNat (BitVec.ofNat 64 (ofBits (fun i =>
        if pbit (s.me.getP p.toNat) i then (f (lane x i) (lane y i)).1 else pbit (s.me.getP d.toNat) i) 64)))
      (laneFlags (s.me.getP p.toNat) fun i => (f (lane x i) (lane y i)).2) true) := by
  rw [vcmp, gate_pass _ pass, ← getP_of_read2V hread, ← getP_of_read2V hread]
  cases hread
  rfl

theorem vperm2_of_pass (f : V2048 → V2048 → Nat → W32)
    (pass : s.issueCheck 0 [.v a.toNat, .v b.toNat, .p p.toNat] [.v d.toNat] = none) :
    vperm2 f d a b p s = .next (s2.fix 3 (.v d.toNat (lanes (s.me.getP p.toNat) (s.oldV d.toNat) (f x y)))) := by
  rw [vperm2, gate_pass _ pass, ← getP_of_read2V hread]
  cases hread
  rfl

/-- Every lane of vsel is written, an inactive one from B (R147). -/
theorem exec_vsel_ready (ready : Ready (.vsel d a b p) s) :
    exec (.vsel d a b p) s = .next (s2.fix 2 (.v d.toNat (lanes (s.me.getP p.toNat) y fun i => lane x i))) := by
  rw [exec_of_ready ready fun _ => rfl, ← getP_of_read2V hread]
  cases hread
  rfl

end

/-! ## The lane functions of integers, modulo 2^32 and in the order of the integers (R146, R149) -/

theorem int2_add : int2 (· + ·) = fun u v => (wrap 32 (u.toInt + v.toInt), 0) := by
  funext u v
  rw [wrap, BitVec.ofInt_add, BitVec.ofInt_toInt, BitVec.ofInt_toInt]
  rfl

theorem int2_sub : int2 (· - ·) = fun u v => (wrap 32 (u.toInt - v.toInt), 0) := by
  funext u v
  rw [wrap, Int.sub_eq_add_neg, BitVec.ofInt_add, BitVec.ofInt_neg, BitVec.ofInt_toInt, BitVec.ofInt_toInt, ← BitVec.sub_eq_add_neg]
  rfl

theorem int2_mul : int2 (· * ·) = fun u v => (wrap 32 (u.toInt * v.toInt), 0) := by
  funext u v
  rw [wrap, BitVec.ofInt_mul, BitVec.ofInt_toInt, BitVec.ofInt_toInt]
  rfl

theorem plain_mac : (fun o u v : W32 => plain (o + u * v)) = fun o u v => (wrap 32 (o.toInt + u.toInt * v.toInt), 0) := by
  funext o u v
  rw [wrap, BitVec.ofInt_add, BitVec.ofInt_mul, BitVec.ofInt_toInt, BitVec.ofInt_toInt, BitVec.ofInt_toInt]
  rfl

/-- A choice by the signed order is the choice by the order of the integers: of the lesser where l and r are u and v, of the greater where
they are v and u. -/
theorem plain_sle (u v l r : W32) : plain (if u.sle v then l else r) = (if u.toInt ≤ v.toInt then l else r, 0) := by
  simp only [plain, BitVec.sle_iff_toInt_le]

theorem plain_ule (u v l r : W32) : plain (if u.ule v then l else r) = (if u.toNat ≤ v.toNat then l else r, 0) := by
  simp only [plain, BitVec.ule_iff_toNat_le]

theorem beq_lanes : (fun u v : W32 => (u == v, (0 : Flags))) = fun u v => (decide (u = v), 0) := by
  funext u v
  rw [beq_eq_decide]

/-- Settles O12: a slot of two sources is the two-source form of its lane function; those of s32 are the rule's. -/
theorem vectorTwoSourceResults : Obligations.VectorTwoSourceResults := by
  intro s s' x y d a b p hread r hr
  refine HasForm.exec_ready ?_ (vbin_of_pass hread r.2.2)
  have s32 {f g : W32 → W32 → W32 × Flags} (fg : f = g) (t : State) : vbin 2 f d a b p t = vbin 2 g d a b p t := by rw [fg]
  revert r
  -- f32 and bf16
  iterate 10 refine List.forall_mem_cons.mpr ⟨⟨rfl, fun _ => rfl⟩, ?_⟩
  refine List.forall_mem_cons.mpr ⟨⟨rfl, s32 int2_add⟩, ?_⟩
  refine List.forall_mem_cons.mpr ⟨⟨rfl, s32 int2_sub⟩, ?_⟩
  refine List.forall_mem_cons.mpr ⟨⟨rfl, s32 int2_mul⟩, ?_⟩
  refine List.forall_mem_cons.mpr ⟨⟨rfl, s32 (funext₂ fun u v => plain_sle u v u v)⟩, ?_⟩
  refine List.forall_mem_cons.mpr ⟨⟨rfl, s32 (funext₂ fun u v => plain_sle u v v u)⟩, ?_⟩
  refine List.forall_mem_cons.mpr ⟨⟨rfl, s32 (funext₂ fun u v => plain_ule u v u v)⟩, ?_⟩
  refine List.forall_mem_cons.mpr ⟨⟨rfl, s32 (funext₂ fun u v => plain_ule u v v u)⟩, ?_⟩
  -- logic, division and narrowing
  iterate 10 refine List.forall_mem_cons.mpr ⟨⟨rfl, fun _ => rfl⟩, ?_⟩
  exact List.forall_mem_nil _

/-- Settles O13: a slot of one source, or of three, is that form of its lane function; that of vmac.s32 is the rule's. -/
theorem vectorOneAndThreeSourceResults : Obligations.VectorOneAndThreeSourceResults := by
  intro s s1 s2 x x' y d a b p hread hread2
  refine ⟨fun r hr => HasForm.exec_ready ?one (vuna_of_pass r.2.2 hread), fun r hr => HasForm.exec_ready ?three (vtri_of_pass hread2 r.2.2)⟩
  case one =>
    revert r
    iterate 16 refine List.forall_mem_cons.mpr ⟨⟨rfl, fun _ => rfl⟩, ?_⟩
    exact List.forall_mem_nil _
  case three =>
    revert r
    iterate 4 refine List.forall_mem_cons.mpr ⟨⟨rfl, fun _ => rfl⟩, ?_⟩
    exact List.forall_mem_singleton.mpr ⟨rfl, plain_mac ▸ fun _ => rfl⟩

/-- Settles O14: vsel by what it writes to every lane, the compares by their form, the predicate operations by the predicates they
sample. -/
theorem vectorPredicateResults : Obligations.VectorPredicateResults := by
  intro s s2 x y a b p d m n e hread act u v
  refine ⟨exec_vsel_ready hread, fun r hr => HasForm.exec_ready ?compares (vcmp_of_pass hread r.2), fun r hr ready => ?logic,
    fun ready => exec_of_ready ready fun _ => rfl, fun ready => ?any, fun ready => exec_of_ready ready fun _ => rfl,
    fun ready => exec_of_ready ready fun _ => rfl⟩
  case compares =>
    revert r
    iterate 4 refine List.forall_mem_cons.mpr ⟨⟨rfl, fun _ => rfl⟩, ?_⟩
    refine List.forall_mem_cons.mpr ⟨⟨rfl, beq_lanes ▸ fun _ => rfl⟩, ?_⟩
    iterate 3 refine List.forall_mem_cons.mpr ⟨⟨rfl, fun _ => rfl⟩, ?_⟩
    exact List.forall_mem_nil _
  case logic =>
    simp only [List.mem_cons, List.not_mem_nil, or_false] at hr
    rcases hr with rfl | rfl | rfl | rfl
    all_goals exact exec_of_ready ready fun _ => rfl
  case any =>
    rw [exec_of_ready ready fun _ => rfl, decide_not]
    rfl

/-! ## Compress, expand and KB-n (R155, R157, R158) -/

/-- Lane j of the result of vcompress: the j-th selected lane, and the lanes from the number of selected ones on as old. -/
def compressLane (sel : List Nat) (x old : V2048) (j : Nat) : W32 := match sel[j]? with
  | some i => lane x i
  | none => lane old j

theorem compressLane_eq (sel : List Nat) (x old : V2048) :
    compressLane sel x old = fun j => (sel[j]?.map fun i => lane x i).getD (lane old j) := by
  funext j
  rw [compressLane]
  cases sel[j]? <;> rfl

/-- The scale of block b, as the word that vkbscale gives to the block's lanes. -/
def kbScaleWord (n : Nat) (x : V2048) (b : Nat) : W32 :=
  BitVec.ofNat 32 (roundVal f32 .rne (kbScaleVal (kbPack n (blockVals x b)).scale)).1

theorem kbScaleWord_block (n : Nat) (x : V2048) {i : Nat} (h : i < 64) :
    (if i < 32 then kbScaleWord n x 0 else kbScaleWord n x 1) = kbScaleWord n x (i / 32) := by
  have block : i / 32 = if i < 32 then 0 else 1 := by split <;> omega
  rw [block, apply_ite (kbScaleWord n x)]

section
variable {s s1 : State} {x : V2048} {d a : BitVec 5} (hread : s.readV a.toNat = (x, s1))
include hread

theorem exec_vcompress_ready {p : BitVec 3} (ready : Ready (.vcompress d a p) s) :
    exec (.vcompress d a p) s = .next (s1.fix 3 (.v d.toNat (vecOf fun j =>
      (((selected (s.me.getP p.toNat))[j]?).map fun i => lane x i).getD (lane (s.oldV d.toNat) j)))) := by
  rw [exec_of_ready ready fun _ => rfl, hread, ← compressLane_eq, ← getP_of_readV hread]
  rfl

theorem exec_vexpand_ready {p : BitVec 3} (ready : Ready (.vexpand d a p) s) :
    exec (.vexpand d a p) s = .next (s1.fix 3 (.v d.toNat (lanes (s.me.getP p.toNat) (s.oldV d.toNat)
      fun i => lane x (popc (s.me.getP p.toNat).toNat i)))) := by
  rw [exec_of_ready ready fun _ => rfl, hread, ← getP_of_readV hread]

theorem exec_vkbpack_ready {n : BitVec 5} (ready : Ready (.vkbpack d a n) s) :
    let k (b : Nat) := kbPack n.toNat (blockVals x b)
    exec (.vkbpack d a n) s = .next (s1.fix 6 (.v d.toNat (BitVec.ofNat 2048 (pack n.toNat (k 0).mant +
      pack n.toNat (k 1).mant * 2 ^ (32 * n.toNat) + (k 0).scale * 2 ^ (32 * 62) + (k 1).scale * 2 ^ (32 * 63))))
      ((k 0).fl ||| (k 1).fl) true) := by
  rw [exec_of_ready ready fun _ => rfl, hread]

theorem exec_vkbunpack_ready {n : BitVec 5} (ready : Ready (.vkbunpack d a n) s) : exec (.vkbunpack d a n) s =
    .next (s1.fix 3 (.v d.toNat (lanes (BitVec.allOnes 64) 0 fun i => BitVec.ofNat 32 (unpackLane n.toNat x i).1))
      (laneFlags (BitVec.allOnes 64) fun i => (unpackLane n.toNat x i).2) true) := by
  rw [exec_of_ready ready fun _ => rfl, hread]
  rfl

theorem exec_vkbscale_ready {n : BitVec 5} (ready : Ready (.vkbscale d a n) s) :
    exec (.vkbscale d a n) s = .next (s1.fix 6
      (.v d.toNat (vecOf fun i => if i < 32 then kbScaleWord n.toNat x 0 else kbScaleWord n.toNat x 1))
      (((kbPack n.toNat (blockVals x 0)).fl ||| (kbPack n.toNat (blockVals x 1)).fl) &&& Flags.nv) true) := by
  rw [exec_of_ready ready fun _ => rfl, hread]
  rfl

end

/-- Settles O16: a permute is the form of its lane choice; compress, expand and the conversions by the lanes of their results. -/
theorem vectorPermuteResults : Obligations.VectorPermuteResults := by
  intro s s1 s2 x x' y d a b p hread hread2 act old
  refine ⟨fun r hr => HasForm.exec_ready ?permutes (vperm2_of_pass hread2 r.2), exec_vcompress_ready hread, exec_vexpand_ready hread,
    fun n => exec_vkbpack_ready hread, fun n => exec_vkbunpack_ready hread,
    fun n ready => ⟨_, _, exec_vkbscale_ready hread ready, rfl, fun i hi => ?scale⟩⟩
  case permutes =>
    revert r
    iterate 6 refine List.forall_mem_cons.mpr ⟨⟨rfl, fun _ => rfl⟩, ?_⟩
    exact List.forall_mem_nil _
  case scale => exact kbScaleWord_block _ _ hi

end Sys2Proof.Machine
end

section
/-! SUPPORT. The steps of the matrix engines (O35): a command taken from a queue, a repetition accepted, an MMA and a store completed, and a
row of a drain buffer. A value that a step only passes on (a row read, a result, the blocks of a load) is named by a variable in the proof:
the kernel would otherwise evaluate it. -/
namespace Sys2Proof.Machine

theorem exec_engineCommandStart (cl e : Nat) (s : State) : exec (.engineCommandStart cl e) s = execEngineCommandStart cl e s := rfl
theorem exec_mmaRepetitionAccept (cl e : Nat) (s : State) : exec (.mmaRepetitionAccept cl e) s = execMmaRepetitionAccept cl e s := rfl
theorem exec_mmaCompletion (cl e : Nat) (s : State) : exec (.mmaCompletion cl e) s = execMmaCompletion cl e s := rfl
theorem exec_mstCompletion (cl e : Nat) (s : State) : exec (.mstCompletion cl e) s = execMstCompletion cl e s := rfl
theorem exec_drainRowDelivery (cl e : Nat) (s : State) : exec (.drainRowDelivery cl e) s = execDrainRowDelivery cl e s := rfl

/-! ## An engine read back, and what the end of an operation leaves of memory -/

@[simp] theorem State.engine_setEngine (s : State) (cl e : Nat) (x : Engine) : ((s.setEngine cl e x).cl cl).engine e = x :=
  (congrArg (Cluster.engine · e) (State.cl_setCl s cl _)).trans (mget_mset_same _ _ _ _)

/-- A stamp taken leaves the engines of its cluster. -/
@[simp] theorem State.engine_takeStamp (s : State) (cl e : Nat) : ((s.takeStamp cl).2.cl cl).engine e = (s.cl cl).engine e := by
  rw [State.takeStamp, State.cl_setCl, Cluster.engine, Cluster.engine]

@[simp] theorem State.stamp_setEngine (s : State) (cl e : Nat) (x : Engine) : ((s.setEngine cl e x).cl cl).stamp = (s.cl cl).stamp := by
  rw [State.setEngine, State.cl_setCl, Cluster.setEngine]

@[simp] theorem State.stamp_takeStamp (s : State) (cl : Nat) : ((s.takeStamp cl).2.cl cl).stamp = (s.cl cl).stamp + 1 := by
  rw [State.takeStamp, State.cl_setCl]

@[simp] theorem State.mem_dropOpTlb (s : State) (op : Op) : (s.dropOpTlb op).mem = s.mem := by
  unfold State.dropOpTlb
  dsimp only
  split <;> rfl

@[simp] theorem State.mem_complete (s : State) (g t n : Nat) (vis : Bool) : (s.complete g t n vis).mem = s.mem := by
  unfold State.complete
  dsimp only
  split <;> rfl

@[simp] theorem State.mem_opDone (s : State) (op : Op) : (s.opDone op).mem = s.mem :=
  (State.mem_complete _ _ _ _ _).trans (State.mem_dropOpTlb s op)

/-! ## The steps -/

/-- An idle engine takes the head of its queue. -/
theorem exec_engineCommandStart_head {s : State} {cl e : Nat} {q : EngCmd} {qs : List EngCmd}
    (idle : ((s.cl cl).engine e).run = none) (head : ((s.cl cl).engine e).queue = q :: qs) :
    exec (.engineCommandStart cl e) s = .next (s.startCmd cl e q ((s.cl cl).engine e)) := by
  rw [exec_engineCommandStart]
  delta execEngineCommandStart
  dsimp only
  rw [idle, head]

/-- An engine that has taken the head of its queue, the rest of which is qs. -/
def State.dequeued (s : State) (cl e : Nat) (qs : List EngCmd) : State := s.setEngine cl e { (s.cl cl).engine e with queue := qs }

theorem State.engine_dequeued (s : State) (cl e : Nat) (qs : List EngCmd) :
    ((s.dequeued cl e qs).cl cl).engine e = { (s.cl cl).engine e with queue := qs } := State.engine_setEngine _ _ _ _

section
variable {s : State} {cl e : Nat} {q : EngCmd} {qs : List EngCmd} (head : ((s.cl cl).engine e).queue = q :: qs)
  (alive : s.opDead q.op = false)
include head alive

theorem State.startCmd_mzero {k : Nat} (act : q.act = .mzero k) : s.startCmd cl e q ((s.cl cl).engine e) =
    ((s.dequeued cl e qs).zeroMem (accAt cl (k * 16384)) 16384).opDone q.op := by
  rw [State.startCmd, alive, act, head]
  dsimp only
  rw [List.drop_one, List.tail_cons, if_neg Bool.false_ne_true, ← State.dequeued]

theorem State.startCmd_mwrv {k r : Nat} {v : V2048} (act : q.act = .mwrv k r v) : s.startCmd cl e q ((s.cl cl).engine e) =
    (s.dequeued cl e qs).setAccRow cl k r v := by
  rw [State.startCmd, alive, act, head]
  dsimp only
  rw [List.drop_one, List.tail_cons, if_neg Bool.false_ne_true, ← State.dequeued]

theorem State.startCmd_mrd {k r id vd : Nat} {clear : Bool} {v : V2048} {u : State} (act : q.act = .mrd k r id vd clear)
    (taken : (s.dequeued cl e qs).takeRow cl k r = (v, u)) : s.startCmd cl e q ((s.cl cl).engine e) =
    if clear then (u.answer q.op.ctx id [.v vd v]).setAccRow cl k r 0 else u.answer q.op.ctx id [.v vd v] := by
  rw [State.startCmd, alive, act, head]
  obtain ⟨take, named⟩ : ∃ take, State.takeRow = take := ⟨_, rfl⟩
  rw [named] at taken ⊢
  dsimp only
  rw [List.drop_one, List.tail_cons, if_neg Bool.false_ne_true, ← State.dequeued, taken]

theorem State.startCmd_mst {kind : MstKind} {k : Nat} {y : W64} {r : List W64} (act : q.act = .mst kind k y r) :
    s.startCmd cl e q ((s.cl cl).engine e) =
      (s.dequeued cl e qs).setEngine cl e { (s.cl cl).engine e with queue := qs, run := some { cmd := q } } := by
  rw [State.startCmd, alive, act, head]
  dsimp only
  rw [List.drop_one, List.tail_cons, if_neg Bool.false_ne_true, ← State.dequeued, State.engine_dequeued]

theorem State.startCmd_mma {k m na nb : Nat} {p : Nat × Nat} {ps : List (Nat × Nat)} {rpt : Bool}
    (act : q.act = .mma k m na nb (p :: ps) rpt) : s.startCmd cl e q ((s.cl cl).engine e) =
      (s.dequeued cl e qs).setEngine cl e { (s.cl cl).engine e with
        queue := qs, run := some { cmd := q, cur := if rpt then none else some (p.1, p.2, q.stamp) } } := by
  rw [State.startCmd, alive, act, head]
  dsimp only
  rw [List.drop_one, List.tail_cons, if_neg Bool.false_ne_true, ← State.dequeued, State.engine_dequeued, List.head?_cons, Option.map_some]

/-! ### mdrain (R185) -/

variable {k v : Nat} (act : q.act = .mdrain k v)
include act

/-- Both drain buffers hold rows: the command waits. -/
theorem State.startCmd_mdrain_full (full : 2 ≤ ((s.cl cl).engine e).drains.length) : s.startCmd cl e q ((s.cl cl).engine e) = s := by
  rw [State.startCmd, alive, act, head]
  dsimp only
  rw [if_neg Bool.false_ne_true, if_pos full]

variable {u : State} (room : ((s.cl cl).engine e).drains.length < 2)
  (corrected : (s.dequeued cl e qs).correctAll cl [(accAt cl (k * 16384), 16384)] = u)
include room corrected

/-- A copy is made, unless its context has ended. -/
theorem State.startCmd_mdrain_copied (good : u.firstBadOf [(accAt cl (k * 16384), 16384)] = none) :
    s.startCmd cl e q ((s.cl cl).engine e) =
      (u.setEngine cl e { (u.cl cl).engine e with drains := ((u.cl cl).engine e).drains ++
        if (u.ctx q.op.ctx).live = .exiting ∨ (u.ctx q.op.ctx).live = .off then []
        else [{ ctx := q.op.ctx, vq := v, rows := tab (u.accRow cl k) 64 }] }).opDone q.op := by
  rw [State.startCmd, alive, act, head]
  dsimp only
  rw [List.drop_one, List.tail_cons, if_neg Bool.false_ne_true, if_neg (Nat.not_le.mpr room), ← State.dequeued, corrected, good]

/-- The accumulator cannot be read: the register is free again, and the command fails. -/
theorem State.startCmd_mdrain_unread {pa : Nat} (bad : u.firstBadOf [(accAt cl (k * 16384), 16384)] = some pa) :
    s.startCmd cl e q ((s.cl cl).engine e) = (u.setVBound q.op.ctx v none).opFailAt q.op pa := by
  rw [State.startCmd, alive, act, head]
  dsimp only
  rw [List.drop_one, List.tail_cons, if_neg Bool.false_ne_true, if_neg (Nat.not_le.mpr room), ← State.dequeued, corrected, bad]

end

/-- The next repetition is accepted with the stamp of its entry. -/
theorem exec_mmaRepetitionAccept_next {s : State} {cl e : Nat} {r : EngRun} {k m na nb : Nat} {p : Nat × Nat} {ps : List (Nat × Nat)}
    {rpt : Bool} (running : ((s.cl cl).engine e).run = some r) (waiting : r.cur = none) (act : r.cmd.act = .mma k m na nb (p :: ps) rpt) :
    exec (.mmaRepetitionAccept cl e) s = .next ((s.takeStamp cl).2.setEngine cl e
      { (s.cl cl).engine e with run := some { r with cur := some (p.1, p.2, (s.cl cl).stamp) } }) := by
  rw [exec_mmaRepetitionAccept]
  delta execMmaRepetitionAccept
  simp only [running, waiting, act, State.engine_takeStamp]
  rfl

/-- The first drain buffer whose register has room gives a row, and keeps the rows that follow it. -/
theorem exec_drainRowDelivery_row {s : State} {cl e k : Nat} {d : Drain} {v : V2048} {vs : List V2048}
    (first : ((s.cl cl).engine e).drains.findIdx? s.drainRoom = some k) (found : ((s.cl cl).engine e).drains[k]? = some d)
    (rows : d.rows = v :: vs) (more : vs ≠ []) : exec (.drainRowDelivery cl e) s =
      .next ((s.setCtx d.ctx ((s.ctx d.ctx).land (.v (28 + d.vq) v))).setEngine cl e
        { (s.cl cl).engine e with drains := setAt ((s.cl cl).engine e).drains k { d with rows := vs } }) := by
  have room : s.drainRoom d = true := by
    obtain ⟨h, room, -⟩ := List.findIdx?_eq_some_iff_getElem.mp first
    rwa [← (List.getElem?_eq_some_iff.mp found).2]
  rw [exec_drainRowDelivery]
  delta execDrainRowDelivery State.deliverDrain
  simp only [first, found, rows]
  rw [room, Bool.not_true, if_neg Bool.false_ne_true, List.isEmpty_eq_false_iff.mpr more, if_neg Bool.false_ne_true]

/-- The state of an engine that has ended what it ran. -/
def State.idled (s : State) (cl e : Nat) : State := s.setEngine cl e { (s.cl cl).engine e with run := none }

/-- The last repetition of an mma: its rows where its words can all be read, and its failure at one that cannot. -/
theorem exec_mmaCompletion_last {s : State} {cl e : Nat} {r : EngRun} {sa sb st k m na nb : Nat} {p : Nat × Nat} {rpt : Bool} {u : State}
    (running : ((s.cl cl).engine e).run = some r) (cur : r.cur = some (sa, sb, st))
    (act : r.cmd.act = .mma k m na nb [p] rpt) (readyA : (s.cl cl).loadBefore sa st = false)
    (readyB : (s.cl cl).loadBefore sb st = false) (alive : s.opDead r.cmd.op = false)
    (corrected : s.correctAll cl (mmaReads cl k m na nb sa sb) = u) :
    (∀ rows fl, u.firstBadOf (mmaReads cl k m na nb sa sb) = none → u.mmaResult cl k m na nb sa sb = (rows, fl) →
      exec (.mmaCompletion cl e) s =
        .next ((((rows.zipIdx.foldl (fun u v => u.setAccRow cl k v.2 v.1) u).opFlags r.cmd.op fl).opDone r.cmd.op).idled cl e)) ∧
    (∀ pa, u.firstBadOf (mmaReads cl k m na nb sa sb) = some pa →
      exec (.mmaCompletion cl e) s = .next ((u.opFailAt r.cmd.op pa).idled cl e)) := by
  obtain ⟨result, named⟩ : ∃ result, State.mmaResult = result := ⟨_, rfl⟩
  have step := exec_mmaCompletion cl e s
  unfold execMmaCompletion at step
  rw [named] at step ⊢
  simp only [running, cur, act] at step
  rw [readyA, readyB, Bool.or_false, if_neg Bool.false_ne_true, alive, if_neg Bool.false_ne_true, corrected] at step
  refine ⟨fun rows fl good computed => ?_, fun pa bad => ?_⟩
  · simp only [step, good, computed]
    rfl
  · rw [step, bad]
    rfl

/-- Settles O35: each step by the branch of its meaning that its hypotheses choose. -/
theorem engineStepResults : Obligations.EngineStepResults := by
  intro s cl e x
  refine ⟨fun q qs idle head alive => ?starts, fun r k m na nb p ps rpt running waiting act => ?accepts,
    fun r sa sb st k m na nb p rpt running cur act readyA readyB alive => ?completes, fun r kind k y rc running act => ?stores,
    fun k d v vs => exec_drainRowDelivery_row⟩
  case starts =>
    rw [exec_engineCommandStart_head idle head]
    refine ⟨fun k act => ?mzero, fun k r v act => ?mwrv, fun k r id vd v u taken => ⟨fun act => ?mrdv, fun act => ?mrdq⟩,
      fun k v act => ⟨fun full => ?full, fun room good => ?copied, fun pa room bad => ?unread⟩, fun kind k y r act => ?mst,
      fun k m na nb p ps rpt act => ?mma⟩
    case mzero => exact congrArg _ (State.startCmd_mzero head alive act)
    case mwrv => exact congrArg _ (State.startCmd_mwrv head alive act)
    case mrdv => exact congrArg _ ((State.startCmd_mrd head alive act taken).trans (if_neg Bool.false_ne_true))
    case mrdq => exact congrArg _ ((State.startCmd_mrd head alive act taken).trans (if_pos rfl))
    case full => exact congrArg _ (State.startCmd_mdrain_full head alive act full)
    case copied => exact congrArg _ (State.startCmd_mdrain_copied head alive act room rfl good)
    case unread => exact congrArg _ (State.startCmd_mdrain_unread head alive act room rfl bad)
    case mst => exact congrArg _ (State.startCmd_mst head alive act)
    case mma => exact congrArg _ (State.startCmd_mma head alive act)
  case accepts =>
    refine ⟨_, exec_mmaRepetitionAccept_next running waiting act, ?_, ?_, rfl⟩
    · rw [State.engine_setEngine]
    · rw [State.stamp_setEngine, State.stamp_takeStamp]
  case completes =>
    obtain ⟨done, fails⟩ := exec_mmaCompletion_last running cur act readyA readyB alive rfl
    exact ⟨fun rows fl good computed => ⟨_, done rows fl good computed, congrArg Engine.run (State.engine_setEngine _ _ _ _),
      State.mem_opDone _ _⟩, fails⟩
  case stores =>
    have step := exec_mstCompletion cl e s
    unfold execMstCompletion at step
    obtain ⟨writesOf, named⟩ : ∃ writesOf, State.mstWrites = writesOf := ⟨_, rfl⟩
    rw [named] at step ⊢
    simp only [show ((s.cl cl).engine e).run = some r from running, act] at step
    refine ⟨fun dead => ?dead, fun pa alive bad => ?unreadable, fun ws fl alive good writes => ?writes⟩
    case dead => rw [step, if_pos dead]
    case unreadable => rw [step, if_neg (Bool.eq_false_iff.mp alive), bad]
    case writes =>
      rw [if_neg (Bool.eq_false_iff.mp alive), good] at step
      simp only [writes] at step
      refine ⟨fun z half wrote => ?first, fun z err half failed => ?firstFails, fun h z half wrote => ?second,
        fun h z err half failed => ?secondFails⟩
      case first =>
        simp only [half, wrote] at step
        exact ⟨_, step, congrArg Engine.run (State.engine_setEngine _ _ _ _)⟩
      case firstFails => simpa only [half, failed] using step
      case second => simpa only [half, wrote] using step
      case secondFails => simpa only [half, failed] using step

end Sys2Proof.Machine
end

section
/-! SUPPORT. The steps of the loader and of the ring engines (O36): loads of operand slots, and a ring's rows, registrations, credits and
writes. -/
namespace Sys2Proof.Machine

theorem exec_oloadCompletion (cl k : Nat) (s : State) : exec (.oloadCompletion cl k) s = execOloadCompletion cl k s := rfl
theorem exec_ofillCompletion (cl k : Nat) (s : State) : exec (.ofillCompletion cl k) s = execOfillCompletion cl k s := rfl
theorem exec_ringRowLanding (g r : Nat) (s : State) : exec (.ringRowLanding g r) s = execRingRowLanding g r s := rfl
theorem exec_ringRowWriteAccept (g r : Nat) (s : State) : exec (.ringRowWriteAccept g r) s = execRingRowWriteAccept g r s := rfl
theorem exec_ringMulticastRow (m : Nat) (s : State) : exec (.ringMulticastRow m) s = execRingMulticastRow m s := rfl
theorem exec_recvRegistration (g r : Nat) (s : State) : exec (.recvRegistration g r) s = execRecvRegistration g r s := rfl
theorem exec_ringCreditReturn (m : Nat) (s : State) : exec (.ringCreditReturn m) s = execRingCreditReturn m s := rfl
theorem exec_ringBoundRowDelivery (g r : Nat) (s : State) : exec (.ringBoundRowDelivery g r) s = .next (s.deliverChunk g r) := rfl

/-! ## Loads of operand slots (R181, R182) -/

section
variable {s : State} {cl k : Nat} {l : LoadCmd} (found : (s.cl cl).loader[k]? = some l)
include found

theorem exec_oloadCompletion_ready {y : W64} {rc : List W64} (src : l.src = .tile y rc) (ready : (s.cl cl).loadReady l = true)
    {bs : Except (Nat × W64) (List OBlk)} {u : State}
    (read : readAll (fun q s => s.loadBlk cl l y rc (q / 8) (q % 8)) (List.range 512) s = (bs, u)) :
    exec (.oloadCompletion cl k) s = .next (u.endLoad cl l bs) := by
  obtain ⟨qs, named⟩ : ∃ qs, List.range 512 = qs := ⟨_, rfl⟩
  rw [exec_oloadCompletion]
  delta execOloadCompletion
  rw [named] at read ⊢
  simp only [found, src]
  rw [ready, Bool.not_true, if_neg Bool.false_ne_true, read]

variable {r blk0 row : Nat} {x : Ring} (src : l.src = .ring r blk0 row) (ring : (s.ctx l.op.ctx).ring r = some x)
include src ring

/-- An ofill reads its rows once every one of them has landed, and waits before. -/
theorem exec_ofillCompletion_rows :
    (∀ bs u, (s.cl cl).loadReady l = true → (∀ i, i < l.vr → x.hasLanded (row + i) = true) →
      readAll (fun q s => s.ringBlk cl l x blk0 row (q / 8) (q % 8)) (List.range 512) s = (bs, u) →
      exec (.ofillCompletion cl k) s = .next ((u.endLoad cl l bs).ringSettle l.op.ctx r)) ∧
    (∀ i, i < l.vr → x.hasLanded (row + i) = false → exec (.ofillCompletion cl k) s = .next s) := by
  obtain ⟨qs, named⟩ : ∃ qs, List.range 512 = qs := ⟨_, rfl⟩
  have step := exec_ofillCompletion cl k s
  unfold execOfillCompletion at step
  rw [named] at step ⊢
  simp only [found, src, ring] at step
  refine ⟨fun bs u ready landed read => ?_, fun i hi missing => ?_⟩
  · have all : ((List.range l.vr).all fun i => x.hasLanded (row + i)) = true :=
      List.all_eq_true.mpr fun i hi => landed i (List.mem_range.mp hi)
    rw [step, ready, all, Bool.not_true, Bool.or_false, if_neg Bool.false_ne_true, read]
  · have notAll : ((List.range l.vr).all fun i => x.hasLanded (row + i)) = false :=
      List.all_eq_false.mpr ⟨i, List.mem_range.mpr hi, Bool.eq_false_iff.mp missing⟩
    rw [step, notAll, Bool.not_false, Bool.or_true, if_pos rfl]

end

/-! ## Rows of an IN ring (R193) -/

/-- The next row of an IN ring that no wrfree empties: the first that has not landed, in a free slot, with credits unless it is past the
record's end (R192, R194, R195). -/
theorem State.nextFetch_some {s : State} {g r a : Nat} {x : Ring} (whole : x.freeing = none) (next : s.nextFetch g r x = some a) :
    a = x.landed ∧ x.mode = 0 ∧ a < x.first + x.depth ∧ (a < x.rows → ∀ c ∈ x.credits, c.2 ≠ 0) := by
  rw [State.nextFetch, whole, Option.isSome_none, if_neg Bool.false_ne_true] at next
  split_ifs at next with mode room
  cases next
  exact ⟨rfl, not_not.mp mode, room.1, fun inRecord c hc =>
    of_decide_eq_true (List.all_eq_true.mp (room.2.resolve_left (Nat.not_le.mpr inRecord)) c hc)⟩

/-- A row that is half written, and not fetched again, is finished: its other granules are written, and it lands (R193, R259). -/
theorem State.fetchNext_finish (s : State) (g r a : Nat) {x : Ring} {p : RowPart} (part : x.part = some p) (first : p.again = false) :
    s.fetchNext g r x a =
      ((s.putSome g x a p false).opFlags ((x.owner a).getD { s.plainOp with ctx := g, user := s.userOf g, agent := s.agentOf g }) p.fl).endRow
        g r x a ((x.owner a).getD { s.plainOp with ctx := g, user := s.userOf g, agent := s.agentOf g }) p.val := by
  unfold State.fetchNext
  simp only [part]
  rw [first, if_neg Bool.false_ne_true]

section
variable {s : State} {g r : Nat} {x : Ring} (ring : (s.ctx g).ring r = some x)
include ring

/-- The ring of a stopped context fetches no row but one that an ofill names. -/
theorem exec_ringRowLanding_paused (paused : (s.ctx g).paused = true) (whole : x.part = none) (unnamed : s.ofillWaits g r x = false) :
    exec (.ringRowLanding g r) s = .next s := by
  rw [exec_ringRowLanding]
  delta execRingRowLanding
  simp only [ring]
  rw [if_pos (Or.inr (by rw [paused, whole, unnamed]; rfl))]

/-- A half written row is finished, and lands. -/
theorem exec_ringRowLanding_finish {p : RowPart} (mode : x.mode = 0) (part : x.part = some p) (first : p.again = false)
    (inRecord : p.row < x.rows) : exec (.ringRowLanding g r) s =
      .next ((((s.putSome g x p.row p false).opFlags ((x.owner p.row).getD { s.plainOp with
        ctx := g, user := s.userOf g, agent := s.agentOf g }) p.fl).endRow g r x p.row
        ((x.owner p.row).getD { s.plainOp with ctx := g, user := s.userOf g, agent := s.agentOf g }) p.val).ringSettle g r) := by
  have going : ¬(x.mode ≠ 0 ∨ ((s.ctx g).paused && x.part.isNone && !s.ofillWaits g r x) = true) := by
    rw [mode, part, Option.isNone_some, Bool.and_false, Bool.false_and]
    decide
  rw [exec_ringRowLanding]
  delta execRingRowLanding
  simp only [ring]
  rw [if_neg going, part, Option.any_some, first, Bool.not_false, if_pos rfl]
  simp only [Option.map_some, Option.some_or]
  rw [if_neg (Nat.not_le.mpr inRecord), State.fetchNext_finish s g r p.row part first]

end

section
variable {s : State} {g r : Nat} {x : Ring} (ring : (s.ctx g).ring r = some x) (whole : x.part = none) (noFlush : s.flushNext g r x = none)
include ring whole noFlush

/-- A ring with no row half written and none to fetch again goes on with the next row. -/
theorem exec_ringRowLanding_next {a : Nat} (going : (s.ctx g).paused = false) (mode : x.mode = 0) (next : s.nextFetch g r x = some a) :
    exec (.ringRowLanding g r) s =
      .next ((if x.rows ≤ a then (s.putRow g x a 0).setRing g r (x.land a) else s.fetchNext g r x a).ringSettle g r) := by
  have turn : ¬(x.mode ≠ 0 ∨ ((s.ctx g).paused && x.part.isNone && !s.ofillWaits g r x) = true) := by
    rw [mode, going, Bool.false_and, Bool.false_and]
    decide
  rw [exec_ringRowLanding]
  delta execRingRowLanding
  simp only [ring]
  rw [if_neg turn, whole, Option.any_none, if_neg Bool.false_ne_true, noFlush]
  simp only [Option.map_none, Option.none_or, next]

/-- With no row to fetch nothing happens. -/
theorem exec_ringRowLanding_none (next : s.nextFetch g r x = none) : exec (.ringRowLanding g r) s = .next s := by
  rw [exec_ringRowLanding]
  delta execRingRowLanding
  simp only [ring]
  rw [whole, Option.any_none, if_neg Bool.false_ne_true, noFlush, Option.map_none, Option.none_or, next]
  exact ite_self _

end

/-! ## Registration and credits (R194, R195) -/

theorem exec_ringCreditReturn_counted {s : State} {m : Nat} {msg : Msg} {op : Op} {c r i n : Nat} {x : Ring}
    (arrived : s.arrived m = some msg) (act : msg.act = .credit op c r i n) (ring : ((s.take m).ctx c).ring r = some x)
    (mode : x.mode = 0) (served : mget 0 x.dests i ≠ 0) : exec (.ringCreditReturn m) s =
      .next (((s.take m).setRing c r { x with dests := mset x.dests i (mget 0 x.dests i + n) }).ringSettle c r) := by
  rw [exec_ringCreditReturn]
  delta execRingCreditReturn
  simp only [arrived, act, ring]
  rw [if_pos ⟨mode, served⟩]

theorem exec_recvRegistration_found {s : State} {g r cl : Nat} {x y : Ring} (ring : (s.ctx g).ring r = some x) (recv : x.mode = 2)
    (waiting : x.registered = false) (source : s.gangCl (g / 4) x.mcf = some cl)
    (sourceRing : (s.ctx (cl * 4 + x.dctx)).ring x.dring = some y)
    (serves : y.mode = 0 ∧ y.mcf ≤ (s.cl (g / 4)).ti.gangIx ∧ (s.cl (g / 4)).ti.gangIx < y.mcf + y.mcn ∧ y.dctx = g % 4 ∧ y.dring = r ∧
      mget 1 y.dests (s.cl (g / 4)).ti.gangIx ≠ 0 ∧ y.freeing.isNone ∧
      !s.creditsOut (cl * 4 + x.dctx) x.dring (s.cl (g / 4)).ti.gangIx) :
    exec (.recvRegistration g r) s = .next (((s.setRing (cl * 4 + x.dctx) x.dring
      { y with dests := mset y.dests (s.cl (g / 4)).ti.gangIx (x.first + x.depth - x.landed + 1) }).setRing
        g r { x with registered := true }).ringSettle g r) := by
  have unregistered : ¬(x.mode ≠ 2 ∨ x.registered = true) := by
    rw [recv, waiting]
    decide
  rw [exec_recvRegistration]
  delta execRecvRegistration
  simp only [ring]
  rw [if_neg unregistered]
  simp only [source, sourceRing]
  rw [if_pos serves]

/-! ## The delivery bound to a ring (R197) -/

/-- A landed chunk that is not of the record's last row is pushed, and the binding goes on to the next row. -/
theorem State.deliverChunk_pushed {s u : State} {g r q ch n : Nat} {x : Ring} {v : V2048} (ring : (s.ctx g).ring r = some x)
    (bound : x.bind = some (q, ch, n)) (landed : x.hasLanded n = true) (held : n < x.first + x.depth)
    (room : ((s.ctx g).getVQ q).ents.length < 4) (live : (s.ctx g).live = .run) (more : x.mode ≠ 0 ∨ n + 1 < x.rows)
    (taken : s.takeBytes (g / 4) (lsAt (g / 4) (x.rowAt n + ch * 256)) = (v, u)) : s.deliverChunk g r =
      ((u.setCtx g ((u.ctx g).land (.v (28 + q) v))).setRing g r { x with bind := some (q, ch, n + 1) }).ringSettle g r := by
  have delivers : (!x.hasLanded n || decide (x.first + x.depth ≤ n) || decide (4 ≤ ((s.ctx g).getVQ q).ents.length) ||
      (s.ctx g).live != .run) = false := by
    rw [landed, live, decide_eq_false (Nat.not_le.mpr held), decide_eq_false (Nat.not_le.mpr room)]
    rfl
  have notLast : (x.mode == 0 && decide (x.rows ≤ n + 1)) = false := by
    rcases more with mode | inRecord
    · rw [beq_eq_false_iff_ne.mpr mode, Bool.false_and]
    · rw [decide_eq_false (Nat.not_le.mpr inRecord), Bool.and_false]
  unfold State.deliverChunk
  simp only [ring, bound]
  rw [delivers, notLast, taken, if_neg Bool.false_ne_true, if_neg Bool.false_ne_true, if_neg Bool.false_ne_true]

/-- Settles O36: each step by the branch of its meaning that its hypotheses choose. -/
theorem loaderAndRingStepResults : Obligations.LoaderAndRingStepResults := by
  intro s
  refine ⟨fun cl k l y rc found src ready bs u read => exec_oloadCompletion_ready found src ready read,
    fun cl k l r blk0 row x found src ring => exec_ofillCompletion_rows found src ring,
    fun g r x ring => ⟨exec_ringRowLanding_paused ring, fun p => exec_ringRowLanding_finish ring,
      fun going unfreed whole => ⟨fun a noFlush next => ?fetch, exec_ringRowLanding_none ring whole⟩,
      fun k op a n going turn cmd alive => ?writes⟩,
    fun m msg op c r src sr v b x arrived act ring recv registered source ctx dring => ?multicast,
    fun g r x y cl ring recv waiting source sourceRing mode lower upper ctx dring served unfreed settled => ?register,
    fun m msg op c r i n x arrived act ring mode served => exec_ringCreditReturn_counted arrived act ring mode served,
    fun g r x q ch n ring bound landed held room live more v u taken =>
      congrArg _ (State.deliverChunk_pushed ring bound landed held room live more taken)⟩
  case fetch =>
    obtain ⟨first, mode, room, credits⟩ := State.nextFetch_some unfreed next
    have step := exec_ringRowLanding_next ring whole noFlush going mode next
    refine ⟨first, mode, room, credits, fun inRecord => ?_, fun past => ?_⟩
    · rw [step, if_neg (Nat.not_le.mpr inRecord)]
    · rw [step, if_pos past]
  case writes =>
    have step := exec_ringRowWriteAccept g r s
    unfold execRingRowWriteAccept at step
    simp only [ring, turn, cmd] at step
    rw [going, Bool.false_and, if_neg Bool.false_ne_true, alive, if_neg Bool.false_ne_true] at step
    refine ⟨fun u whole wrote => ?first, fun u e whole failed => ?firstFails, fun p u part wrote => ?second,
      fun p u e part failed => ?secondFails⟩
    case first => simpa only [whole, wrote] using step
    case firstFails => simpa only [whole, failed] using step
    case second => simpa only [part, wrote, Nat.add_sub_cancel_left] using step
    case secondFails => simpa only [part, failed] using step
  case multicast =>
    have taken : s.takesRow c src sr x = true := by simp [State.takesRow, recv, registered, source, ctx, dring]
    have step := exec_ringMulticastRow m s
    unfold execRingMulticastRow at step
    simp only [arrived, act, ring] at step
    rw [taken, Bool.not_true, if_neg Bool.false_ne_true] at step
    refine ⟨fun whole => ?_, fun p part => ?_⟩
    · rw [step, whole, Option.isNone_none, if_pos rfl, State.recvRow, whole]
    · rw [step, part, Option.isNone_some, if_neg Bool.false_ne_true, State.recvRow, part]
  case register =>
    have serves : y.freeing.isNone = true ∧ (!s.creditsOut (cl * 4 + x.dctx) x.dring (s.cl (g / 4)).ti.gangIx) = true := by
      rw [unfreed, settled]
      exact ⟨rfl, rfl⟩
    exact exec_recvRegistration_found ring recv waiting source sourceRing ⟨mode, lower, upper, ctx, dring, served, serves⟩

end Sys2Proof.Machine
end

section
/-! SUPPORT. Engine commands that take a number (O21 to O24): what one does may be told of the state that its number leaves, which is the
state before it but for the timeline. -/
namespace Sys2Proof.Machine

/-- A command whose timeline does not cancel it acts on the state that its number leaves. -/
theorem withOp_congr {s : State} {t n : Nat} {k k' : State → Op → State}
    (h : k (s.takeNums s.cur t n) (s.newOp t) = k' (s.takeNums s.cur t n) (s.newOp t)) : s.withOp t n k = s.withOp t n k' := by
  rw [State.withOp, h]
  rfl

end Sys2Proof.Machine
end

section
/-! SUPPORT. The ring commands as they issue (O21): the word of wrstat, and the rows that a wradv may retire. -/
namespace Sys2Proof.Machine

/-! ## The word of wrstat (R199) -/

/-- The least of a list and a bound is no more than the bound, and than each of the list. -/
theorem foldl_min_le {a c : Nat} {l : List Nat} (h : c ∈ a :: l) : l.foldl min a ≤ c :=
  (List.le_min?_iff List.min?_cons').mp (Nat.le_refl _) c h

/-- The credits that wrstat reports: of an IN ring with destinations the fewest that one of them holds, which the field saturates (R199). -/
def Ring.leastCredit (g : Ring) : Nat :=
  if g.mode = 0 ∧ g.mcn ≠ 0 then (g.credits.map (·.2)).foldl min (if g.credits.isEmpty then 0 else 255) else 0

theorem Ring.leastCredit_lt (g : Ring) : g.leastCredit < 256 := by
  unfold Ring.leastCredit
  split
  · have bound : (if g.credits.isEmpty then 0 else 255) < 256 := by split <;> decide
    exact Nat.lt_of_le_of_lt (foldl_min_le List.mem_cons_self) bound
  · decide

theorem Ring.leastCredit_zero {g : Ring} (h : g.mode ≠ 0 ∨ g.mcn = 0 ∨ g.credits = []) : g.leastCredit = 0 := by
  unfold Ring.leastCredit
  rcases h with mode | alone | unserved
  · exact if_neg fun h => mode h.1
  · exact if_neg fun h => h.2 alone
  · rw [unserved]
    exact ite_self 0

theorem Ring.leastCredit_le {g : Ring} {c : Nat × Nat} (mode : g.mode = 0) (served : g.mcn ≠ 0) (hc : c ∈ g.credits) :
    g.leastCredit ≤ c.2 := by
  rw [Ring.leastCredit, if_pos ⟨mode, served⟩]
  exact foldl_min_le (List.mem_cons_of_mem _ (List.mem_map_of_mem hc))

/-- The fields of the word that wrstat samples. -/
theorem ringWord_fields {mode credit landed depth : Nat} (bound fin : Bool) (next : Nat) (hm : mode ≤ 2) (hc : credit < 256)
    (hl : landed < 256) (hd : depth < 256) :
    let w : W64 := BitVec.ofNat 64 (8 + mode * 16 + bn bound * 64 + bn fin * 128 + credit * 2 ^ 8 + landed * 2 ^ 16 + depth * 2 ^ 24 +
      next % 2 ^ 32 * 2 ^ 32)
    fld w 0 4 = 8 ∧ fld w 4 2 = mode ∧ (fld w 6 1 = 1 ↔ bound = true) ∧ (fld w 7 1 = 1 ↔ fin = true) ∧ fld w 8 8 = credit ∧
      fld w 16 8 = landed ∧ fld w 24 8 = depth ∧ fld w 32 32 = next % 2 ^ 32 := by
  intro w
  have isBound : bn bound ≤ 1 := by cases bound <;> decide
  have isFin : bn fin ≤ 1 := by cases fin <;> decide
  have hn : next % 2 ^ 32 < 2 ^ 32 := Nat.mod_lt _ (by decide)
  rw [← bn_eq_one bound, ← bn_eq_one fin]
  have e : w.toNat = 8 + mode * 16 + bn bound * 64 + bn fin * 128 + credit * 2 ^ 8 + landed * 2 ^ 16 + depth * 2 ^ 24 +
      next % 2 ^ 32 * 2 ^ 32 := (BitVec.toNat_ofNat _ _).trans (Nat.mod_eq_of_lt (by omega))
  simp only [fld, bits, e]
  generalize bn bound = b at *
  generalize bn fin = f at *
  generalize next % 2 ^ 32 = n at *
  refine ⟨?_, ?_, ?_, ?_, ?_, ?_, ?_, ?_⟩ <;> omega

/-- The next row of the record that wrstat reports of an active ring, a free value of a RECV ring (log 6). -/
def Ring.nextRow (g : Ring) (free : W64) : Nat := match g.mode with
  | 0 => g.o1 + g.landed
  | 1 => g.o1 + g.next
  | _ => fld free 0 32

theorem Ring.nextRow_landed {g : Ring} {free : W64} (mode : g.mode = 0) : g.nextRow free = g.o1 + g.landed := by
  simp only [Ring.nextRow, mode]
theorem Ring.nextRow_written {g : Ring} {free : W64} (mode : g.mode = 1) : g.nextRow free = g.o1 + g.next := by
  simp only [Ring.nextRow, mode]

/-- No row of an active ring's record is left to land or to be written. -/
def Ring.finished (g : Ring) : Bool := match g.mode with
  | 0 => decide (g.rows ≤ g.landed)
  | 1 => decide (recSize g.tr 1 ≤ g.o1 + g.next)
  | _ => false

theorem Ring.finished_iff (g : Ring) : g.finished = true ↔
    (g.mode = 0 ∧ g.rows ≤ g.landed) ∨ (g.mode = 1 ∧ recSize g.tr 1 ≤ g.o1 + g.next) := by
  unfold Ring.finished
  split
  case h_1 mode => simp [mode]
  case h_2 mode => simp [mode]
  case h_3 notIn notOut => exact ⟨fun h => absurd h Bool.false_ne_true, fun h => h.elim (absurd ·.1 notIn) (absurd ·.1 notOut)⟩

/-- Rows of an active ring that a reader may name: all of an OUT ring, and those that have landed of another. -/
def Ring.readable (g : Ring) : Nat := if g.mode = 1 then g.depth else min g.depth (g.landed - g.first)

theorem Ring.readable_le (g : Ring) : g.readable ≤ g.depth := by
  unfold Ring.readable
  split
  · exact Nat.le_refl _
  · exact Nat.min_le_left _ _

/-- The word of wrstat on an active ring. -/
def Ring.status (g : Ring) (free : W64) : W64 :=
  BitVec.ofNat 64 (8 + g.mode * 16 + bn g.bind.isSome * 64 + bn g.finished * 128 + g.leastCredit * 2 ^ 8 + g.readable * 2 ^ 16 +
    g.depth * 2 ^ 24 + g.nextRow free % 2 ^ 32 * 2 ^ 32)

/-- wrstat on an active ring answers its status, and samples a free value where the ring is a RECV ring. -/
theorem exec_wrstat_active {s s' : State} {v : W64} {x y : BitVec 6} {g : Ring} (ready : Ready (.wrstat x y) s)
    (read : s.readX y.toNat = (v, s')) (ring : s'.me.ring (fld v 0 4) = some g) : ∃ (free : W64) (u : State),
      exec (.wrstat x y) s = .next (u.inter [.x x.toNat] (some [.x x.toNat (g.status free)])) ∧ u.mem = s'.mem := by
  refine ⟨(if g.mode = 2 then s'.fresh else (0, s')).1, (if g.mode = 2 then s'.fresh else (0, s')).2, ?_, ?_⟩
  · rw [exec_of_ready ready fun _ => rfl, read]
    simp only [ring]
    rfl
  · split <;> rfl

/-! ## Rows that leave a ring (R194, R196, R197) -/

/-- The oldest n rows may retire where no reader of any of them is left, and those of an IN ring have landed. -/
theorem mayRetire_rows {s : State} {g r n a : Nat} {x : Ring} (may : s.mayRetire g r x n = true) (first : x.first ≤ a)
    (last : a < x.first + n) : s.ofillNames g r a = false ∧ (x.mode = 0 → a < x.landed) ∧
      ∀ q ch m, x.bind = some (q, ch, m) → a < m := by
  rw [State.mayRetire, Bool.and_eq_true, Bool.or_eq_true, bne_iff_ne, decide_eq_true_eq, Bool.not_eq_true', List.any_eq_false] at may
  obtain ⟨landed, unread⟩ := may
  have idle : s.rowBusy g r x a = false := Bool.eq_false_iff.mpr (unread a (List.mem_range'_1.mpr ⟨first, last⟩))
  rw [State.rowBusy, Bool.or_eq_false_iff, Bool.or_eq_false_iff] at idle
  obtain ⟨⟨unnamed, undelivered⟩, -⟩ := idle
  refine ⟨unnamed, fun mode => ?_, fun q ch m bound => ?_⟩
  · exact Nat.lt_of_lt_of_le last (landed.resolve_left fun h => h mode)
  · rw [bound] at undelivered
    exact Nat.lt_of_not_le (of_decide_eq_false undelivered)

section
variable {s : State} {g r k n : Nat} {x : Ring} {op : Op} (alive : s.opDead op = false)
include alive

theorem ringCmdStep_adv_waits (may : s.mayRetire g r x n = false) : s.ringCmdStep g r x k op (.adv n) = s := by
  unfold State.ringCmdStep
  dsimp only
  rw [alive, may, if_neg Bool.false_ne_true, Bool.not_false, if_pos rfl]

variable (may : s.mayRetire g r x n = true)
include may

theorem ringCmdStep_adv_out (mode : x.mode = 1) : s.ringCmdStep g r x k op (.adv n) =
    (s.setRing g r { x with first := x.first + n, next := x.next + n, cmds := x.cmds.eraseIdx k }).opDone op := by
  unfold State.ringCmdStep
  dsimp only
  rw [alive, may, if_neg Bool.false_ne_true, Bool.not_true, if_neg Bool.false_ne_true, if_pos mode]

/-- The rows that a wradv names leave an IN ring, and it waits for those that land in their place. -/
theorem ringCmdStep_adv_fetches (mode : x.mode = 0) :
    s.ringCmdStep g r x k op (.adv n) =
      s.setRing g r { x with first := x.first + n, cmds := setAt x.cmds k (op, .landed (x.first + x.depth) (x.first + x.depth + n)) } := by
  have notOut : x.mode ≠ 1 := by rw [mode]; decide
  have notRecv : ¬(x.mode = 2 ∧ x.registered = true) := by rw [mode]; exact fun h => absurd h.1 (by decide)
  unfold State.ringCmdStep
  dsimp only
  rw [alive, may, if_neg Bool.false_ne_true, Bool.not_true, if_neg Bool.false_ne_true, if_neg notOut, if_neg notRecv]

/-- A RECV ring returns their credits to its source. -/
theorem ringCmdStep_adv_credits {cl : Nat} (mode : x.mode = 2) (registered : x.registered = true) (source : s.gangCl (g / 4) x.mcf = some cl) :
    s.ringCmdStep g r x k op (.adv n) = (s.setRing g r { x with
      first := x.first + n, cmds := setAt x.cmds k (op, .landed (x.first + x.depth) (x.first + x.depth + n)) }).send
        (g / 4) cl (.credit op (cl * 4 + x.dctx) x.dring (s.cl (g / 4)).ti.gangIx n) := by
  have notOut : x.mode ≠ 1 := by rw [mode]; decide
  have source' (u : Ring) : (s.setRing g r u).gangCl (g / 4) x.mcf = some cl := source
  unfold State.ringCmdStep
  dsimp only
  rw [alive, may, if_neg Bool.false_ne_true, Bool.not_true, if_neg Bool.false_ne_true, if_neg notOut, if_pos ⟨mode, registered⟩, source']
  rfl

end

/-! ## Commands on the ring that a word names (R194, R196, R198) -/

section
variable {s s' : State} {v n : W64} {t : BitVec 3} {x y : BitVec 6} {g : Ring}

theorem ringCmd_inactive {k : State → Nat → Ring → Op → State} (read : s.readX x.toNat = (v, s')) (inactive : s'.me.ring (fld v 0 4) = none) :
    ringCmd t x s k = s'.trapNow noRing := by
  simp only [ringCmd, read, inactive]

theorem ringCmd_active {k : State → Nat → Ring → Op → State} (read : s.readX x.toNat = (v, s')) (ring : s'.me.ring (fld v 0 4) = some g)
    (room : (s'.tl s'.cur t.toNat).wraps 1 = false) :
    ringCmd t x s k = .next (s'.withOp t.toNat 1 fun u op => k u (fld v 0 4) g op) := by
  simp only [ringCmd, read, ring, tlRoom_of_room room, andThen_none]

variable (read : s.drainLs.read2 x y = (v, n, s'))
include read

theorem exec_wradv (ready : Ready (.wradv t x y) s) (ring : s'.me.ring (fld v 0 4) = some g)
    (room : (s'.tl s'.cur t.toNat).wraps 1 = false) : exec (.wradv t x y) s = .next (s'.withOp t.toNat 1 fun u op =>
      if min n.toNat g.depth = 0 then u.opDone op
      else (u.setRing u.cur (fld v 0 4) { g with cmds := g.cmds ++ [(op, .adv (min n.toNat g.depth))] }).ringSettle u.cur (fld v 0 4)) := by
  obtain ⟨s1, hv, hn⟩ := read2_eq read
  rw [exec_of_ready ready fun _ => rfl]
  simp only [hv, hn, ring, tlRoom_of_room room, andThen_none]

theorem exec_wrout (ready : Ready (.wrout t x y) s) (ring : s'.me.ring (fld v 0 4) = some g)
    (room : (s'.tl s'.cur t.toNat).wraps 1 = false) : exec (.wrout t x y) s = .next (s'.withOp t.toNat 1 fun u op =>
      if g.mode ≠ 1 then u.opFail op (12, v)
      else (u.setRing u.cur (fld v 0 4) { g with cmds := g.cmds ++ [(op, .out 0 (min n.toNat g.depth))] }).ringSettle u.cur (fld v 0 4)) := by
  obtain ⟨s1, hv, hn⟩ := read2_eq read
  rw [exec_of_ready ready fun _ => rfl]
  simp only [hv, hn, ring, tlRoom_of_room room, andThen_none]

end

/-- Settles O21: each command past its checks on the ring it names, wrstat by the fields of its word, and a wradv's turn by what may
leave its ring. -/
theorem ringCommandsIssue : Obligations.RingCommandsIssue := by
  refine ⟨fun s s' v n t x y => ⟨fun xp sw bw tw u r tr ready hs hb hr hn inactive u2 useRec test5 test6 room span => ?wrset,
      fun read g ring room => ⟨fun ready nothing => ?advNone, fun ready rows => ?adv, fun ready out => ?out, fun ready notOut => ?outBad⟩,
      fun read g ring room => ⟨fun ready => ?free, fun ready => ?flush⟩,
      fun read q g ready ring chunk => ⟨fun binds stop unbound => ?bind, fun unbinds ch nx bound => ?unbind⟩,
      fun read ready => ⟨fun inactive => ?statNone, fun g ring => ?stat⟩,
      fun read inactive => ⟨fun ready => ?freeNone, fun ready => ?flushNone⟩⟩,
    fun s g r k n x op alive => ⟨ringCmdStep_adv_waits alive, fun may => ⟨fun a => mayRetire_rows may, ringCmdStep_adv_out alive may,
      ringCmdStep_adv_fetches alive may, fun cl => ringCmdStep_adv_credits alive may⟩⟩⟩
  case wrset =>
    subst hs hb hn
    rw [exec_of_ready ready fun _ => rfl]
    simp only [hr, inactive, Option.isSome_none]
    rw [if_neg Bool.false_ne_true, andThen_none]
    simp only [useRec, test5, test6, Bool.not_true]
    rw [if_neg Bool.false_ne_true, if_neg Bool.false_ne_true, tlRoom_of_room room, andThen_none, span]
    rfl
  case advNone => exact (exec_wradv read ready ring room).trans (congrArg _ (withOp_congr (if_pos nothing)))
  case adv => exact (exec_wradv read ready ring room).trans (congrArg _ (withOp_congr (if_neg rows)))
  case out => exact (exec_wrout read ready ring room).trans (congrArg _ (withOp_congr (if_neg (not_not.mpr out))))
  case outBad => exact (exec_wrout read ready ring room).trans (congrArg _ (withOp_congr (if_pos notOut)))
  case free => exact (exec_of_ready ready fun _ => rfl).trans (ringCmd_active read ring room)
  case flush => exact (exec_of_ready ready fun _ => rfl).trans (ringCmd_active read ring room)
  case bind =>
    rw [exec_of_ready ready fun _ => rfl]
    simp only [read]
    rw [binds, if_neg Nat.zero_ne_one, stop, andThen_none, ring]
    dsimp only
    rw [if_neg (Nat.not_le.mpr chunk), if_neg Nat.zero_ne_one, unbound]
    rfl
  case unbind =>
    rw [exec_of_ready ready fun _ => rfl]
    simp only [read]
    rw [unbinds, if_pos rfl, andThen_none, ring]
    dsimp only
    rw [if_neg (Nat.not_le.mpr chunk), if_pos rfl, bound]
    exact if_pos rfl
  case statNone =>
    rw [exec_of_ready ready fun _ => rfl, read]
    simp only [inactive]
  case stat =>
    have mem' : s'.mem = s.mem := by rw [← readX_mem s y.toNat, read]
    obtain ⟨free, u, step, mem⟩ := exec_wrstat_active ready read ring
    refine ⟨_, u, step, mem.trans mem', fun mode depth => ?_⟩
    obtain ⟨active, modeF, bindF, finF, creditF, landedF, depthF, nextF⟩ := ringWord_fields g.bind.isSome g.finished (g.nextRow free) mode
      g.leastCredit_lt (Nat.lt_of_le_of_lt g.readable_le depth) depth
    refine ⟨active, modeF, bindF, finF.trans g.finished_iff, fun unserved => creditF.trans (Ring.leastCredit_zero unserved),
      fun mode served c hc => creditF.le.trans (Ring.leastCredit_le mode served hc), landedF, depthF, fun mode => ?_, fun mode => ?_⟩
    · rw [Ring.status, nextF, Ring.nextRow_landed mode]
    · rw [Ring.status, nextF, Ring.nextRow_written mode]
  case freeNone => exact (exec_of_ready ready fun _ => rfl).trans (ringCmd_inactive read inactive)
  case flushNone => exact (exec_of_ready ready fun _ => rfl).trans (ringCmd_inactive read inactive)

end Sys2Proof.Machine
end

section
/-! SUPPORT. The window commands as they issue (O22): a command that releases stores held or going on, and what its number leaves. -/
namespace Sys2Proof.Machine

/-! ## A window command with its words read -/

section
variable {s : State} {t : BitVec 3} {rel : Bool} {k dead : State → Op → State} (room : (s.tl s.cur t.toNat).wraps 1 = false)
include room

/-- A command that releases the context's stores is held while one to pigeonhole memory is not performed (R261). -/
theorem winCmd_held (late : s.pigPending s.cur = true) : winCmd t true k s dead = s.hold .block := by
  unfold winCmd
  rw [tlRoom_of_room room, andThen_none, late]
  rfl

theorem winCmd_next (free : (rel && s.pigPending s.cur) = false) : winCmd t rel k s dead =
    .next (if (s.takeNums s.cur t.toNat 1).opDead (s.newOp t.toNat) then dead (s.takeNums s.cur t.toNat 1) (s.newOp t.toNat)
      else k (s.takeNums s.cur t.toNat 1) (s.newOp t.toNat)) := by
  unfold winCmd
  rw [tlRoom_of_room room, andThen_none, free]
  rfl

/-- A command that leaves nothing where its timeline cancels it does k' where it does so in the state that its number leaves. -/
theorem winCmd_does {k' : State → Op → State} (free : (rel && s.pigPending s.cur) = false)
    (act : k (s.takeNums s.cur t.toNat 1) (s.newOp t.toNat) = k' (s.takeNums s.cur t.toNat 1) (s.newOp t.toNat)) :
    winCmd t rel k s = .next (s.withOp t.toNat 1 k') :=
  (winCmd_next room free).trans (congrArg Host.Outcome.next (withOp_congr act))

end

/-! ## What taking a number leaves (R16) -/

section
variable (s : State) (g t n : Nat)

@[simp] theorem State.cur_takeNums : (s.takeNums g t n).cur = s.cur := rfl
@[simp] theorem State.clNo_takeNums : (s.takeNums g t n).clNo = s.clNo := rfl
@[simp] theorem State.myCl_takeNums : (s.takeNums g t n).myCl = s.myCl := rfl
@[simp] theorem State.myFrank_takeNums (w : Nat) : (s.takeNums g t n).myFrank w = s.myFrank w := rfl
@[simp] theorem State.groupOf_takeNums (y : W64) : (s.takeNums g t n).groupOf y = s.groupOf y := rfl
@[simp] theorem State.teamSize_takeNums (cl : Nat) : (s.takeNums g t n).teamSize cl = s.teamSize cl := rfl
@[simp] theorem State.rankCl_takeNums (cl r : Nat) : (s.takeNums g t n).rankCl cl r = s.rankCl cl r := rfl

/-- A place in a window's sequence leaves the issuing member's team as it is (R201). -/
@[simp] theorem State.ti_takePlace (w : Nat) : (s.takePlace w).2.myCl.ti = s.myCl.ti := by
  unfold State.takePlace
  dsimp only
  rw [State.myCl_setMyCl]

end

/-- Settles O22: each command past its checks, where a command that releases stores is held or goes on, by what it finds of its window in
the state that its number leaves. -/
theorem windowCommandsIssue : Obligations.WindowCommandsIssue := by
  refine ⟨fun s s' v w t x y => ⟨fun r s2 read ready useRec room => ?wnew, fun read ready room => ?wfree,
      fun read ready room => ⟨fun late => ?wfenceHeld, fun free => ?wfence⟩⟩,
    fun s s' v w t x y => ⟨fun read room => ?twoWords, fun read room => ?oneWord, fun read ready => ?wquery⟩⟩
  case wnew =>
    obtain ⟨s1, hv, hw⟩ := read2_eq read
    rw [exec_of_ready ready fun _ => rfl]
    simp only [hv, hw, useRec]
    rw [winCmd_next room rfl]
    simp only [State.ti_takePlace, State.myCl_takeNums]
  case wfree =>
    refine (exec_of_ready ready fun _ => rfl).trans ?_
    simp only [read]
    rw [winCmd_next room rfl]
    simp only [State.ti_takePlace, State.myCl_takeNums]
  case wfenceHeld =>
    obtain ⟨s1, hv, hw⟩ := read2_eq read
    rw [exec_of_ready ready fun _ => rfl]
    simp only [hv, hw]
    exact winCmd_held room late
  case wfence =>
    obtain ⟨s1, hv, hw⟩ := read2_eq read
    rw [exec_of_ready ready fun _ => rfl]
    simp only [hv, hw]
    exact winCmd_next room free
  case wquery =>
    rw [exec_of_ready ready fun _ => rfl, read]
  case twoWords =>
    obtain ⟨s1, hv, hw⟩ := read2_eq read
    refine ⟨fun late i hi ready => ?held,
      fun free => ⟨fun first count ready group closed => ?wpost, fun g ready group state => ?wpostState, fun ready group => ?wpostRank,
        fun l ready rank lock idle => ?wunlock⟩,
      fun first count ready group state unstarted => ?wstart, fun g ready group state => ?wstartState,
      fun c ready rank state unasked unlocked => ?wlock, fun ready => ?wflush⟩
    case held =>
      simp only [List.mem_cons, List.not_mem_nil, or_false] at hi
      rcases hi with rfl | rfl
      all_goals
        rw [exec_of_ready ready fun _ => rfl]
        simp only [hv, hw]
        exact winCmd_held room late
    case wpost =>
      rw [exec_of_ready ready fun _ => rfl]
      simp only [hv, hw]
      refine winCmd_does room free ?_
      rw [State.groupOf_takeNums, group]
      exact if_neg (not_not.mpr closed)
    case wpostState =>
      refine (exec_of_ready ready fun _ => rfl).trans ?_
      simp only [hv, hw]
      refine winCmd_does room free ?_
      rw [State.groupOf_takeNums, group]
      exact if_pos state
    case wpostRank =>
      refine (exec_of_ready ready fun _ => rfl).trans ?_
      simp only [hv, hw]
      refine winCmd_does room free ?_
      rw [State.groupOf_takeNums, group]
    case wunlock =>
      rw [exec_of_ready ready fun _ => rfl]
      simp only [hv, hw]
      refine winCmd_does room free ?_
      rw [State.teamSize_takeNums, State.clNo_takeNums, State.myCl_takeNums, State.cur_takeNums, if_neg (Nat.not_le.mpr rank), lock]
      exact if_neg (Bool.eq_false_iff.mp idle)
    case wstart =>
      rw [exec_of_ready ready fun _ => rfl]
      simp only [hv, hw]
      refine winCmd_does room rfl ?_
      rw [State.groupOf_takeNums, group]
      exact if_neg fun h => h.elim state fun started => by rw [State.myCl_takeNums, State.cur_takeNums, unstarted] at started; cases started
    case wstartState =>
      refine (exec_of_ready ready fun _ => rfl).trans ?_
      simp only [hv, hw]
      refine winCmd_does room rfl ?_
      rw [State.groupOf_takeNums, group]
      exact if_pos (Or.inl state)
    case wlock =>
      rw [exec_of_ready ready fun _ => rfl]
      simp only [hv, hw]
      refine winCmd_does room rfl ?_
      rw [State.rankCl_takeNums, State.clNo_takeNums, rank]
      exact if_neg fun h => h.elim state fun h => h.elim (Bool.eq_false_iff.mp unasked) (Bool.eq_false_iff.mp unlocked)
    case wflush =>
      rw [exec_of_ready ready fun _ => rfl]
      simp only [hv, hw]
      exact winCmd_does room rfl rfl
  case oneWord =>
    refine ⟨fun ready late => ?wcomplHeld, fun e ready free epoch started => ?wcompl, fun ready free epoch => ?wcomplState,
      fun ready state idle => ?wwait, fun ready state => ?wwaitState⟩
    case wcomplHeld =>
      rw [exec_of_ready ready fun _ => rfl]
      simp only [read]
      exact winCmd_held room late
    case wcompl =>
      rw [exec_of_ready ready fun _ => rfl]
      simp only [read]
      refine winCmd_does room free ?_
      rw [State.myCl_takeNums, State.cur_takeNums, epoch]
      dsimp only
      rw [started]
      rfl
    case wcomplState =>
      rw [exec_of_ready ready fun _ => rfl]
      simp only [read]
      refine winCmd_does room free ?_
      rw [State.myCl_takeNums, State.cur_takeNums, epoch]
    case wwait =>
      rw [exec_of_ready ready fun _ => rfl]
      simp only [read]
      refine winCmd_does room rfl (if_neg ?_)
      rw [State.myFrank_takeNums, idle]
      exact fun h => h.elim (fun h => h state) Bool.false_ne_true
    case wwaitState =>
      rw [exec_of_ready ready fun _ => rfl]
      simp only [read]
      exact winCmd_does room rfl (if_pos (Or.inl state))

end Sys2Proof.Machine
end

section
/-! SUPPORT. The remote operations as they issue (O23): what each row makes of the shape that all of them share. -/
namespace Sys2Proof.Machine

/-- An operation of getacc that AUX does not name (R209). -/
def RemKind.unnamed : RemKind → Bool
  | .getacc k => decide (6 ≤ k)
  | _ => false

section
variable {kindOf : W64 → RemKind} {bad : W64 → Bool} {multi : W64 → Nat} {t : BitVec 3} {x : BitVec 6} {y : BitVec 4} {s s' s2 : State} {lw : W64}
  {r : List W64} {kind : RemKind} {more : Nat} (ready : s.issueCheck 0 [.x x.toNat, .x (2 * y.toNat), .x (2 * y.toNat + 1)] [] = none)
  (read : s.drainLs.readX x.toNat = (lw, s')) (hkind : kindOf lw = kind) (hmulti : multi lw = more)
include ready read hkind hmulti

/-- A remote operation whose window test fails traps by it (R21, R208). -/
theorem remote_windowTrap {tr : Trap} (test : s'.winTest kind more lw (s'.me.getX (2 * y.toNat)) (s'.me.getX (2 * y.toNat + 1)) = some tr) :
    remote kindOf bad multi t x y s = s'.trapNow tr := by
  unfold remote engGate
  rw [gate_pass _ ready]
  simp only [read, hkind, hmulti, test]

/-- One that passes its tests takes a number and goes on, but for one whose AUX names no operation (R208, R209). -/
theorem remote_goes (named : bad lw = kind.unnamed)
    (test : s'.winTest kind more lw (s'.me.getX (2 * y.toNat)) (s'.me.getX (2 * y.toNat + 1)) = none) :
    let len := s'.me.getX (2 * y.toNat + 1)
    let span := if kind = .rcas then 16 else len.toNat
    s'.useRec (lwHandle lw) ([rRemote] ++ (if kind.readsL then [rRd] else []) ++ (if kind.writesL then [rW] else [])) byteRange3
      (fun r => byteRange6 r && lwOff lw % 4 == 0 && decide (lwOff lw + span ≤ recExtent r)) = .ok (r, s2) →
    (s2.tl s2.cur t.toNat).wraps 1 = false →
    (recSpace r = 1 ∨ lsSpanTrap s2.myCl (recBase r + lwOff lw : Nat) (recBase r + lwOff lw + span : Nat) = none) →
    remote kindOf bad multi t x y s = .next (s2.withOp t.toNat 1 fun u op =>
      if kind.unnamed then u.opFail op (12, s'.me.getX (2 * y.toNat))
      else u.remoteGo kind more lw (s'.me.getX (2 * y.toNat)) len.toNat r op) := by
  intro len span useRec room inBounds
  have noSpan : (if recSpace r = 1 then none else
      (lsSpanTrap s2.myCl (recBase r + lwOff lw : Nat) (recBase r + lwOff lw + span : Nat)).map Stop.trap) = none := by
    rcases inBounds with space | inside
    · exact if_pos space
    · rw [inside]
      exact ite_self none
  unfold remote engGate
  rw [gate_pass _ ready]
  simp only [read, hkind, hmulti, test, named]
  rw [useRec]
  dsimp only
  rw [tlRoom_of_room room, andThen_none, noSpan, andThen_none]

end

/-- A row of the table of remote operations is the shape that all of them share, with the row's kind and further targets. -/
def RemoteRow (i : BitVec 3 → BitVec 6 → BitVec 4 → Instr) (lw : W64) (kind : RemKind) (more : Nat) : Prop :=
  ∃ kindOf bad multi, (∀ t x y s, exec (i t x y) s = remote kindOf bad multi t x y s) ∧
    (∀ t x y, shape (i t x y) = { cls := .eng, srcs := [.x x.toNat, .x (2 * y.toNat), .x (2 * y.toNat + 1)] }) ∧
    kindOf lw = kind ∧ multi lw = more ∧ bad lw = kind.unnamed

/-- A row whose kind and targets its local word does not change. -/
theorem RemoteRow.plain {i : BitVec 3 → BitVec 6 → BitVec 4 → Instr} {lw : W64} {kind : RemKind}
    (meaning : ∀ t x y s, exec (i t x y) s = remote (fun _ => kind) noBad noMulti t x y s)
    (form : ∀ t x y, shape (i t x y) = { cls := .eng, srcs := [.x x.toNat, .x (2 * y.toNat), .x (2 * y.toNat + 1)] })
    (named : kind.unnamed = false) : RemoteRow i lw kind 0 := ⟨_, _, _, meaning, form, rfl, rfl, named.symm⟩

/-- putm goes to the ranks that AUX adds (R209). -/
theorem remoteRow_putm (lw : W64) : RemoteRow .putm lw .put (lwAux lw) :=
  ⟨fun _ => .put, noBad, lwAux, fun _ _ _ _ => rfl, fun _ _ _ => rfl, rfl, rfl, rfl⟩

/-- AUX names getacc's operation (R209). -/
theorem remoteRow_getacc (lw : W64) : RemoteRow .getacc lw (.getacc (lwAux lw % 8)) 0 :=
  ⟨fun lw => .getacc (lwAux lw % 8), fun lw => decide (6 ≤ lwAux lw % 8), noMulti, fun _ _ _ _ => rfl, fun _ _ _ => rfl, rfl, rfl, rfl⟩

/-- Settles O23: every row is the one shape of a remote operation, with its kind and its further targets. -/
theorem remoteOperationsIssue : Obligations.RemoteOperationsIssue := by
  intro s s' s2 lw t x y r read c hc ra len kind span rights t6 ready
  have row : RemoteRow c.1 lw c.2.1 c.2.2 := by
    simp only [List.mem_cons, List.not_mem_nil, or_false] at hc
    rcases hc with rfl | rfl | rfl | rfl | rfl | rfl | rfl | rfl | rfl | rfl | rfl
    on_goal 3 => exact remoteRow_putm lw
    on_goal 10 => exact remoteRow_getacc lw
    all_goals exact .plain (fun _ _ _ _ => rfl) (fun _ _ _ => rfl) rfl
  obtain ⟨kindOf, bad, multi, meaning, form, hkind, hmulti, hbad⟩ := row
  rw [Ready, form] at ready
  rw [meaning]
  exact ⟨fun tr => remote_windowTrap ready read hkind hmulti, remote_goes ready read hkind hmulti hbad⟩

end Sys2Proof.Machine
end

section
/-! SUPPORT. The commands of the sorting office as they issue (O24): a command by its block, the word of cstat, and a ccancel by the members
that its word names. -/
namespace Sys2Proof.Machine

/-! ## dispatch, combine and coll (R217, R334) -/

section
variable {fn : Nat} {t : BitVec 3} {x : BitVec 6} {s s' s2 : State} {a : W64} {rs : List (List W64)}
  (ready : s.issueCheck 0 [.x x.toNat] [] = none) (read : s.drainLs.readX x.toNat = (a, s'))
include ready read

theorem sortCmd_unaligned (room : (s'.tl s'.cur t.toNat).wraps 1 = false) (unaligned : a.toNat % 64 ≠ 0) :
    sortCmd fn t x s = s'.trapNow (alignTrap a 64) := by
  unfold sortCmd engGate
  rw [gate_pass _ ready]
  simp only [read]
  rw [if_pos unaligned, tlRoom_of_room room]
  rfl

variable (aligned : a.toNat % 64 = 0)
include aligned

theorem sortCmd_outside (room : (s'.tl s'.cur t.toNat).wraps 1 = false) (outside : s'.myCl.lsOk a.toNat 64 = false) :
    sortCmd fn t x s = s'.trapNow (lsboundTrap a) := by
  unfold sortCmd engGate
  rw [gate_pass _ ready]
  simp only [read]
  rw [if_neg (not_not.mpr aligned), outside, tlRoom_of_room room]
  rfl

/-- A command whose block can be read, and whose records pass their tests: it traps by a record that it reads, or waits for its channel's
room, or joins the office. -/
theorem sortCmd_block (inside : s'.myCl.lsOk a.toNat 64 = true) :
    let pa := lsAt s'.clNo a.toNat
    let b := tab (fun i => BitVec.ofNat 64 (s'.load (pa + 8 * i) 8)) 8
    s'.badAt pa 64 = false → s'.getRecs (blkRecs fn b) = .ok (rs, s2) → (s2.tl s2.cur t.toNat).wraps 1 = false →
    (∀ tr, s2.srcTrap fn b rs = some tr → sortCmd fn t x s = s2.trapNow tr) ∧
    (s2.srcTrap fn b rs = none → (s2.mySite.office.filter fun q => q.ch == cwId (blkWord fn b) % 8 && q.run != 2).length < 32 →
      let z := (s2.readAt s2.clNo pa 64).takeNums s2.cur t.toNat 1
      sortCmd fn t x s = .next (z.joinOffice fn b rs (s2.newOp t.toNat) (z.opDead (s2.newOp t.toNat)))) := by
  intro pa b good recs room
  have step : sortCmd fn t x s = andThen ((s2.srcTrap fn b rs).map .trap) s2 fun s =>
      andThen (if 32 ≤ (s.mySite.office.filter fun q => q.ch == cwId (blkWord fn b) % 8 && q.run != 2).length then some (.hold .block) else none)
        s fun s => .next (((s.readAt s.clNo pa 64).takeNums s.cur t.toNat 1).joinOffice fn b rs (s.newOp t.toNat)
          (((s.readAt s.clNo pa 64).takeNums s.cur t.toNat 1).opDead (s.newOp t.toNat))) := by
    unfold sortCmd engGate
    rw [gate_pass _ ready]
    simp only [read]
    rw [if_neg (not_not.mpr aligned), inside, if_pos rfl]
    dsimp only
    rw [good, if_neg Bool.false_ne_true, recs]
    dsimp only
    rw [tlRoom_of_room room, andThen_none, if_neg Bool.false_ne_true]
    simp only [Bool.not_false, Bool.true_and, decide_eq_true_eq, Bool.false_eq_true, if_false]
    rfl
  refine ⟨fun tr trap => ?_, fun clear free => ?_⟩
  · rw [step, trap]
    rfl
  · rw [step, clear, Option.map_none, andThen_none, if_neg (Nat.not_le.mpr free), andThen_none]

end

/-! ## cstat's word (R223) -/

/-- The fields of the word that cstat samples: the state, how many commands are outstanding, how many members have issued, chunks. -/
theorem commWord_fields {state n : Nat} (chunks len : Nat) (hs : state < 8) (hn : n < 2 ^ 17) :
    let w : W64 := BitVec.ofNat 64 (chunks % 2 ^ 32 * 2 ^ 32 + n * 2 ^ 15 + min 255 len * 2 ^ 7 + state)
    fld w 0 3 = state ∧ fld w 7 8 = min 255 len ∧ fld w 15 17 = n ∧ fld w 32 32 = chunks % 2 ^ 32 := by
  intro w
  have hc : chunks % 2 ^ 32 < 2 ^ 32 := Nat.mod_lt _ (by decide)
  have hl : min 255 len < 256 := Nat.lt_succ_of_le (Nat.min_le_left _ _)
  have e : w.toNat = chunks % 2 ^ 32 * 2 ^ 32 + n * 2 ^ 15 + min 255 len * 2 ^ 7 + state :=
    (BitVec.toNat_ofNat _ _).trans (Nat.mod_eq_of_lt (by omega))
  simp only [fld, bits, e]
  generalize chunks % 2 ^ 32 = c at *
  generalize min 255 len = l at *
  refine ⟨?_, ?_, ?_, ?_⟩ <;> omega

/-! ## The members of a communicator (R215) -/

@[simp] theorem State.members_takeNums (s : State) (g t n cl : Nat) (w : W64) : (s.takeNums g t n).members cl w = s.members cl w := rfl
@[simp] theorem State.memberIx_takeNums (s : State) (g t n cl : Nat) (w : W64) : (s.takeNums g t n).memberIx cl w = s.memberIx cl w := rfl

/-- Settles O24: a command of the office by its block, cstat by the fields of its word, and ccancel by the members it names. -/
theorem sortCommandsIssue : Obligations.SortCommandsIssue := by
  intro s s' s2 a v t x y
  refine ⟨fun read c hc ready => ?office, fun read ready => ?cstat,
    fun read ready room => ⟨fun stranger => ?stranger, fun m member alone => ?alone, fun m member others => ?others⟩⟩
  case office =>
    simp only [List.mem_cons, List.not_mem_nil, or_false] at hc
    rcases hc with rfl | rfl | rfl
    all_goals
      exact ⟨fun rs aligned inside => sortCmd_block ready read aligned inside, sortCmd_unaligned ready read,
        fun room aligned => sortCmd_outside ready read aligned room⟩
  case cstat =>
    rw [exec_of_ready ready fun _ => rfl, read]
    refine ⟨_, rfl, fun idle => ?_, fun c cs mine issued => ?_⟩
    · rw [idle]
      rfl
    · have state : (if c.run ≠ 0 then 2 else if s'.arrivedAt c = cwCount c.word then 3 else 1) < 8 := by split_ifs <;> decide
      rw [mine]
      exact commWord_fields c.chunks (c :: cs).length state issued
  case stranger =>
    rw [exec_of_ready ready fun _ => rfl]
    simp only [read]
    refine winCmd_does room rfl (if_pos ?_)
    rw [State.memberIx_takeNums, State.clNo_takeNums, stranger]
    rfl
  case alone =>
    rw [exec_of_ready ready fun _ => rfl]
    simp only [read]
    refine winCmd_does room rfl ?_
    rw [State.memberIx_takeNums, State.clNo_takeNums, member, State.members_takeNums, State.myCl_takeNums, alone]
    rfl
  case others =>
    rw [exec_of_ready ready fun _ => rfl]
    simp only [read]
    refine winCmd_does room rfl ?_
    rw [State.memberIx_takeNums, State.clNo_takeNums, member, State.members_takeNums, State.myCl_takeNums]
    exact if_neg (mt List.isEmpty_iff.mp others)

end Sys2Proof.Machine
end

section
/-! SUPPORT. The notices of the window commands as they reach their members (O38). -/
namespace Sys2Proof.Machine

theorem exec_windowCollectiveNotice (m : Nat) (s : State) : exec (.windowCollectiveNotice m) s = execWindowCollectiveNotice m s := rfl
theorem exec_fenceCloseNotice (m : Nat) (s : State) : exec (.fenceCloseNotice m) s = execFenceCloseNotice m s := rfl
theorem exec_postNotice (m : Nat) (s : State) : exec (.postNotice m) s = execPostNotice m s := rfl
theorem exec_completeNotice (m : Nat) (s : State) : exec (.completeNotice m) s = execCompleteNotice m s := rfl
theorem exec_lockRequest (m : Nat) (s : State) : exec (.lockRequest m) s = execLockRequest m s := rfl
theorem exec_lockRelease (m : Nat) (s : State) : exec (.lockRelease m) s = execLockRelease m s := rfl

/-! ## One more target of a wcompl has been told (R204) -/

section
variable {s : State} {o n : Nat} {op : Op} {e : Epoch} (found : (s.cl o).epochs.find? (fun e => (e.ending.map (·.1)) == some op) = some e)
  (left : e.ending = some (op, n))
include found left

theorem complTold_last (last : n ≤ 1) :
    s.complTold o op = (s.setCl o { s.cl o with epochs := (s.cl o).epochs.filter fun x => !decide (x = e) }).opDone op := by
  unfold State.complTold
  simp only [found, left, Option.map_some, Option.getD_some]
  rw [if_pos last]

theorem complTold_more (more : 1 < n) : s.complTold o op =
    s.setCl o { s.cl o with epochs := (s.cl o).epochs.map fun x => if x = e then { x with ending := some (op, n - 1) } else x } := by
  unfold State.complTold
  simp only [found, left, Option.map_some, Option.getD_some]
  rw [if_neg (Nat.not_le.mpr more)]

end

/-! ## The answer to a lock request (R205, R344) -/

theorem lockAnswer_far {s : State} {cl w : Nat} {q : LockReq} {g : Option Nat} (far : 32768 ≤ q.op.ctx) :
    s.lockAnswer cl w q g = s.send cl (q.op.ctx / 4) (.lockGrant w q g) := if_pos far

theorem lockAnswer_lost {s : State} {cl w : Nat} {q : LockReq} (near : q.op.ctx < 32768) : s.lockAnswer cl w q none = s.lockLost w q :=
  if_neg (Nat.not_le.mpr near)

section
variable {s : State} {m w : Nat} {msg : Msg} {r : LockReq} (arrived : s.arrived m = some msg) (act : msg.act = .lockReq w r)
include arrived act

/-- A request that finds 64 queued stays where it is (R328). -/
theorem exec_lockRequest_full (full : 64 ≤ (mget {} (s.cl msg.dst).frank w).queue.length) : exec (.lockRequest m) s = .next s := by
  simp only [exec_lockRequest, execLockRequest, arrived, act]
  rw [if_pos full]

variable (room : (mget {} (s.cl msg.dst).frank w).queue.length < 64)
include room

theorem exec_lockRequest_queued (created : (mget {} (s.cl msg.dst).frank w).state ≠ 0) : exec (.lockRequest m) s =
    .next (((s.take m).setFrank msg.dst w { mget {} (s.cl msg.dst).frank w with
      queue := (mget {} (s.cl msg.dst).frank w).queue ++ [r] }).grantLocks msg.dst w 65) := by
  simp only [exec_lockRequest, execLockRequest, arrived, act]
  rw [if_neg (Nat.not_le.mpr room), if_neg created]

/-- A request for a window that its target does not have is answered at once. -/
theorem exec_lockRequest_answered (absent : (mget {} (s.cl msg.dst).frank w).state = 0) :
    exec (.lockRequest m) s = .next ((s.take m).lockAnswer msg.dst w r none) := by
  simp only [exec_lockRequest, execLockRequest, arrived, act]
  rw [if_neg (Nat.not_le.mpr room), if_pos absent]

end

/-- Settles O38: each notice by the branch of its step that its kind chooses. -/
theorem windowStepResults : Obligations.WindowStepResults := by
  intro s m msg arrived
  refine ⟨fun kind w k p c u act joined => ?notice, fun kind w ok p act => ?ended, fun w k p c u act joined => ?closed,
    fun o w r num act => ?post, fun w r op o act => ?compl,
    fun w r act => ⟨exec_lockRequest_queued arrived act, fun room absent far => ?lockFar, fun room absent near => ?lockNear,
      exec_lockRequest_full arrived act⟩,
    fun w r g act => ⟨fun n won => ?granted, fun lost => ?refused⟩, fun w op act => ?unlock, fun op act => ?ack⟩
  case notice => simp only [exec_windowCollectiveNotice, execWindowCollectiveNotice, arrived, act, joined]
  case ended => simp only [exec_windowCollectiveNotice, execWindowCollectiveNotice, arrived, act]
  case closed => simp only [exec_fenceCloseNotice, execFenceCloseNotice, arrived, act, joined]
  case post => simp only [exec_postNotice, execPostNotice, arrived, act]
  case compl =>
    have step := exec_completeNotice m s
    unfold execCompleteNotice at step
    simp only [arrived, act] at step
    refine ⟨fun far => ?_, fun e n near found left => ⟨fun last => ?_, fun more => ?_⟩⟩
    · rw [step, if_neg (Nat.not_lt.mpr far)]
    · rw [step, if_pos near, complTold_last found left last]
    · rw [step, if_pos near, complTold_more found left more]
  case lockFar => rw [exec_lockRequest_answered arrived act room absent, lockAnswer_far far]
  case lockNear =>
    rw [exec_lockRequest_answered arrived act room absent, lockAnswer_lost near]
    rfl
  case granted =>
    simp only [exec_lockRequest, execLockRequest, arrived, act, won]
    rfl
  case refused =>
    simp only [exec_lockRequest, execLockRequest, arrived, act, lost]
    rfl
  case unlock => simp only [exec_lockRelease, execLockRelease, arrived, act]
  case ack => simp only [exec_lockRelease, execLockRelease, arrived, act]

end Sys2Proof.Machine
end

section
/-! SUPPORT. The sorting office's steps (O39): announcements, counts, cancels and chunks. -/
namespace Sys2Proof.Machine

theorem exec_headAnnouncement (m : Nat) (s : State) : exec (.headAnnouncement m) s = execHeadAnnouncement m s := rfl
theorem exec_dispatchCountExchange (m : Nat) (s : State) : exec (.dispatchCountExchange m) s = execDispatchCountExchange m s := rfl
theorem exec_cancelArrival (m : Nat) (s : State) : exec (.cancelArrival m) s = execCancelArrival m s := rfl
theorem exec_deliveryStreamEntry (ctx sid : Nat) (s : State) : exec (.deliveryStreamEntry ctx sid) s = .next (s.deliverEntry ctx sid) := rfl
theorem exec_collectiveChunk (p ch : Nat) (s : State) : exec (.collectiveChunk p ch) s = execCollectiveChunk p ch s := rfl

/-! ## One more member of a ccancel has been told (R224) -/

section
variable {s : State} {n : Nat} {op : Op} (found : (s.cl (op.ctx / 4)).cancels.find? (fun e => decide (e.1 = op)) = some (op, n))
include found

theorem cancelTold_last (last : n ≤ 1) : s.cancelTold op = (s.setCl (op.ctx / 4) { s.cl (op.ctx / 4) with
    cancels := (s.cl (op.ctx / 4)).cancels.filter fun f => !decide (f.1 = op) }).opDone op := by
  unfold State.cancelTold
  simp only [found]
  rw [if_pos last]

theorem cancelTold_more (more : 1 < n) : s.cancelTold op = s.setCl (op.ctx / 4) { s.cl (op.ctx / 4) with
    cancels := (s.cl (op.ctx / 4)).cancels.map fun f => if f.1 = op then (op, f.2 - 1) else f } := by
  unfold State.cancelTold
  simp only [found]
  rw [if_neg (Nat.not_le.mpr more)]

end

/-! ## Chunks (R336) -/

section
variable {s : State} {p ch : Nat}

/-- It is not the channel's turn. -/
theorem exec_collectiveChunk_waits
    (other : ((s.dropChunks p).turnOrder p).find? (fun h => ((s.dropChunks p).mover p h).isSome) ≠ some ch) :
    exec (.collectiveChunk p ch) s = .next (s.dropChunks p) := by
  simp only [exec_collectiveChunk, execCollectiveChunk]
  rw [if_pos other]

theorem exec_collectiveChunk_moves {c : SortCmd}
    (turn : ((s.dropChunks p).turnOrder p).find? (fun h => ((s.dropChunks p).mover p h).isSome) = some ch)
    (mover : (s.dropChunks p).mover p ch = some c) :
    let z := (s.dropChunks p).setSite p { (s.dropChunks p).site p with lastCh := ch }
    exec (.collectiveChunk p ch) s = .next (if c.fn = 1 then z.combineTurn c else z.collTurn c (z.ixOf c)) := by
  simp only [exec_collectiveChunk, execCollectiveChunk]
  rw [if_neg (not_not.mpr turn), mover]

end

/-- Settles O39: each message by the branch of its step that what it finds chooses, and a chunk by its channel's turn. -/
theorem sortStepResults : Obligations.SortStepResults := by
  intro s
  refine ⟨fun m msg arrived => ⟨fun n act live => ?head, fun n act old => ?headOld, fun id cc k ix pre c act running => ?counts,
      fun id cc k ix pre no sum c act running => ?totals, fun id cc k ix pre tot act ended => ?ended, fun id op act far => ?cancelFar,
      fun id op n act near found => ⟨fun last => ?cancelLast, fun more => ?cancelMore⟩⟩,
    fun ctx sid => exec_deliveryStreamEntry ctx sid s,
    fun p ch => ⟨exec_collectiveChunk_waits, fun c => exec_collectiveChunk_moves⟩⟩
  case head =>
    simp only [exec_headAnnouncement, execHeadAnnouncement, arrived, act]
    rw [decide_eq_false (Nat.not_lt.mpr live)]
    rfl
  case headOld =>
    simp only [exec_headAnnouncement, execHeadAnnouncement, arrived, act]
    rw [decide_eq_true old]
    rfl
  case counts => simp only [exec_dispatchCountExchange, execDispatchCountExchange, arrived, act, running]
  case totals => simp only [exec_dispatchCountExchange, execDispatchCountExchange, arrived, act, running, Option.isNone_iff_eq_none]
  case ended =>
    simp only [exec_dispatchCountExchange, execDispatchCountExchange, arrived, act, ended]
    split <;> rfl
  case cancelFar =>
    simp only [exec_cancelArrival, execCancelArrival, arrived, act]
    rw [if_neg (Nat.not_lt.mpr far)]
  case cancelLast =>
    simp only [exec_cancelArrival, execCancelArrival, arrived, act]
    rw [if_pos near, cancelTold_last found last]
  case cancelMore =>
    simp only [exec_cancelArrival, execCancelArrival, arrived, act]
    rw [if_pos near, cancelTold_more found more]

end Sys2Proof.Machine
end

section
/-! SUPPORT. Requests at their target and answers at their origin (O37): packets, translations and tokens. -/
namespace Sys2Proof.Machine

theorem exec_remoteRequestArrival (m : Nat) (s : State) : exec (.remoteRequestArrival m) s = execRemoteRequestArrival m s := rfl
theorem exec_orderedPacketRelease (m : Nat) (s : State) : exec (.orderedPacketRelease m) s = execOrderedPacketRelease m s := rfl
theorem exec_remoteResponseArrival (m : Nat) (s : State) : exec (.remoteResponseArrival m) s = execRemoteResponseArrival m s := rfl
theorem exec_translationRequest (m : Nat) (s : State) : exec (.translationRequest m) s = execTranslationRequest m s := rfl
theorem exec_translationReply (m : Nat) (s : State) : exec (.translationReply m) s = execTranslationReply m s := rfl
theorem exec_tokenInvalidation (m : Nat) (s : State) : exec (.tokenInvalidation m) s = execTokenInvalidation m s := rfl
theorem exec_tokenInvalidationAck (m : Nat) (s : State) : exec (.tokenInvalidationAck m) s = execTokenInvalidationAck m s := rfl

/-! ## A request at its target's port (R202, R329) -/

theorem State.reread_fresh {s : State} {p : Packet} (fresh : p.late = none) : s.reread p = (.ok p, s) := by
  unfold State.reread
  simp only [fresh]

/-- A packet that passes leaves the state, and its homes; one that does not is rejected. -/
theorem State.clearPacket_some {s u : State} {cl : Nat} {p : Packet} {t : Token} {pas : List Nat}
    (clear : s.clearPacket cl p t = (u, some pas)) : u = s := by
  unfold State.clearPacket at clear
  dsimp only at clear
  split at clear
  · cases clear
  · split at clear
    · cases clear
    · exact (congrArg Prod.fst clear).symm

section
variable {u : State} {cl : Nat} {q : Packet}

theorem testPacket_stranger (stranger : (u.cl cl).ti.ranks.findIdx? (· == q.op.ctx / 4) = none) :
    u.testPacket cl q = u.rejectPacket cl q 2 false := by
  unfold State.testPacket
  simp only [stranger]

variable {o : Nat} (member : (u.cl cl).ti.ranks.findIdx? (· == q.op.ctx / 4) = some o)
include member

theorem testPacket_fails {code : Nat} (test : (mget {} (u.cl cl).frank q.win).test q o = some code) :
    u.testPacket cl q = (u.rejectPacket cl q code true).resolveSeq cl q.op.ctx q.seq := by
  unfold State.testPacket
  simp only [member, test]

variable (test : (mget {} (u.cl cl).frank q.win).test q o = none)
include test

theorem testPacket_stale (dead : (u.cl cl).liveToken q = none) : u.testPacket cl q = u.respond cl q (.stale q) := by
  unfold State.testPacket
  simp only [member, test, dead]

variable {t : Token} (live : (u.cl cl).liveToken q = some t)
include live

theorem testPacket_rejected {v : State}
    (failed : u.clearPacket cl { q with base := (mget {} (u.cl cl).frank q.win).base } t = (v, none)) : u.testPacket cl q = v := by
  unfold State.testPacket
  simp only [member, test, live, failed]

/-- A packet accepted is held until a cycle to come, and answered unless its data answer it, or it comes from this very cluster. -/
theorem testPacket_held {v : State} {pas : List Nat} (clear : u.clearPacket cl { q with base := (mget {} (u.cl cl).frank q.win).base } t = (v, some pas)) :
    ∃ due, (u.cl cl).cycle ≤ due ∧
      let p : Packet := { q with base := (mget {} (u.cl cl).frank q.win).base }
      let y : State := { v with free := v.free + 1 }
      let h := y.setCl cl { y.cl cl with held := (y.cl cl).held ++ [{ p with due := due }] }
      u.testPacket cl q = if q.kind.answers = true ∨ q.op.ctx / 4 = cl then h else h.respond cl p (.accepted p) := by
  have same := State.clearPacket_some clear
  refine ⟨(v.cl cl).cycle + v.fresh.1.toNat % Config.postBound, same ▸ Nat.le_add_right _ _, ?_⟩
  unfold State.testPacket
  simp only [member, test, live, clear, Bool.or_eq_true, beq_iff_eq]
  rfl

end

/-! ## An answer's data at its origin (R210, R257) -/

@[simp] theorem State.cl_take (s : State) (m cl : Nat) : (s.take m).cl cl = s.cl cl := rfl
@[simp] theorem State.rankCl_take (s : State) (m cl r : Nat) : (s.take m).rankCl cl r = s.rankCl cl r := rfl

/-- A row, and the second step of an answer, are delivered wholly. -/
theorem dataStep_last {s : State} {cl m v : Nat} {p : Packet} {fl : Flags} {lines : List (Nat × Nat)}
    (last : p.half.isSome = true ∨ p.row.isSome = true) : s.dataStep cl m p v fl lines = (s.take m).takeData cl p v fl lines :=
  if_pos (last.imp_right Or.inl)

section
variable {s : State} {cl m v : Nat} {p : Packet} {fl : Flags} {lines : List (Nat × Nat)}
  (waits : (s.cl cl).accs.any (fun a => a.id == p.acc) = true)
include waits

theorem dataStep_row {row : Nat} (hrow : p.row = some row) :
    s.dataStep cl m p v fl lines = ((s.take m).keepRow cl p row v).accNote cl p true true 0 := by
  rw [dataStep_last (Or.inr (by rw [hrow]; rfl)), State.takeData, State.cl_take, waits, Bool.not_true, if_neg Bool.false_ne_true]
  simp only [hrow]

variable (buffer : p.row = none)
include buffer

/-- The first step writes a free half of the elements and leaves the message, unless a write fails. -/
theorem dataStep_first (first : p.half = none) :
    let u0 : State := { s with free := s.free + (p.delivery v).length / 64 + 1 }
    (∀ t, u0.engWriteAll cl p.op (freeHalf s.free true (p.delivery v)) = (t, none) →
      s.dataStep cl m p v fl lines = t.setAct m (.data { p with half := some s.free } v fl lines)) ∧
    (∀ t e, u0.engWriteAll cl p.op (freeHalf s.free true (p.delivery v)) = (t, some e) →
      s.dataStep cl m p v fl lines = ((t.take m).opFail p.op e).accFail cl p e.1 0) := by
  have begins : ¬(p.half.isSome = true ∨ p.row.isSome = true ∨ (!(s.cl cl).accs.any fun a => a.id == p.acc) = true) := by
    rw [waits, buffer, first]
    decide
  unfold State.dataStep
  rw [if_neg begins]
  dsimp only
  exact ⟨fun t written => by rw [written], fun t e failed => by rw [failed]⟩

/-- The second step writes the others, and the answer is done with. -/
theorem dataStep_second {k : Nat} (second : p.half = some k) :
    (∀ u, (s.take m).engWriteAll cl p.op (freeHalf k false (p.delivery v)) = (u, none) →
      s.dataStep cl m p v fl lines = (u.keepReplicas cl p lines).accNote cl p true true fl) ∧
    (∀ u e, (s.take m).engWriteAll cl p.op (freeHalf k false (p.delivery v)) = (u, some e) →
      s.dataStep cl m p v fl lines = (u.opFail p.op e).accFail cl p e.1 0) := by
  rw [dataStep_last (Or.inl (by rw [second]; rfl)), State.takeData, State.cl_take, waits, Bool.not_true, if_neg Bool.false_ne_true]
  simp only [buffer, second]
  exact ⟨fun u written => by rw [written], fun u e failed => by rw [failed]⟩

end

/-! ## Tokens (R331, R332) -/

/-- A map whose entries are replaced is read through the replacement, which keeps the default. -/
theorem mget_map_of_default {α : Type} {d : α} {f : Nat → α → α} {k : Nat} (keeps : f k d = d) (m : Map α) :
    mget d (m.map fun e => (e.1, f e.1 e.2)) k = f k (mget d m k) := by
  induction m with
  | nil => exact keeps.symm
  | cons e m ih =>
    by_cases here : k = e.1
    · simp [mget, here]
    · simpa [mget, here] using ih

/-- A revoked token that every holder has acknowledged, and under which none of the packets held came (R332). -/
def Token.settled (held : List Packet) (ix : Nat) (t : Token) : Bool :=
  t.state == 2 && t.acks == 0 && !(held.any fun p => decide (p.token = some (t.gen, ix)))

theorem Token.settled_iff (held : List Packet) (ix : Nat) (t : Token) :
    t.settled held ix = true ↔ t.state = 2 ∧ t.acks = 0 ∧ ∀ p ∈ held, p.token ≠ some (t.gen, ix) := by
  simp [Token.settled, and_assoc]

/-- The token FREE once it has settled. -/
def Token.settle (held : List Packet) (ix : Nat) (t : Token) : Token := if t.settled held ix then { t with state := 0 } else t

theorem tokens_settleTokens (s : State) (cl : Nat) :
    ((s.settleTokens cl).cl cl).tokens = (s.cl cl).tokens.map fun e => (e.1, e.2.settle (s.cl cl).held e.1) := by
  unfold State.settleTokens
  dsimp only
  split
  case isTrue frees =>
    rw [State.cl_setCl]
    refine List.map_congr_left fun e _ => ?_
    show (if e.2.settled (s.cl cl).held e.1 then (e.1, { e.2 with state := 0 }) else e) = (e.1, e.2.settle _ _)
    unfold Token.settle
    split <;> rfl
  case isFalse stands =>
    rw [Bool.not_eq_true, List.any_eq_false] at stands
    refine ((List.map_congr_left fun e he => ?_).trans (List.map_id _)).symm
    exact congrArg (Prod.mk e.1) (if_neg (stands e he))

/-- A token that has settled is FREE after its table is settled, and any other is as it was. -/
theorem token_settleTokens (s : State) (cl ix : Nat) : mget {} ((s.settleTokens cl).cl cl).tokens ix =
    (mget {} (s.cl cl).tokens ix).settle (s.cl cl).held ix := by
  rw [tokens_settleTokens]
  exact mget_map_of_default (f := fun i (t : Token) => t.settle (s.cl cl).held i) rfl _

/-- The token with an acknowledgement of holder h counted. -/
def Token.acked (t : Token) (h : Nat) : Token := { t with acks := t.acks - 1, wait := t.wait.erase h }

theorem token_ackToken {s : State} {cl ix gen h : Nat} {t : Token} (token : mget {} (s.cl cl).tokens ix = t) (revoked : t.state = 2)
    (named : t.gen = gen) (owes : h ∈ t.wait) :
    mget {} ((s.ackToken cl ix gen h).cl cl).tokens ix = (t.acked h).settle (s.cl cl).held ix := by
  unfold State.ackToken
  dsimp only
  rw [token, if_pos ⟨revoked, named, owes⟩, token_settleTokens, State.cl_setCl, mget_mset_same]
  rfl

@[simp] theorem Token.acks_settle (held : List Packet) (ix : Nat) (t : Token) : (t.settle held ix).acks = t.acks := by
  unfold Token.settle
  split <;> rfl

/-- The last acknowledgement frees a revoked token, unless a packet is held under it. -/
theorem Token.state_settle_acked {t : Token} (held : List Packet) (ix h : Nat) (revoked : t.state = 2) :
    ((t.acked h).settle held ix).state = if t.acks ≤ 1 ∧ ∀ p ∈ held, p.token ≠ some (t.gen, ix) then 0 else 2 := by
  have freed : (t.acked h).settled held ix = true ↔ t.acks ≤ 1 ∧ ∀ p ∈ held, p.token ≠ some (t.gen, ix) := by
    rw [Token.settled_iff]
    exact ⟨fun ⟨_, acks, free⟩ => ⟨Nat.sub_eq_zero_iff_le.mp acks, free⟩,
      fun ⟨acks, free⟩ => ⟨revoked, Nat.sub_eq_zero_iff_le.mpr acks, free⟩⟩
  by_cases frees : (t.acked h).settled held ix = true
  · rw [Token.settle, if_pos frees, if_pos (freed.mp frees)]
  · rw [Token.settle, if_neg frees, if_neg (mt freed.mpr frees)]
    exact revoked

/-! ## Translations (R330, R331) -/

theorem Cluster.rtcFind_head {c : Cluster} {e : RtcEnt} {p : Packet} {l : List RtcEnt} (cached : c.rtc = e :: l) (waits : Packet.waitsFor e p = true) :
    c.rtcFind p = some e := by
  rw [Cluster.rtcFind, cached]
  refine List.find?_cons_of_pos ?_
  rw [← waits, Packet.waitsFor, BEq.comm (a := e.rank), BEq.comm (a := e.win)]

/-- A reply's entry put at the head of the cache, which holds 64 (R330). -/
def State.cacheEntry (s : State) (cl : Nat) (e : RtcEnt) : State :=
  s.setCl cl { s.cl cl with rtc := (e :: (s.cl cl).rtc.filter fun x => !decide (x = e)).take 64 }

theorem rtc_cacheEntry (s : State) (cl : Nat) (e : RtcEnt) :
    ((s.cacheEntry cl e).cl cl).rtc = e :: ((s.cl cl).rtc.filter fun x => !decide (x = e)).take 63 :=
  congrArg Cluster.rtc (s.cl_setCl cl _)

theorem takeWaiting_idle {s : State} {cl : Nat} (sel : Packet → Bool) (idle : (s.cl cl).rtcWait = []) : (s.takeWaiting cl sel).1 = [] := by
  rw [State.takeWaiting, idle]
  rfl

/-- A reply's entry is cached, and the packets that waited for it are sent (R330). -/
theorem exec_translationReply_ok {s : State} {m : Nat} {msg : Msg} {e : RtcEnt} (arrived : s.arrived m = some msg) (act : msg.act = .transOk e) :
    let w := (s.take m).takeWaiting msg.dst (Packet.waitsFor e)
    exec (.translationReply m) s = .next (w.1.foldl (fun s p => s.sendPacket msg.dst p) (w.2.cacheEntry msg.dst e)) := by
  simp only [exec_translationReply, execTranslationReply, arrived, act]
  rfl

/-- With no packet waiting, a reply leaves its entry in the cache. -/
theorem exec_translationReply_cached {s : State} {m : Nat} {msg : Msg} {e : RtcEnt} (arrived : s.arrived m = some msg) (act : msg.act = .transOk e)
    (idle : (s.cl msg.dst).rtcWait = []) :
    ∃ t, exec (.translationReply m) s = .next t ∧ ∀ p, Packet.waitsFor e p = true → (t.cl msg.dst).rtcFind p = some e := by
  have step := exec_translationReply_ok arrived act
  dsimp only at step
  rw [takeWaiting_idle (s := s.take m) _ idle] at step
  exact ⟨_, step, fun p waits => Cluster.rtcFind_head (rtc_cacheEntry _ _ _) waits⟩

/-- A holder drops what it caches of a token that is invalidated (R332). -/
theorem exec_tokenInvalidation_drops {s : State} {m port gen ix : Nat} {msg : Msg} (arrived : s.arrived m = some msg)
    (act : msg.act = .inval port gen ix) : ∃ t, exec (.tokenInvalidation m) s = .next t ∧
      ∀ e ∈ (t.cl msg.dst).rtc, ¬(s.rankCl msg.dst e.rank = some port ∧ e.gen = gen ∧ e.ix = ix) := by
  simp only [exec_tokenInvalidation, execTokenInvalidation, arrived, act]
  refine ⟨_, rfl, fun e he => ?_⟩
  rw [(TokensOnly.send _ _ _ _).cl, State.cl_setCl] at he
  rintro ⟨holder, rfl, rfl⟩
  have kept := (List.mem_filter.mp he).2
  rw [State.rankCl_take, holder] at kept
  simp at kept

/-- A packet that clears its checks is applied, and answered with its data or by what has been done of it (R209, R210, R329). -/
theorem applyPacket_clear {s : State} {cl : Nat} {p : Packet} {t : Token} {pas : List Nat} (token : (s.cl cl).tokenOf p = some t)
    (clear : s.clearPacket cl p t = (s, some pas)) :
    let w := s.wholeLines cl { mget {} (s.cl cl).frank p.win with base := p.base } t p
    let r := w.2.applyAll cl p 0 pas
    let u := ((r.2.touch cl p).resolveSeq cl p.op.ctx p.seq).settleTokens cl
    s.applyPacket cl p = if p.kind.answers then u.respond cl p (.data p (pack (8 * p.kind.elem) r.1.1) r.1.2 w.1)
      else (if p.op.ctx / 4 = cl then u.respond cl p (.accepted p) else u).respond cl p (.applied p r.1.2) := by
  unfold State.applyPacket
  simp only [token, Option.getD_some, clear]

/-- No entry is the oldest of a kind that no entry is. -/
theorem filter_none_of_false (o : Option Nat) : (o.filter fun _ => false) = none := by
  cases o <;> rfl

/-- Settles O37: a request by the tests of its target's port, an answer by its kind, a translation by its window's page,
and tokens by what settling leaves of them. -/
theorem remoteStepResults : Obligations.RemoteStepResults := by
  refine ⟨fun s m msg arrived => ⟨fun p act => ⟨State.reread_fresh, fun e u lost => ?lost, fun q u got => ?request⟩, fun p act => ?accepted,
      fun p fl act => ?applied, fun p v fl lines act waits => ?data, fun p code act => ?rejected, fun p act => ?stale,
      fun src rank win off rd wr ra room act => ?translate, fun e act idle => exec_translationReply_cached arrived act idle,
      fun rank win off code rd wr act => ?transFail, fun port gen ix act => exec_tokenInvalidation_drops arrived act,
      fun ix gen act revoked named owes => ?ack⟩,
    fun s k cl p held => ⟨fun waits => ?waits, fun turn due => ?release⟩, fun s cl p t pas token clear => applyPacket_clear token clear⟩
  case lost => simp only [exec_remoteRequestArrival, execRemoteRequestArrival, arrived, act, lost]
  case request =>
    have step : exec (.remoteRequestArrival m) s = .next (u.testPacket msg.dst q) := by
      simp only [exec_remoteRequestArrival, execRemoteRequestArrival, arrived, act, got]
    rw [step]
    refine ⟨fun stranger => ?_, fun o code member test => ?_, fun o member test => ⟨fun dead => ?_, fun t v live failed => ?_,
      fun t pas v live clear => ?_⟩⟩
    · rw [testPacket_stranger stranger]
    · rw [testPacket_fails member test]
    · rw [testPacket_stale member test dead]
    · rw [testPacket_rejected member test live failed]
    · obtain ⟨due, late, outcome⟩ := testPacket_held member test live clear
      exact ⟨due, late, congrArg _ outcome⟩
  case accepted => simp only [exec_remoteResponseArrival, execRemoteResponseArrival, arrived, act]
  case applied => simp only [exec_remoteResponseArrival, execRemoteResponseArrival, arrived, act]
  case rejected => simp only [exec_remoteResponseArrival, execRemoteResponseArrival, arrived, act]
  case stale => simp only [exec_remoteResponseArrival, execRemoteResponseArrival, arrived, act]
  case data =>
    have step : exec (.remoteResponseArrival m) s = .next (s.dataStep msg.dst m p v fl lines) := by
      simp only [exec_remoteResponseArrival, execRemoteResponseArrival, arrived, act]
    rw [step]
    refine ⟨fun buffer first => ?_, fun k buffer second => ?_, fun row hrow => ?_⟩
    · obtain ⟨written, failed⟩ := dataStep_first waits buffer first
      exact ⟨fun t h => congrArg _ (written t h), fun t e h => congrArg _ (failed t e h)⟩
    · obtain ⟨written, failed⟩ := dataStep_second waits buffer second
      exact ⟨fun t h => congrArg _ (written t h), fun t e h => congrArg _ (failed t e h)⟩
    · rw [dataStep_row waits hrow]
  case translate =>
    have step := exec_translationRequest m s
    simp only [execTranslationRequest, arrived, act] at step
    refine ⟨fun outside => ?_, fun tr created inside failed => ?_, fun t created inside page => ?_⟩
    · rw [step, if_pos outside]
    · rw [step, if_neg fun h => h.elim created (Nat.not_le.mpr inside), failed]
    · rw [if_neg fun h => h.elim created (Nat.not_le.mpr inside), page] at step
      refine ⟨fun ix old found => ?_, fun ix new free => ?_, fun new full asked => ?_⟩
      · simpa only [found] using step
      · simpa only [new, free] using step
      · simpa only [new, full, asked, Bool.not_true, filter_none_of_false] using step
  case transFail => simp only [exec_translationReply, execTranslationReply, arrived, act]
  case ack =>
    refine ⟨(s.take m).ackToken msg.dst ix gen msg.src, ?_, ?_, ?_⟩
    · simp only [exec_tokenInvalidationAck, execTokenInvalidationAck, arrived, act]
    · rw [token_ackToken (s := s.take m) rfl revoked named owes, Token.acks_settle]
      rfl
    · rw [token_ackToken (s := s.take m) rfl revoked named owes, State.cl_take, Token.state_settle_acked _ _ _ revoked, named]
  case waits =>
    simp only [exec_orderedPacketRelease, execOrderedPacketRelease, held]
    refine if_pos ?_
    rw [Bool.or_eq_true, Bool.and_eq_true, Bool.not_eq_true', decide_eq_true_eq]
    exact waits
  case release =>
    simp only [exec_orderedPacketRelease, execOrderedPacketRelease, held]
    refine if_neg ?_
    rw [Bool.or_eq_true, Bool.and_eq_true, Bool.not_eq_true', decide_eq_true_eq]
    rintro (⟨ordered, behind⟩ | early)
    · rcases turn with unordered | ready
      · exact Bool.false_ne_true (unordered.symm.trans ordered)
      · exact Bool.false_ne_true (behind.symm.trans ready)
    · exact Nat.not_lt.mpr due early

end Sys2Proof.Machine
end
